-- ==== Sys2Proof/Word.lean ====
section
/-! DEFINITION. The machine word, bytes and times: the types that every other file names. -/

namespace Sys2Proof

/-- A 32-bit register word (R9, R52). -/
abbrev Word := BitVec 32

/-- One byte. Multi-byte fields are little-endian (R7). -/
abbrev Byte := BitVec 8

/-- A sparse table: keys strictly rising, so that equal tables are equal data. -/
abbrev Tbl (α : Type) := List (Nat × α)

end Sys2Proof
end

