-- ==== Sys2Proof/Types.lean ====
section
/-! DEFINITION. The data that commands carry: blocks, controllers, queue entries, control block bodies, identity
records, frames and messages, each with the layout's fields by the names the spec gives them. -/

namespace Sys2Proof

/-- A block of BAR0 by its instance (R50); `wsp w` is the summary page of window w (R62). -/
inductive Block where
  | cpc | fco | evr | eph | bld | sec | pwc
  | hpe (n : Nat) | mge | fab (n : Nat) | toe | hqe
  | dge | fiu | cmp | cry
  | ftu | mca | par | ldc | vlt | mpt (n : Nat)
  | tl (n : Nat) | mir | ocu | hbu
  | dmc (n : Nat) | stg | noc
  | wsp (w : Nat)
  deriving DecidableEq, Repr

/-- The planes (R17). -/
inductive Plane where
  | control | host | reduction | media | pair | memory
  deriving DecidableEq, Repr

/-- NVMe completion statuses that the spec names; it gives no numbers, so each is its name. -/
inductive NvmeSt where
  | success | invalidOpcode | invalidField | dataTransferError | abortedPowerLoss | internalError
  | abortedSqDeletion | commandSequenceError | invalidNamespace | namespaceNotReady | lbaOutOfRange
  | capacityExceeded | reservationConflict | formatInProgress | sanitizeInProgress | sanitizeFailed
  | namespaceWriteProtected | unrecoveredReadError | compareFailure | anaInaccessible | anaTransition
  | anaPersistentLoss | invalidQueueId | invalidQueueSize | invalidCqId | invalidQueueDeletion
  | invalidInterruptVector | invalidLogPage | featureNotChangeable | featureNotSaveable | asyncLimit
  | connectInvalidParameters | connectInvalidHost | controllerBusy | connectRestartDiscovery
  | commandNotAborted | accessDenied | invalidFormat | operationDenied | pathError | internalPathError
  | transientTransportError | keepAliveInvalid | commandInterrupted
  deriving DecidableEq, Repr

/-- An NVMe controller of this head: an HPE function (R102, R109) or a fabric controller (R160). -/
inductive Ctl where
  | hpe (port func : Nat)
  | fab (index : Nat)
  deriving DecidableEq, Repr

/-- A control block descriptor (R84), the fields MGE acts on. -/
structure MgmtDesc where
  opcode  : Nat
  tag     : Nat
  fence   : Bool
  inline  : Bool
  bodyVer : Nat
  bodyLen : Nat
  dataLen : Nat
  deriving DecidableEq, Repr

/-- A submission entry as HQE reads it (R203–R205). `nlb` counts logical blocks, `len` the host data bytes it moves. -/
structure Sqe where
  cid    : Nat
  opc    : Nat
  fused  : Bool
  nsid   : Nat
  slba   : Nat
  nlb    : Nat
  len    : Nat
  fua    : Bool
  deac   : Bool
  /-- Dataset Management ranges: first logical block and count. -/
  ranges : List (Nat × Nat)
  /-- Host buffer segments in order, address and length, from its PRP entries or SGL descriptors (R110, R112). -/
  bufs   : List (Nat × Nat)
  deriving DecidableEq, Repr

/-- The configuration-space settings of a PCIe function that the controller acts on (R112, R113, R115, R122, R130). -/
inductive CfgReg where
  | maxRead | maxPayload | tagBits | ctoDisable | memEnable
  deriving DecidableEq, Repr

/-- NS_CREATE body (R229). -/
structure NsCreateBody where
  nsid     : Nat
  group    : Nat
  tenant   : Nat
  nsze     : Nat
  lbaf     : Nat
  cmpMode  : Nat
  cmpLevel : Nat
  grouping : Nat
  domain   : Nat
  layout   : Nat
  key      : Nat
  nextKey  : Nat
  nguid    : Nat
  deriving DecidableEq, Repr

/-- NS_MODIFY body (R230); `valid` is the VALID bit map, `nqn` the host NQN of the data buffer. -/
structure NsModifyBody where
  nsid     : Nat
  action   : Nat
  valid    : Nat
  nsze     : Nat
  cmpMode  : Nat
  cmpLevel : Nat
  grouping : Nat
  layout   : Nat
  tenant   : Nat
  nextKey  : Nat
  nqn      : List Byte
  deriving DecidableEq, Repr

/-- KEY_LOAD body (R345). -/
structure KeyLoadBody where
  kind       : Nat
  slot       : Nat
  wrapSlot   : Nat
  wrappedLen : Nat
  keyId      : Nat
  ephPub     : List Byte
  wrapped    : List Byte
  deriving DecidableEq, Repr

/-- A DGE job descriptor (R363). -/
structure DgeDesc where
  alg      : Nat
  first    : Bool
  last     : Bool
  compare  : Bool
  extend   : Bool
  push     : Bool
  rsv      : Bool
  ctx      : Nat
  ctxGen   : Nat
  keySlot  : Nat
  keySrc   : Nat
  mr       : Nat
  declLen  : Nat
  result   : Nat
  tag      : Nat
  /-- Control core of ring 0 (R357). -/
  core     : Nat
  deriving DecidableEq, Repr

/-- A bulk job (R331–R333): its input, the chain or output limit, and the mode each segment was encoded in. -/
structure BulkJob where
  id    : Nat
  input : List Byte
  /-- Output chain entry lengths (compress), in order. -/
  chain : List Nat
  /-- Output limit (expand). -/
  limit : Nat
  /-- CMP_MODE and CMP_LEVEL for compress. -/
  mode  : Nat
  level : Nat
  deriving DecidableEq, Repr

/-- SNAP_CREATE body (R533). -/
structure SnapBody where
  instant : Nat
  groupId : Nat
  nsids   : List Nat
  skipLate : Bool
  requireTime : Bool
  deriving DecidableEq, Repr

/-- EPH_PLACE body (R521). -/
structure PlaceBody where
  instant : Nat
  period  : Nat
  skipLate : Bool
  requireTime : Bool
  nsids   : List Nat
  count   : Nat
  retain  : Nat
  groupId : Nat
  deriving DecidableEq, Repr

/-- CLONE_CREATE body (R537). -/
structure CloneBody where
  nsid     : Nat
  srcNsid  : Nat
  srcEpoch : Nat
  group    : Nat
  tenant   : Nat
  key      : Nat
  nextKey  : Nat
  nguid    : Nat
  deriving DecidableEq, Repr

/-- REPL_SETUP body (R538). -/
structure ReplBody where
  streamId   : Nat
  target     : Bool
  sync       : Bool
  fpFirst    : Bool
  strict     : Bool
  compress   : Bool
  ports      : Nat
  remotePort : Nat
  graceUs    : Nat
  period     : Nat
  firstCut   : Nat
  addrs      : List Nat
  wrapSlot   : Nat
  macKey     : List Byte
  xferKey    : List Byte
  /-- Local and remote NSIDs. -/
  ns         : List (Nat × Nat)
  deriving DecidableEq, Repr

/-- A replication frame (R544): header fields, payload bytes and MAC. -/
structure Frame where
  magic    : Nat
  version  : Nat
  dir      : Nat
  fua      : Bool
  flush    : Bool
  last     : Bool
  streamId : Nat
  fseq     : Nat
  ref      : Nat
  payload  : List Byte
  mac      : List Byte
  deriving DecidableEq, Repr

/-- A Module Identity Record (R495), the fields the controller uses; `crcOk` says that its CRC holds. -/
structure ModRec where
  magic    : Nat
  version  : Nat
  major    : Nat
  serial   : Nat
  holdup   : Bool
  softRead : Bool
  i3c      : Bool
  luns     : Nat
  planes   : Nat
  blocksPerLun : Nat
  pusPerBlock  : Nat
  sysBlocks    : Nat
  puBytes      : Nat
  ratedErases  : Nat
  wear         : Nat
  relocThr     : Nat
  retrySteps   : Nat
  tProgMax     : Nat
  tEraseMax    : Nat
  crcOk        : Bool
  /-- Its 1,024 words as read, for MPT_MIR_DATA; unlisted words are 0. -/
  words        : List (Nat × Nat)
  deriving DecidableEq, Repr

/-- What the module's register block shows at admission (R474): YM_ID, YM_VER, YM_CAP, YM_STAT. -/
structure YmRegs where
  id   : Nat
  ver  : Nat
  cap  : Nat
  stat : Nat
  deriving DecidableEq, Repr

/-- A JOIN record (R565). -/
structure JoinRec where
  head      : Nat
  step      : Nat
  state     : Nat
  owns      : Bool
  vaultImg  : Bool
  pairId    : Nat
  ucodeVer  : Nat
  setVer    : Nat
  cfgDigest : List Byte
  fenceMax  : Nat
  deriving DecidableEq, Repr

/-- A digest message (R570). -/
structure DigestMsg where
  answer : Bool
  stream : Nat
  count  : Nat
  first  : Nat
  cdig   : List Byte
  mdig   : List Byte
  time   : Nat
  deriving DecidableEq, Repr

/-- A Troys packet header (R556); `hcrcOk` says that HCRC holds. -/
structure Pkt where
  typ    : Nat
  ch     : Nat
  len    : Nat
  win    : Nat
  last   : Bool
  offset : Nat
  cseq   : Nat
  hcrcOk : Bool
  deriving DecidableEq, Repr

/-- What a MSG packet of the peer says (R557, R567): the pair-wide records that its SYSTEM clauses and control messages carry, in the
model's own words, since the spec gives their contents and no layout. -/
inductive PeerMsg where
  /-- A message with a row of its own: forwarded commands, digests, arbitration, reference counts. -/
  | own
  /-- Its resident map footprint in GiB (R568); the MODE its evaluation found; its standby has caught up (R37). -/
  | footprint (gib : Nat)
  | mode (m : Nat)
  | caughtUp
  /-- It has reached MIRROR_CURRENT, or refuses the join (R566, R585). -/
  | mirrorCurrent
  | joinRefused
  /-- It asks to reserve an NSID or a group (R228). -/
  | reserve (isGroup : Bool) (id : Nat)
  /-- Records of the pair-wide table: a namespace created or changed, with its protection, one deleted; a group created or
  deleted; a host bound to a tenant group (R222, R230, R567). -/
  | nsRecord (b : NsCreateBody) (protect : Bool)
  | nsGone (nsid : Nat)
  | groupRecord (id : Nat)
  | groupGone (id : Nat)
  | bind (nqn : List Byte) (tenant : Nat)
  /-- Keys loaded and purged on both heads (R343). -/
  | keyLoad (b : KeyLoadBody)
  | keyPurge (kind slot : Nat)
  /-- Epoch numbers granted (R524); a record of an epoch, and its end (R530). -/
  | epochs (numbers : List Nat)
  | epoch (no nsid slot cutSeq instant groupId : Nat)
  | epochGone (no : Nat)
  /-- A pair entry, dormant here, its removal, and an occurrence of it (R519): kind 0 snapshot cut, 1 replication cut. -/
  | entry (no kind start period left ref : Nat) (nsids : List Nat) (groupId retain : Nat)
  | entryGone (no : Nat)
  | occurrence (no instant : Nat)
  /-- A stream record, dormant here, and its end (R519, R539). -/
  | stream (slot : Nat) (body : ReplBody) (mac xfer : List Byte)
  | streamGone (slot : Nat)
  /-- A declaration: 1 in service, 2 Retiring, 3 Failed, 4 Released (R455). -/
  | member (m st : Nat)
  /-- A sanitize it drives: its action, AUSE and STATE (R241, R242). -/
  | sanitize (action state : Nat) (ause : Bool)
  /-- A copy of its checkpoint root (R410, R567). -/
  | root (gen low next storeCtr nextSeq nextBseq : Nat)
  /-- A HANDOVER naming ANA groups, with its highest head sequence number (R587). -/
  | handover (groups : List Nat) (seq : Nat)
  /-- Groups that an OWNERSHIP_MOVE of the peer puts into the Change state, or back (R587, R588). -/
  | moving (groups : List Nat) (on : Bool)
  /-- It asks for a wholly Free extent of a member (R418). -/
  | extentAsk (m : Nat)
  deriving DecidableEq, Repr

/-- The Head Identity Record (R640) as read from its memory; `board` holds bytes 16–47. -/
structure Hir where
  readable : Bool
  magic    : Nat
  version  : Nat
  head     : Nat
  flags    : Nat
  dsn      : Nat
  board    : List Byte
  ssvid    : Nat
  ssid     : Nat
  macBase  : Nat
  portUse  : Nat
  dimmGib  : Nat
  vaultGib : Nat
  crc      : Nat
  deriving DecidableEq, Repr

/-- A clause (R406): TYPE, FLAGS, NSID, P0, P1, P2. -/
structure Clause where
  typ   : Nat
  flags : Nat
  nsid  : Nat
  p0    : Nat
  p1    : Nat
  p2    : Nat
  deriving DecidableEq, Repr

/-- A settings item (R666). -/
structure SetItem where
  id  : Nat
  val : List Byte
  deriving DecidableEq, Repr

/-- A settings block (R666). -/
structure Settings where
  magic  : Nat
  setVer : Nat
  gen    : Nat
  length : Nat
  items  : List SetItem
  crcOk  : Bool
  deriving DecidableEq, Repr

/-- An image header and DRAM copy of the write buffer (R637): a RETAIN record or a vault image. -/
structure ImageHdr where
  head       : Nat
  slot       : Nat
  gen        : Nat
  mirrorLive : Bool
  grave      : Bool
  retained   : Bool
  time       : Nat
  nextCseq   : Nat
  nextSeq    : Nat
  peerCseq   : Nat
  fence      : List (Nat × Nat)
  ok         : Bool
  deriving DecidableEq, Repr

end Sys2Proof
end

