-- ==== Sys2Proof/Syntax.lean ====
section
/-! DEFINITION. The commands: one constructor for each row of the table of operations and events, in its order. A
command's operands are what its sender observes, writes or sends; what the head decides is computed by its meaning.
In the operands, `b` is a block, `p` an HPE port, `c` an NVMe controller, `h` the handle of an outstanding command,
`q tag` a management queue and the TAG of a control block on it, `m` a module, `u` a destage unit, `r` a read. -/

namespace Sys2Proof

/-- A command of the block. -/
inductive Instr where
  -- registers (R48–R63, R630)
  | registerWrite (addr size value : Nat)
  | latchReadLo (addr : Nat)
  | blockEnableWrite (b : Block) (bit : Option Nat) (on microcode : Bool)
  | softReset (b : Block)
  | commit (b : Block) (page : Nat)
  | commitApply (b : Block) (page : Nat)
  | discard (b : Block) (page : Nat)
  | errInjectWrite (b : Block) (bit lane : Nat)
  | injectTakeEffect (b : Block)
  | counterClear (b : Block)
  | powerRequest (b : Block) (req : Nat)
  | powerTransitionDone (b : Block)
  -- management queues and transactions (R71–R90)
  | mqSqEnable (q : Nat) (on : Bool)
  | mqCqEnable (q : Nat) (on : Bool)
  | mqSqDoorbell (q tail : Nat)
  | mqCqDoorbell (q head : Nat)
  | mqFetch (q : Nat) (d : Option MgmtDesc) (bodyErr : Bool)
  | nop (q tag : Nat)
  | txnCommit (q tag id instant : Nat)
  | txnAbortOnly (q tag id : Nat)
  | txnFreeze (id : Nat)
  | txnApply (id : Nat)
  | txnHoldEnd (id : Nat)
  -- host ports (R97–R148)
  | portConventionalReset (p cause : Nat)
  | perstDeassert (p : Nat)
  | hpeLinkUp (p speed width : Nat) (flit : Bool)
  | linkRetrain (b : Block)
  | portHoldDetect (p : Nat) (hold : Bool)
  | mgeConventionalReset
  | flr (p f : Nat)
  | flrComplete (p f : Nat)
  | vfEnableChange (p numVfs : Nat) (enable : Bool)
  | vfBlock (p f : Nat) (block : Bool)
  | configRequest (p f : Nat) (wr : Option (CfgReg × Nat))
  | unsupportedRequest (b : Block) (posted vdm1 : Bool)
  | poisonedWriteRx (b : Block) (poisoned : Bool)
  | hostReadCompletion (p f tag bytes : Nat) (bad poisoned : Bool)
  | completionTimeout (p f tag : Nat)
  | tagQuarantineEnd (p f tag : Nat)
  | sqDoorbell (c : Ctl) (qid tail : Nat)
  | cqDoorbell (c : Ctl) (qid head : Nat)
  | sqFetch (c : Ctl) (qid : Nat) (e : Option Sqe)
  | ccEnable (c : Ctl) (asq acq : Nat)
  | cstsRdySet (c : Ctl)
  | shutdownNotification (c : Ctl)
  | shutdownComplete (c : Ctl)
  | qosRefillTick
  -- admin commands (R204–R207)
  | deleteIoSq (h qid : Nat)
  | deleteSqDone (h : Nat)
  | createIoSq (h qid size cqid prio : Nat) (pc : Bool)
  | getLogPage (h lid : Nat)
  | deleteIoCq (h qid : Nat)
  | createIoCq (h qid size vector : Nat) (ien pc : Bool)
  | identify (h cns : Nat)
  | abort (h : Nat)
  | setFeatures (h fid value : Nat)
  | getFeatures (h fid : Nat)
  | asyncEventRequest (h : Nat)
  | keepAlive (h : Nat)
  | formatNvm (h nsid lbaf ses : Nat)
  | hostSanitize (h sanact : Nat) (ause : Bool)
  | fabricConnect (conn qid cntlid kato size : Nat) (nqn : List Byte) (disc : Bool)
  | propertyGet (h offset : Nat)
  | propertySet (h offset value : Nat)
  -- I/O commands (R205)
  | flush (h : Nat)
  | write (h : Nat) (data : List Byte)
  | read (h : Nat)
  | compare (h : Nat) (data : List Byte)
  | writeZeroes (h : Nat)
  | datasetManagement (h : Nat)
  | verify (h : Nat)
  | reservationRegister (h action key newKey : Nat) (ignoreKey : Bool) (ptpl : Option Bool)
  | reservationReport (h : Nat)
  | reservationAcquire (h action rtype key preemptKey : Nat)
  | reservationRelease (h action rtype key : Nat)
  | powerStateTransitionDone
  -- format, sanitize, namespaces, groups (R228–R245)
  | formatBegin (nsid : Nat)
  | formatComplete (nsid : Nat)
  | sanitizeComplete (ok : Bool)
  | nsCreate (q tag : Nat) (body : NsCreateBody) (peerRefuses : List Nat)
  | nsDelete (q tag nsid : Nat) (withSnaps : Bool)
  | nsModify (q tag : Nat) (body : NsModifyBody)
  | anaGroupSet (q tag group action : Nat) (peerRefuses : Bool)
  | sanitize (q tag sanact : Nat) (ause : Bool)
  | format (q tag nsid lbaf ses : Nat)
  -- write buffer, destage, index (R249–R297)
  | mirrorAck (slot : Nat)
  | slotReleaseAck (slot : Nat)
  | destageStart (slot : Nat)
  | fingerprintDone (u : Nat)
  | indexDecision (u : Nat)
  | tier1InsertDone (fptIdx : Nat)
  | compressDone (u : Nat)
  | groupWaitExpiry (g : Nat)
  | encryptDone (u : Nat)
  | clauseApply (u : Nat)
  | filterRebuild
  | scrubSegment (seg : Nat) (sramBad dramBad : Bool)
  | bankReloadDone (bank : Nat)
  | bankPower (mask : Nat)
  | fptRefill
  | bgdMerge (nsid unit keep : Nat)
  | expandDone (r : Nat)
  | decryptDone (r : Nat) (stored : List Byte)
  | bulkCompressJob (job : BulkJob)
  | bulkExpandJob (job : BulkJob)
  -- keys (R339–R350)
  | keyLoad (q tag : Nat) (body : KeyLoadBody) (peerStatus : Nat)
  | keyPurge (q tag handle : Nat)
  | purgeDrained (kind slot : Nat)
  | keyRestore
  -- DGE and SEC (R355–R389)
  | dgeJob (ring : Nat) (d : DgeDesc)
  | dgeJobComplete (ctx : Nat) (data expect : List Byte) (busErr incoherent : Bool)
  | dgeQuantumExpiry (lane : Nat)
  | dgeContextExpiry (ctx : Nat)
  | dgeAlarm (source : Nat)
  | glitchTrip (detector : Nat)
  | mrExtend (source mr event : Nat) (digest : List Byte)
  | quoteStart
  | quoteDone
  -- map cache and map (R390–R436)
  | mcaLookup (epoch nsid unit : Nat)
  | mcaFill (epoch nsid line : Nat)
  | mcaCleaner
  | mcaGroupOff (g : Nat)
  | mcaGroupOn (g : Nat)
  | mcaAutoGate
  | mcaCacheDisable
  | mcaResetReplay
  | mapPageLoad (epoch nsid page : Nat)
  | journalSpill
  | checkpointPageWrite (epoch nsid page : Nat)
  | checkpointPageDone (epoch nsid page flashAddr : Nat)
  | checkpointRoot
  | shadowCaughtUp (peer : Bool)
  | metadataRecovery (gap : Bool)
  | mapPageRebuild (epoch nsid page : Nat)
  -- bands and garbage collection (R415–R433)
  | bandOpen (cls : Nat) (isMeta isGc : Bool)
  | bandSeal (band : Nat) (early : Bool)
  | extentRequest (m : Nat) (granted : Option Nat)
  | freeSpaceEval
  | gcVictimSelect
  | relocate (nsid unit old new : Nat) (reencoded : Bool)
  | erasePending (band : Nat)
  | eraseDone (band : Nat)
  | fixupWalk (epoch nsid unit : Nat)
  | programFail (m block : Nat)
  | eraseFail (m block : Nat)
  -- parity, members, rebuild, patrol (R437–R468)
  | paritySend (band stripe : Nat)
  | stripeComplete (band stripe : Nat)
  | openStripeComplete (band stripe : Nat) (unreadable : List Nat)
  | memberTimeout (m q cid : Nat)
  | reconstructDone (r : Nat) (others : List (Nat × List Byte)) (pq : List (List Byte))
  | memberFailed (m : Nat)
  | memberDeclareFailed
  | memberDeclareRetiring
  | memberDeclaration (m state : Nat)
  | memberGraceExpiry (m : Nat) (peerDownToo : Bool)
  | rebuildPlanTick
  | rebuildStart (m : Nat)
  | rebuildBand (band : Nat)
  | memberReleased (m : Nat)
  | lostLogAck (n : Nat)
  | patrolStripe (band stripe : Nat) (mismatch : Bool) (oneChunk : Option Nat) (allUnitsPass : Bool) (failing : List Nat)
  | patrolPeriodEnd
  -- modules (R469–R507)
  | mptPerst (m : Nat) (assert : Bool)
  | mptLinkUp (m speed width : Nat) (flit : Bool) (fence : Nat)
  | mptLinkDown (m : Nat)
  | moduleAdmit (m : Nat) (rec : ModRec) (ym : YmRegs)
  | moduleAlert (m : Nat) (rec : ModRec)
  | sidebandPoll (m ystat : Nat)
  | ymCompletion (m q cid status : Nat) (detail : List Nat)
  | programAccepted (m q cid : Nat)
  | programFinal (m q cid status : Nat)
  | codewordDecode (lane m block pu cw status bits : Nat)
  | readRetry (m block pu cw step : Nat)
  | systemRecordMove
  -- time and the Ephemeris (R508–R537)
  | servoUpdate (source : Option Int)
  | ptpEventMessage (port : Nat) (offset : Int)
  | ptpAnnounce (port quality : Nat)
  | ptpAnnounceTimeout (port : Nat)
  | ppsEdge
  | ephSet
  | ephSetTimeout
  | ppsOutRise
  | ppsOutFall
  | entryFire (e : Nat)
  | windowClose (k : Nat)
  | cutGuardEnd (epoch : Nat)
  | epochReady (epoch : Nat)
  | epochReserveRefill (numbers : List Nat)
  | snapCreate (q tag : Nat) (body : SnapBody)
  | snapDelete (q tag nsid epoch : Nat)
  | snapDeleteWalk (epoch : Nat)
  | cloneCreate (q tag : Nat) (body : CloneBody)
  | ephPlace (q tag : Nat) (body : PlaceBody)
  | ephRemove (q tag entry : Nat)
  -- replication (R538–R551)
  | replSetup (q tag : Nat) (body : ReplBody)
  | replTeardown (q tag streamId : Nat) (promote keepBase : Bool)
  | hello (conn : Nat) (f : Frame) (nonce : List Byte)
  | helloAck (conn : Nat) (f : Frame)
  | cutBegin (conn : Nat) (f : Frame)
  | fpBatch (conn : Nat) (f : Frame)
  | need (conn : Nat) (f : Frame)
  | replData (conn : Nat) (f : Frame)
  | replUnmap (conn : Nat) (f : Frame)
  | cutEnd (conn : Nat) (f : Frame)
  | cutCommit (conn : Nat) (f : Frame)
  | syncWrite (conn : Nat) (f : Frame)
  | syncAck (conn : Nat) (f : Frame)
  | keepalive (conn : Nat) (f : Frame)
  | keepaliveSend (conn : Nat)
  | replAbort (conn : Nat) (f : Frame)
  | replConnIdleTimeout (conn : Nat)
  | replConnectRetry (streamId port : Nat) (opened : Bool)
  | syncGraceExpiry (h : Nat)
  | replReconnect (streamId : Nat)
  -- fabric ports (R149–R187)
  | fabLinkUp (port speed : Nat)
  | fabLinkDown (port : Nat)
  | fabLinkRestart (port : Nat)
  | tcpSyn (port dstPort remote rport : Nat)
  | rdmaConnectRequest (port service remote rqpn : Nat) (unsupported : Bool)
  | icreq (conn : Nat) (hdgst ddgst unsupported : Bool)
  | capsuleReceived (conn : Nat) (e : Sqe) (hdgstBad ddgstBad malformed : Bool)
  | associationEnd (conn : Nat)
  | keepAliveTimeout (index : Nat)
  | tcpRtoExpiry (conn : Nat)
  | roceRetryTimeout (conn limit : Nat)
  | arpRequest (port addr : Nat) (v6 : Bool)
  | lldpFrame (port : Nat)
  | pfcFrame (port : Nat) (pause : Bool)
  -- the pair (R554–R591)
  | troysWrite (link : Nat) (pkt : Pkt) (data : List Byte)
  | troysAck (ch cseq credit : Nat)
  | troysNak (link ch cseq cause : Nat)
  | troysMsg (link : Nat) (pkt : Pkt) (msg : PeerMsg)
  | troysLinkUp (link speed width : Nat)
  | troysLinkDown (link : Nat)
  | winCommit (link : Nat)
  | join (rec : JoinRec)
  | resync
  | mirrorCurrent
  | forwardedCommand (tag host : Nat) (e : Sqe)
  | forwardCompletion (tag : Nat) (st : NvmeSt) (data : List Byte)
  | refcountMessage (uaddr : Nat) (add : Bool)
  | digestWindowClose
  | digestMessage (msg : DigestMsg)
  | arbitrate (stream first : Nat)
  | arbitrationVerdict (stream : Nat) (ownOk peerOk : Bool)
  | answerLate (first : Nat)
  | heartbeatSend
  | heartbeatWord (w : BitVec 64)
  | heartbeatSilent
  | digestStreamTimeout
  | peerFault
  | fenceStaggerExpiry
  | fenceCasComplete (m value : Nat)
  | fenceCasTimeout (m : Nat)
  | fenceDecision
  | ownershipMove (q tag : Nat) (groups : List Nat)
  | modeRestore (q tag : Nat)
  -- faults and the event record (R594–R622)
  | errorPulse (b : Block) (bit lane : Nat)
  | incidentClose (number : Nat)
  | wdog (core : Nat)
  | suppressionFlush (code : Nat)
  | evrRead (q tag firstSeq count dataLen : Nat) (release fromOldest : Bool)
  | evrRecordSelect (seq : Nat)
  | evrRelease (seq : Nat)
  | injectArm (arm : Nat)
  | injectArmTimeout
  | mgmtSidebandRead (addr : Nat)
  | mgmtSidebandWrite (addr value : Nat)
  -- power, reset, start-up (R623–R647, R686–R690)
  | powerCycle
  | coldReset
  | coldResetRelease
  | startupStage (fail : Nat) (hir : Hir)
  | roleDecision (fences : List (Nat × Nat)) (casWon : Bool)
  | vaultRestore
  | warmReset
  | pwcRstWrite (key : Nat)
  | powerFail
  | vaultDumpDone (restored : Bool) (ms : Nat)
  | supply (rail : Nat)
  | clockLoss (input : Nat)
  | laneEnableWrite (b : Block) (expand : Bool) (mask : Nat)
  | laneAutoGate (b : Block) (lane : Nat)
  | headStateEval
  | orderlyShutdown
  | shutDone
  | sensorRead (temps : List Nat) (failed : List Nat)
  | throttleRelease
  -- firmware and settings (R648–R671)
  | fwPiece (q tag imageId piece pcrc : Nat) (restart : Bool) (data : List Byte)
  | fwActivate (q tag imageId : Nat) (resetNow aloneOk : Bool)
  | fwDiscard (q tag : Nat)
  | settingsWrite (q tag : Nat) (block : Settings)
  | firmwareInstall
  | fwConfirm
  | bootWatchdogExpiry
  | fwReject (key : Nat)
  -- the rows at the table's end
  | softResetDone (b : Block)
  | aggregationTimeExpiry (c : Ctl) (qid : Nat)
  | stripeCloseDeadline (band stripe : Nat)
  | tier1RemovalDone (fptIdx : Nat)
  | programEraseTimeout (m q cid : Nat) (tenfold : Bool)
  | controllerReset (c : Ctl)
  | jtagAccess
  | h2cdataReceived (h bytes : Nat)
  | transmitAcknowledged (conn bytes : Nat) (nak : Bool)
  | congestionNotificationPacket (conn : Nat)
  | pfcStorm (port : Nat)
  deriving DecidableEq, Repr

end Sys2Proof
end

