-- ==== Sys2Proof/Decode.lean ====
section
/-! DEFINITION. The decoder over the rows that give bits. The table of this block gives bits to no row, so no word
spells a command. -/

namespace Sys2Proof

/-- The command that a word of `nbits` bits spells: none, as no row of the table has bits.
[DESIGN CHOICE: log entry 123] -/
def decodeTableWord (_nbits _w : Nat) : Option Instr := none

end Sys2Proof
end

