-- ==== Sys2Proof/Config.lean ====
section
/-! DEFINITION. What an implementation fixes and the values the spec leaves open: constants without a body, so that no
proof can see what they are, and the model's fixed parameters. -/

namespace Sys2Proof.Config

/-- A free value, drawn at the counter `State.free`: any number, new at every draw. -/
opaque freeNat : Nat → Nat

/-- Free bytes of a given length, drawn at the counter `State.free`. -/
opaque freeBytes : Nat → Nat → List Byte

/-- HMAC-SHA-256 of a message under a key (R263, R546; FIPS 198-1). -/
opaque hmac256 : List Byte → List Byte → List Byte

/-- HMAC-SHA-384 of a message under a key (R355; FIPS 198-1). -/
opaque hmac384 : List Byte → List Byte → List Byte

/-- SHA-256 and SHA-384 (R356, R377; FIPS 180-4). -/
opaque sha256 : List Byte → List Byte
opaque sha384 : List Byte → List Byte

/-- AES-XTS-256 by key, tweak and text (R335; NIST SP 800-38E). -/
opaque xtsEnc : List Byte → Nat → List Byte → List Byte
opaque xtsDec : List Byte → Nat → List Byte → List Byte

/-- AES-KW unwrap: none when the integrity check fails (R345; NIST SP 800-38F). -/
opaque kwUnwrap : List Byte → List Byte → Option (List Byte)
opaque kwWrap : List Byte → List Byte → List Byte

/-- ECDH with HKDF: the transport key derived from an ephemeral public key, the device key and the Device Serial Number; none when the
point is not valid (R346, R347). -/
opaque ecdhKdf : List Byte → Nat → Option (List Byte)

/-- ECDSA P-384 signature of a quote, and verification of an image signature by key index (R384, R651). -/
opaque ecdsaSign : List Byte → List Byte
opaque ecdsaOk : Nat → List Byte → Bool

/-- The Lexical encoder's output for a body and level: the spec fixes the bitstream and leaves the search open (R308). -/
opaque lexEncode : Nat → List Byte → List Byte

/-- The presence filter's positions of a unit of a namespace (R256). -/
opaque filterPos : Nat → Nat → List Nat

/-- The MCA set of a line (R399). -/
opaque mcaSet : Nat → Nat → Nat → Nat

/-- The certificates and public keys that SEC shows, by SEC_CERT_SEL (R382, R383). -/
opaque certBytes : Nat → List Byte
opaque pubKey : Nat → List Byte

/-- Addresses of the write buffer and of the forwarding store in DRAM; what VLT finds: targets, usable GiB, bad blocks. -/
opaque wbBase : Nat
opaque fwdBase : Nat
opaque vltTargets : Nat
opaque vltGib : Nat
opaque vltBad : Nat

/-- DRAM allocations other than maps, in GiB (R33), and the version words of HDR_VER by block code (R54). -/
opaque otherDram : Nat
opaque hdrVer : Nat → Nat

/-- Of the Afium Descriptor Table: the capability bits usable through a kind of function (R95), whether a limit is one of an
HPE function (R94), and the bytes of the expansion ROM image outside what R91 gives. [DESIGN CHOICE: log entry 122] -/
opaque romCap : Nat → Nat
opaque romLimit : Nat → Nat → Bool
opaque romByte : Nat → Byte

/-- The image that the head was delivered with, by KIND: its bytes, its version, the peer versions it accepts, the settings formats it writes
and migrates (R650); the ROM version and the stepping's image of the ROM identity block (R381). -/
opaque factoryBytes : Nat → List Byte
opaque factoryVersion : Nat → Nat
opaque factoryPeerMin : Nat
opaque factoryPeerMax : Nat
opaque romVersion : Nat

end Sys2Proof.Config
end

