-- ==== Sys2Proof/Machine/Bits.lean ====
section
/-! DEFINITION. Tables, bit fields, byte order and checks: the helpers every other file uses. -/

namespace Sys2Proof.Machine

variable {α : Type}

/-- Entry of a table. -/
def tget? : Tbl α → Nat → Option α
  | [], _ => none
  | (k', v) :: r, k => if k' = k then some v else tget? r k

/-- Entry of a table, `d` where unlisted. -/
def tget (t : Tbl α) (k : Nat) (d : α) : α := (tget? t k).getD d

/-- Put an entry, keeping the keys strictly rising. -/
def tset : Tbl α → Nat → α → Tbl α
  | [], k, v => [(k, v)]
  | (k', v') :: r, k, v =>
    if k < k' then (k, v) :: (k', v') :: r
    else if k = k' then (k, v) :: r
    else (k', v') :: tset r k v

/-- Remove an entry. -/
def terase (t : Tbl α) (k : Nat) : Tbl α := t.filter fun p => !decide (p.1 = k)

/-- Put an entry, or remove it when it is the value an unlisted key reads as. -/
def tput [DecidableEq α] (t : Tbl α) (k : Nat) (v d : α) : Tbl α := if v = d then terase t k else tset t k v

/-- Entries with keys from `lo` up to but not `hi`, and the others. -/
def tslice (t : Tbl α) (lo hi : Nat) : Tbl α := t.filter fun p => decide (lo ≤ p.1 ∧ p.1 < hi)
def tcut (t : Tbl α) (lo hi : Nat) : Tbl α := t.filter fun p => !decide (lo ≤ p.1 ∧ p.1 < hi)

/-- Put every entry of `u` into `t`. -/
def tmerge (t u : Tbl α) : Tbl α := u.foldr (fun p a => tset a p.1 p.2) t

/-- Replace the entries of `t` between `lo` and `hi` by those of `u`. -/
def treplace (t : Tbl α) (lo hi : Nat) (u : Tbl α) : Tbl α := tmerge (tcut t lo hi) (tslice u lo hi)

/-- Keys strictly rising. -/
def tsorted : Tbl α → Bool
  | [] => true
  | [_] => true
  | (k, _) :: (k', v') :: r => decide (k < k') && tsorted ((k', v') :: r)

/-- Apply `f` to the listed entry of key `k`. -/
def tmod (t : Tbl α) (k : Nat) (f : α → α) : Tbl α := t.map fun p => if p.1 = k then (p.1, f p.2) else p

/-- The least number from `lo` below `lo + n` that `taken` does not hold. -/
def leastFree (taken : List Nat) : Nat → Nat → Option Nat
  | 0, _ => none
  | n + 1, lo => if taken.contains lo then leastFree taken n (lo + 1) else some lo

/-- The least key from `lo` below `lo + n` not listed in a table. -/
def tfree (t : Tbl α) (n lo : Nat) : Option Nat := leastFree (t.map (·.1)) n lo

/-- Bits `hi` to `lo` of `w`. -/
def bits (w hi lo : Nat) : Nat := (w >>> lo) % 2 ^ (hi - lo + 1)

/-- Bit `n` of `w`. -/
def bit (w n : Nat) : Bool := w.testBit n

/-- `w` with bit `n` set, and cleared. -/
def bset (w n : Nat) : Nat := w ||| (1 <<< n)
def bclr (w n : Nat) : Nat := if w.testBit n then w - 2 ^ n else w

/-- `w` without the bits of `m` (a write of ones clears, R9). -/
def bclrMask (w m : Nat) : Nat := w - (w &&& m)

/-- 1 for true. -/
def b2n (b : Bool) : Nat := if b then 1 else 0

/-- Number of ones among the low `n` bits of `w`. -/
def ones : Nat → Nat → Nat
  | 0, _ => 0
  | n + 1, w => b2n (w.testBit n) + ones n w

/-- Lowest bit set among the `n` bits from `i`. -/
def lowBit : Nat → Nat → Nat → Option Nat
  | 0, _, _ => none
  | n + 1, i, w => if w.testBit i then some i else lowBit n (i + 1) w

/-- `n` bytes of a number, least significant first (R7). -/
def toBytes : Nat → Nat → List Byte
  | 0, _ => []
  | n + 1, v => BitVec.ofNat 8 v :: toBytes n (v / 256)

/-- The number a little-endian byte string holds (R7). -/
def ofBytes : List Byte → Nat
  | [] => 0
  | b :: r => b.toNat + 256 * ofBytes r

/-- One step of a reflected CRC, eight shifts. -/
def crcShift (poly : Nat) : Nat → Nat → Nat
  | 0, c => c
  | n + 1, c => crcShift poly n (if c % 2 = 1 then (c / 2) ^^^ poly else c / 2)

/-- CRC-32C (R6): reflected, initial and final value all ones. -/
def crc32c (bs : List Byte) : Nat :=
  (bs.foldl (fun c b => crcShift 0x82F63B78 8 (c ^^^ b.toNat)) 0xFFFFFFFF) ^^^ 0xFFFFFFFF

/-- One step of a forward CRC-16 with polynomial 0x1021. -/
def crc16Step : Nat → Nat → Nat
  | 0, c => c
  | n + 1, c => crc16Step n (if 0x8000 ≤ c then ((c * 2) % 65536) ^^^ 0x1021 else (c * 2) % 65536)

/-- The CRC-16 of heartbeat words (R574): initial value 0xFFFF, most significant bit first. -/
def crc16 (bs : List Byte) : Nat := bs.foldl (fun c b => crc16Step 8 (c ^^^ (b.toNat * 256))) 0xFFFF

/-- Product in GF(2^8) with polynomial 0x11D (R441). -/
def gfMul : Nat → Nat → Nat → Nat
  | 0, _, _ => 0
  | n + 1, a, b =>
    (if b % 2 = 1 then a else 0) ^^^ gfMul n (if a < 128 then a * 2 else (a * 2) ^^^ 0x11D) (b / 2)

/-- Product of two bytes of the field. -/
def gf (a b : Byte) : Byte := BitVec.ofNat 8 (gfMul 8 a.toNat b.toNat)

/-- Power of the generator 2. -/
def gfPow : Nat → Nat
  | 0 => 1
  | n + 1 => gfMul 8 2 (gfPow n)

/-- Sum of two byte strings, the longer one's tail unchanged. -/
def xorBytes : List Byte → List Byte → List Byte
  | [], b => b
  | a, [] => a
  | x :: a, y :: b => (x ^^^ y) :: xorBytes a b

/-- All bytes zero. -/
def allZero (bs : List Byte) : Bool := bs.all (· = 0)

/-- `v` limited to at most `m`. -/
def sat (m v : Nat) : Nat := min m v

/-- First element that meets `p`, replaced by `f`; the list unchanged when none does. -/
def modFirst (p : α → Bool) (f : α → α) : List α → List α
  | [] => []
  | x :: r => if p x then f x :: r else x :: modFirst p f r

/-- Drop the first entry that meets `p`. -/
def modDrop (p : α → Bool) : List α → List α
  | [] => []
  | a :: l => if p a then l else a :: modDrop p l

/-- Every element that meets `p` replaced by `f`. -/
def modAll (p : α → Bool) (f : α → α) (l : List α) : List α := l.map fun x => if p x then f x else x

/-- Apply a state change for each element, in order. -/
def forEach {σ : Type} (l : List α) (f : α → σ → σ) (s : σ) : σ := l.foldl (fun a x => f x a) s

end Sys2Proof.Machine
end

