-- ==== Sys2Proof/Machine/RegMap.lean ====
section
/-! DEFINITION. The register map: every field of the block pages with its offset, bits, access, reset value and
whether it is shadowed, from the field tables of the block chapters, and one named field constant each. -/

namespace Sys2Proof.Machine

/-- A register field: BAR0 address of its word, its bits, its reset value, and whether it is shadowed (R64). -/
structure Fld where
  addr  : Nat
  hi    : Nat
  lo    : Nat
  reset : Nat
  sh    : Bool
  deriving DecidableEq, Repr

/-- The access types of R9 and R54. -/
inductive Acc where
  | rw | ro | w1c | w1s | wo | rws
  deriving DecidableEq, Repr

/-- A row of a page's field table: `count` words `stride` bytes apart from offset `off`. -/
structure RegRow where
  off    : Nat
  count  : Nat
  stride : Nat
  hi     : Nat
  lo     : Nat
  acc    : Acc
  reset  : Nat
  sh     : Bool
  deriving DecidableEq, Repr

namespace F

-- page hpe
/-- HPE_LINK_CTRL.MAX_SPEED. -/
def hpeLinkCtrlMaxSpeed (n : Nat) : Fld := ⟨0x100000 + 0x1000 * n + 0x40, 2, 0, 6, true⟩
/-- HPE_LINK_CTRL.MAX_WIDTH. -/
def hpeLinkCtrlMaxWidth (n : Nat) : Fld := ⟨0x100000 + 0x1000 * n + 0x40, 7, 4, 8, true⟩
/-- HPE_LINK_CTRL.L0P_EN. -/
def hpeLinkCtrlL0pEn (n : Nat) : Fld := ⟨0x100000 + 0x1000 * n + 0x40, 8, 8, 1, false⟩
/-- HPE_LINK_CTRL.ASPM_L1_OK. -/
def hpeLinkCtrlAspmL1Ok (n : Nat) : Fld := ⟨0x100000 + 0x1000 * n + 0x40, 9, 9, 1, false⟩
/-- HPE_LINK_CTRL.RETRAIN. -/
def hpeLinkCtrlRetrain (n : Nat) : Fld := ⟨0x100000 + 0x1000 * n + 0x40, 10, 10, 0, false⟩
/-- HPE_LINK_CTRL.HOLD_DETECT. -/
def hpeLinkCtrlHoldDetect (n : Nat) : Fld := ⟨0x100000 + 0x1000 * n + 0x40, 11, 11, 0, false⟩
/-- HPE_LINK_CTRL.SRIS. -/
def hpeLinkCtrlSris (n : Nat) : Fld := ⟨0x100000 + 0x1000 * n + 0x40, 12, 12, 0, true⟩
/-- HPE_LINK_STAT.SPEED. -/
def hpeLinkStatSpeed (n : Nat) : Fld := ⟨0x100000 + 0x1000 * n + 0x44, 2, 0, 0, false⟩
/-- HPE_LINK_STAT.FLIT. -/
def hpeLinkStatFlit (n : Nat) : Fld := ⟨0x100000 + 0x1000 * n + 0x44, 3, 3, 0, false⟩
/-- HPE_LINK_STAT.WIDTH. -/
def hpeLinkStatWidth (n : Nat) : Fld := ⟨0x100000 + 0x1000 * n + 0x44, 7, 4, 0, false⟩
/-- HPE_LINK_STAT.UP. -/
def hpeLinkStatUp (n : Nat) : Fld := ⟨0x100000 + 0x1000 * n + 0x44, 8, 8, 0, false⟩
/-- HPE_LINK_STAT.L0P. -/
def hpeLinkStatL0p (n : Nat) : Fld := ⟨0x100000 + 0x1000 * n + 0x44, 9, 9, 0, false⟩
/-- HPE_LINK_STAT.L1. -/
def hpeLinkStatL1 (n : Nat) : Fld := ⟨0x100000 + 0x1000 * n + 0x44, 10, 10, 0, false⟩
/-- HPE_LINK_STAT.PERST_IN. -/
def hpeLinkStatPerstIn (n : Nat) : Fld := ⟨0x100000 + 0x1000 * n + 0x44, 11, 11, 0, false⟩
/-- HPE_LINK_STAT.LTSSM. -/
def hpeLinkStatLtssm (n : Nat) : Fld := ⟨0x100000 + 0x1000 * n + 0x44, 21, 16, 0, false⟩
/-- HPE_LINK_STAT.DOWNS. -/
def hpeLinkStatDowns (n : Nat) : Fld := ⟨0x100000 + 0x1000 * n + 0x44, 31, 24, 0, false⟩
/-- HPE_SRIOV.TOTAL_VFS. -/
def hpeSriovTotalVfs (n : Nat) : Fld := ⟨0x100000 + 0x1000 * n + 0x4C, 8, 0, 256, true⟩
/-- HPE_SRIOV.NUM_VFS. -/
def hpeSriovNumVfs (n : Nat) : Fld := ⟨0x100000 + 0x1000 * n + 0x4C, 24, 16, 0, false⟩
/-- HPE_SRIOV.VF_ENABLED. -/
def hpeSriovVfEnabled (n : Nat) : Fld := ⟨0x100000 + 0x1000 * n + 0x4C, 31, 31, 0, false⟩
/-- HPE_PF_QP.QP_MAX. -/
def hpePfQpQpMax (n : Nat) : Fld := ⟨0x100000 + 0x1000 * n + 0x50, 10, 0, 64, true⟩
/-- HPE_VF_QP.QP_MAX. -/
def hpeVfQpQpMax (n k : Nat) : Fld := ⟨0x100000 + 0x1000 * n + 0x400 + 4 * k, 6, 0, 4, true⟩
/-- HPE_VF_QP.BLOCK. -/
def hpeVfQpBlock (n k : Nat) : Fld := ⟨0x100000 + 0x1000 * n + 0x400 + 4 * k, 7, 7, 0, false⟩
-- page fab
/-- FAB_LINK_CTRL.MODE. -/
def fabLinkCtrlMode (n : Nat) : Fld := ⟨0x108000 + 0x1000 * n + 0x40, 1, 0, 0, true⟩
/-- FAB_LINK_CTRL.TX_OFF. -/
def fabLinkCtrlTxOff (n : Nat) : Fld := ⟨0x108000 + 0x1000 * n + 0x40, 2, 2, 0, false⟩
/-- FAB_LINK_CTRL.RESTART. -/
def fabLinkCtrlRestart (n : Nat) : Fld := ⟨0x108000 + 0x1000 * n + 0x40, 3, 3, 0, false⟩
/-- FAB_LINK_CTRL.MTU. -/
def fabLinkCtrlMtu (n : Nat) : Fld := ⟨0x108000 + 0x1000 * n + 0x40, 29, 16, 9216, true⟩
/-- FAB_LINK_STAT.UP. -/
def fabLinkStatUp (n : Nat) : Fld := ⟨0x108000 + 0x1000 * n + 0x44, 0, 0, 0, false⟩
/-- FAB_LINK_STAT.AN_DONE. -/
def fabLinkStatAnDone (n : Nat) : Fld := ⟨0x108000 + 0x1000 * n + 0x44, 1, 1, 0, false⟩
/-- FAB_LINK_STAT.SPEED. -/
def fabLinkStatSpeed (n : Nat) : Fld := ⟨0x108000 + 0x1000 * n + 0x44, 3, 2, 0, false⟩
/-- FAB_LINK_STAT.DOWNS. -/
def fabLinkStatDowns (n : Nat) : Fld := ⟨0x108000 + 0x1000 * n + 0x44, 15, 8, 0, false⟩
/-- FAB_MAC_LO.MAC. -/
def fabMacLoMac (n : Nat) : Fld := ⟨0x108000 + 0x1000 * n + 0x48, 31, 0, 0, true⟩
/-- FAB_MAC_HI.MAC. -/
def fabMacHiMac (n : Nat) : Fld := ⟨0x108000 + 0x1000 * n + 0x4C, 15, 0, 0, true⟩
/-- FAB_VLAN.VID. -/
def fabVlanVid (n : Nat) : Fld := ⟨0x108000 + 0x1000 * n + 0x50, 11, 0, 0, true⟩
/-- FAB_VLAN.TAGGED. -/
def fabVlanTagged (n : Nat) : Fld := ⟨0x108000 + 0x1000 * n + 0x50, 12, 12, 0, true⟩
/-- FAB_VLAN.PCP_TCP. -/
def fabVlanPcpTcp (n : Nat) : Fld := ⟨0x108000 + 0x1000 * n + 0x50, 15, 13, 0, true⟩
/-- FAB_VLAN.PCP_ROCE. -/
def fabVlanPcpRoce (n : Nat) : Fld := ⟨0x108000 + 0x1000 * n + 0x50, 18, 16, 0, true⟩
/-- FAB_VLAN.PCP_REPL. -/
def fabVlanPcpRepl (n : Nat) : Fld := ⟨0x108000 + 0x1000 * n + 0x50, 21, 19, 0, true⟩
/-- FAB_VLAN.PFC_EN. -/
def fabVlanPfcEn (n : Nat) : Fld := ⟨0x108000 + 0x1000 * n + 0x50, 22, 22, 0, true⟩
/-- FAB_DSCP.DSCP_TCP. -/
def fabDscpDscpTcp (n : Nat) : Fld := ⟨0x108000 + 0x1000 * n + 0x54, 5, 0, 0, true⟩
/-- FAB_DSCP.DSCP_ROCE. -/
def fabDscpDscpRoce (n : Nat) : Fld := ⟨0x108000 + 0x1000 * n + 0x54, 13, 8, 0, true⟩
/-- FAB_DSCP.DSCP_REPL. -/
def fabDscpDscpRepl (n : Nat) : Fld := ⟨0x108000 + 0x1000 * n + 0x54, 21, 16, 0, true⟩
/-- FAB_DSCP.DSCP_CNP. -/
def fabDscpDscpCnp (n : Nat) : Fld := ⟨0x108000 + 0x1000 * n + 0x54, 29, 24, 0, true⟩
/-- FAB_IPV4.ADDR. -/
def fabIpv4Addr (n : Nat) : Fld := ⟨0x108000 + 0x1000 * n + 0x58, 31, 0, 0, true⟩
/-- FAB_IPV4_CFG.PREFIX. -/
def fabIpv4CfgPrefix (n : Nat) : Fld := ⟨0x108000 + 0x1000 * n + 0x5C, 5, 0, 0, true⟩
/-- FAB_IPV4_CFG.V4_EN. -/
def fabIpv4CfgV4En (n : Nat) : Fld := ⟨0x108000 + 0x1000 * n + 0x5C, 6, 6, 0, false⟩
/-- FAB_GW4.ADDR. -/
def fabGw4Addr (n : Nat) : Fld := ⟨0x108000 + 0x1000 * n + 0x60, 31, 0, 0, true⟩
/-- FAB_IPV6_W0–W3.ADDR. -/
def fabIpv6WAddr (n k : Nat) : Fld := ⟨0x108000 + 0x1000 * n + 0x70 + 4 * k, 31, 0, 0, true⟩
/-- FAB_IPV6_CFG.PREFIX. -/
def fabIpv6CfgPrefix (n : Nat) : Fld := ⟨0x108000 + 0x1000 * n + 0x80, 7, 0, 0, true⟩
/-- FAB_IPV6_CFG.V6_EN. -/
def fabIpv6CfgV6En (n : Nat) : Fld := ⟨0x108000 + 0x1000 * n + 0x80, 8, 8, 0, false⟩
/-- FAB_GW6_W0–W3.ADDR. -/
def fabGw6WAddr (n k : Nat) : Fld := ⟨0x108000 + 0x1000 * n + 0x90 + 4 * k, 31, 0, 0, true⟩
/-- FAB_PTP.PTP_EN. -/
def fabPtpPtpEn (n : Nat) : Fld := ⟨0x108000 + 0x1000 * n + 0xA0, 0, 0, 0, false⟩
/-- FAB_PTP.TRANSPORT. -/
def fabPtpTransport (n : Nat) : Fld := ⟨0x108000 + 0x1000 * n + 0xA0, 2, 1, 0, true⟩
/-- FAB_PTP.P2P. -/
def fabPtpP2p (n : Nat) : Fld := ⟨0x108000 + 0x1000 * n + 0xA0, 3, 3, 0, true⟩
/-- FAB_PTP.DOMAIN. -/
def fabPtpDomain (n : Nat) : Fld := ⟨0x108000 + 0x1000 * n + 0xA0, 11, 4, 0, true⟩
/-- FAB_PTP.PORT_PREF. -/
def fabPtpPortPref (n : Nat) : Fld := ⟨0x108000 + 0x1000 * n + 0xA0, 15, 12, 0, false⟩
/-- FAB_PTP_ASYM.ASYM. -/
def fabPtpAsymAsym (n : Nat) : Fld := ⟨0x108000 + 0x1000 * n + 0xA4, 31, 0, 0, false⟩
/-- FAB_PTP_STAT.SELECTED. -/
def fabPtpStatSelected (n : Nat) : Fld := ⟨0x108000 + 0x1000 * n + 0xA8, 0, 0, 0, false⟩
/-- FAB_PTP_STAT.ANNOUNCE_OK. -/
def fabPtpStatAnnounceOk (n : Nat) : Fld := ⟨0x108000 + 0x1000 * n + 0xA8, 1, 1, 0, false⟩
/-- FAB_PTP_STAT.OFFSET. -/
def fabPtpStatOffset (n : Nat) : Fld := ⟨0x108000 + 0x1000 * n + 0xA8, 31, 16, 0, false⟩
-- page toe0
/-- TOE_CTRL.TCP_EN. -/
def toeCtrlTcpEn : Fld := ⟨0x10C040, 0, 0, 0, false⟩
/-- TOE_CTRL.ROCE_EN. -/
def toeCtrlRoceEn : Fld := ⟨0x10C040, 1, 1, 0, false⟩
/-- TOE_CTRL.HDGST_OK. -/
def toeCtrlHdgstOk : Fld := ⟨0x10C040, 2, 2, 1, false⟩
/-- TOE_CTRL.DDGST_OK. -/
def toeCtrlDdgstOk : Fld := ⟨0x10C040, 3, 3, 1, false⟩
/-- TOE_CTRL.DISC_EN. -/
def toeCtrlDiscEn : Fld := ⟨0x10C040, 4, 4, 0, false⟩
/-- TOE_PORTS.NVME_PORT. -/
def toePortsNvmePort : Fld := ⟨0x10C044, 15, 0, 4420, true⟩
/-- TOE_PORTS.DISC_PORT. -/
def toePortsDiscPort : Fld := ⟨0x10C044, 31, 16, 8009, true⟩
/-- TOE_QP_RES.QP_RES. -/
def toeQpResQpRes : Fld := ⟨0x10C048, 16, 0, 16384, true⟩
/-- TOE_CONN_STAT.CONN_USED. -/
def toeConnStatConnUsed : Fld := ⟨0x10C04C, 16, 0, 0, false⟩
/-- TOE_QP_STAT.QP_USED. -/
def toeQpStatQpUsed : Fld := ⟨0x10C050, 16, 0, 0, false⟩
/-- TOE_FCTL_STAT.FCTL_USED. -/
def toeFctlStatFctlUsed : Fld := ⟨0x10C054, 12, 0, 0, false⟩
/-- TOE_TCP.RETX_MAX. -/
def toeTcpRetxMax : Fld := ⟨0x10C058, 3, 0, 8, false⟩
/-- TOE_TCP.RTO_MIN. -/
def toeTcpRtoMin : Fld := ⟨0x10C058, 11, 4, 10, false⟩
/-- TOE_TCP.ECN_EN. -/
def toeTcpEcnEn : Fld := ⟨0x10C058, 12, 12, 1, false⟩
/-- TOE_ROCE.CC_EN. -/
def toeRoceCcEn : Fld := ⟨0x10C05C, 0, 0, 1, false⟩
/-- TOE_ROCE.CNP_GAP. -/
def toeRoceCnpGap : Fld := ⟨0x10C05C, 15, 8, 50, false⟩
/-- TOE_REPL.SHARE_MAX. -/
def toeReplShareMax : Fld := ⟨0x10C060, 6, 0, 20, false⟩
/-- TOE_REPL.SHARE_MIN. -/
def toeReplShareMin : Fld := ⟨0x10C060, 14, 8, 5, false⟩
-- page toe1
/-- TOE_CONN_IDX. -/
def toeConnIdx : Fld := ⟨0x10D040, 15, 0, 0, false⟩
-- page hqe0
/-- HQE_CTRL.HOST_SAN. -/
def hqeCtrlHostSan : Fld := ⟨0x110040, 0, 0, 0, false⟩
/-- HQE_CTRL.FETCH_HOLD. -/
def hqeCtrlFetchHold : Fld := ⟨0x110040, 1, 1, 0, false⟩
/-- HQE_OUTST.OUTSTANDING. -/
def hqeOutstOutstanding : Fld := ⟨0x110044, 20, 0, 0, false⟩
/-- HQE_QP_STAT.QP_USED. -/
def hqeQpStatQpUsed : Fld := ⟨0x110048, 16, 0, 0, false⟩
/-- HQE_PAIR_ID_LO.PAIR_LO. -/
def hqePairIdLoPairLo : Fld := ⟨0x110050, 31, 0, 0, false⟩
/-- HQE_PAIR_ID_HI.PAIR_HI. -/
def hqePairIdHiPairHi : Fld := ⟨0x110054, 31, 0, 0, false⟩
/-- HQE_PS_STAT.LEVEL. -/
def hqePsStatLevel : Fld := ⟨0x110058, 1, 0, 0, false⟩
/-- HQE_PS_STAT.ENTERING. -/
def hqePsStatEntering : Fld := ⟨0x110058, 2, 2, 0, false⟩
/-- HQE_PS_STAT.EXITING. -/
def hqePsStatExiting : Fld := ⟨0x110058, 3, 3, 0, false⟩
-- page hqe1
/-- HQE_QOS_IDX.GROUP. -/
def hqeQosIdxGroup : Fld := ⟨0x111040, 11, 0, 0, false⟩
/-- HQE_QOS_CEIL.CEIL_IOPS. -/
def hqeQosCeilCeilIops : Fld := ⟨0x111044, 15, 0, 0, true⟩
/-- HQE_QOS_CEIL.CEIL_BW. -/
def hqeQosCeilCeilBw : Fld := ⟨0x111044, 31, 16, 0, true⟩
/-- HQE_QOS_CFG.WEIGHT. -/
def hqeQosCfgWeight : Fld := ⟨0x111048, 7, 0, 16, true⟩
/-- HQE_QOS_CFG.BURST. -/
def hqeQosCfgBurst : Fld := ⟨0x111048, 15, 8, 10, true⟩
/-- HQE_QOS_STAT.THROTTLED. -/
def hqeQosStatThrottled : Fld := ⟨0x11104C, 0, 0, 0, false⟩
/-- HQE_QOS_STAT.THROTTLES. -/
def hqeQosStatThrottles : Fld := ⟨0x11104C, 31, 16, 0, false⟩
-- page hqe2
/-- HQE_FMAP_IDX.FUNC. -/
def hqeFmapIdxFunc : Fld := ⟨0x112040, 8, 0, 0, false⟩
/-- HQE_FMAP_IDX.PORT. -/
def hqeFmapIdxPort : Fld := ⟨0x112040, 10, 9, 0, false⟩
/-- HQE_FMAP.TENANT. -/
def hqeFmapTenant : Fld := ⟨0x112044, 11, 0, 0, true⟩
-- page hqe3
/-- HQE_NS_IDX.NSID. -/
def hqeNsIdxNsid : Fld := ⟨0x113040, 15, 0, 0, false⟩
/-- HQE_NS_STAT.EXISTS. -/
def hqeNsStatExists : Fld := ⟨0x113044, 0, 0, 0, false⟩
/-- HQE_NS_STAT.OWNED_HERE. -/
def hqeNsStatOwnedHere : Fld := ⟨0x113044, 1, 1, 0, false⟩
/-- HQE_NS_STAT.MIXED. -/
def hqeNsStatMixed : Fld := ⟨0x113044, 2, 2, 0, false⟩
/-- HQE_NS_STAT.FORMAT_BUSY. -/
def hqeNsStatFormatBusy : Fld := ⟨0x113044, 3, 3, 0, false⟩
/-- HQE_NS_STAT.KEY_READY. -/
def hqeNsStatKeyReady : Fld := ⟨0x113044, 4, 4, 0, false⟩
/-- HQE_NS_STAT.ANA_GROUP. -/
def hqeNsStatAnaGroup : Fld := ⟨0x113044, 26, 16, 0, false⟩
/-- HQE_NS_OLD.OLD_PCT. -/
def hqeNsOldOldPct : Fld := ⟨0x113048, 7, 0, 0, false⟩
/-- HQE_NS_USE_LO.NUSE_LO. -/
def hqeNsUseLoNuseLo : Fld := ⟨0x11304C, 31, 0, 0, false⟩
/-- HQE_NS_USE_HI.NUSE_HI. -/
def hqeNsUseHiNuseHi : Fld := ⟨0x113050, 31, 0, 0, false⟩
-- page dge0
/-- DGE_CTRL.UNIT_EN. -/
def dgeCtrlUnitEn : Fld := ⟨0x200040, 0, 0, 0, false⟩
/-- DGE_CTRL.JOB_EN. -/
def dgeCtrlJobEn : Fld := ⟨0x200040, 1, 1, 0, false⟩
/-- DGE_LANE_EN.LANE_ON. -/
def dgeLaneEnLaneOn : Fld := ⟨0x200044, 15, 0, 65535, false⟩
/-- DGE_LANE_STAT.READY. -/
def dgeLaneStatReady : Fld := ⟨0x200048, 15, 0, 0, false⟩
/-- DGE_CFG.JOB_LANES. -/
def dgeCfgJobLanes : Fld := ⟨0x20004C, 3, 0, 2, true⟩
/-- DGE_CFG.QUANTUM. -/
def dgeCfgQuantum : Fld := ⟨0x20004C, 7, 4, 4, true⟩
/-- DGE_CFG.OPEN_LIMIT. -/
def dgeCfgOpenLimit : Fld := ⟨0x20004C, 15, 8, 10, true⟩
/-- DGE_CTX_STAT.UNIT_CTX. -/
def dgeCtxStatUnitCtx : Fld := ⟨0x200050, 5, 0, 0, false⟩
/-- DGE_CTX_STAT.JOB_CTX. -/
def dgeCtxStatJobCtx : Fld := ⟨0x200050, 13, 8, 0, false⟩
/-- DGE_CTX_STAT.QUEUED. -/
def dgeCtxStatQueued : Fld := ⟨0x200050, 25, 16, 0, false⟩
/-- DGE_KEYS.DEDUP_STATES. -/
def dgeKeysDedupStates : Fld := ⟨0x200054, 14, 0, 0, false⟩
/-- DGE_KEYS.JOB_STATES. -/
def dgeKeysJobStates : Fld := ⟨0x200054, 22, 16, 0, false⟩
-- page dge1
/-- DGE_RING0–2.HEAD. -/
def dgeRingwHead (k : Nat) : Fld := ⟨0x201040 + 4 * k, 9, 0, 0, false⟩
/-- DGE_RING0–2.TAIL. -/
def dgeRingwTail (k : Nat) : Fld := ⟨0x201040 + 4 * k, 25, 16, 0, false⟩
/-- DGE_CSEL.CTX. -/
def dgeCselCtx : Fld := ⟨0x201050, 5, 0, 0, false⟩
/-- DGE_CINFO.STATE. -/
def dgeCinfoState : Fld := ⟨0x201054, 1, 0, 0, false⟩
/-- DGE_CINFO.OWNER. -/
def dgeCinfoOwner : Fld := ⟨0x201054, 3, 2, 0, false⟩
/-- DGE_CINFO.CORE. -/
def dgeCinfoCore : Fld := ⟨0x201054, 8, 4, 0, false⟩
/-- DGE_CINFO.GEN. -/
def dgeCinfoGen : Fld := ⟨0x201054, 23, 16, 0, false⟩
/-- DGE_CINFO.ALG. -/
def dgeCinfoAlg : Fld := ⟨0x201054, 25, 24, 0, false⟩
/-- DGE_CBYTES_LO.BYTES. -/
def dgeCbytesLoBytes : Fld := ⟨0x201058, 31, 0, 0, false⟩
/-- DGE_CBYTES_HI.BYTES. -/
def dgeCbytesHiBytes : Fld := ⟨0x20105C, 31, 0, 0, false⟩
-- page fiu0
/-- FIU_CTRL.SEARCH_EN. -/
def fiuCtrlSearchEn : Fld := ⟨0x204040, 0, 0, 0, false⟩
/-- FIU_CTRL.INSERT_EN. -/
def fiuCtrlInsertEn : Fld := ⟨0x204040, 1, 1, 0, false⟩
/-- FIU_CTRL.BGD_EN. -/
def fiuCtrlBgdEn : Fld := ⟨0x204040, 2, 2, 0, false⟩
/-- FIU_MODE.MODE. -/
def fiuModeMode : Fld := ⟨0x204044, 0, 0, 0, true⟩
/-- FIU_BANK_EN.BANK_ON. -/
def fiuBankEnBankOn : Fld := ⟨0x204048, 15, 0, 65535, false⟩
/-- FIU_BANK_STAT.READY. -/
def fiuBankStatReady : Fld := ⟨0x20404C, 15, 0, 0, false⟩
/-- FIU_BANK_STAT.LOADING. -/
def fiuBankStatLoading : Fld := ⟨0x20404C, 31, 16, 0, false⟩
/-- FIU_SCRUB.PASS_S. -/
def fiuScrubPassS : Fld := ⟨0x204050, 11, 0, 60, false⟩
/-- FIU_SCRUB.AGE_PASSES. -/
def fiuScrubAgePasses : Fld := ⟨0x204050, 15, 12, 4, false⟩
/-- FIU_SCRUB.SCRUB_EN. -/
def fiuScrubScrubEn : Fld := ⟨0x204050, 16, 16, 1, false⟩
/-- FIU_SCRUB_STAT.FIXED. -/
def fiuScrubStatFixed : Fld := ⟨0x204054, 15, 0, 0, false⟩
/-- FIU_SCRUB_STAT.PASSES. -/
def fiuScrubStatPasses : Fld := ⟨0x204054, 31, 16, 0, false⟩
/-- FIU_OCC.VALID. -/
def fiuOccValid : Fld := ⟨0x204058, 22, 0, 0, false⟩
-- page fiu1
/-- FPT_BASE_LO.BASE_LO. -/
def fptBaseLoBaseLo : Fld := ⟨0x205040, 31, 0, 0, true⟩
/-- FPT_BASE_HI.BASE_HI. -/
def fptBaseHiBaseHi : Fld := ⟨0x205044, 31, 0, 0, true⟩
/-- FPT_CFG.BKT_LOG2. -/
def fptCfgBktLog2 : Fld := ⟨0x205048, 4, 0, 24, true⟩
/-- FPT_OCC.USED. -/
def fptOccUsed : Fld := ⟨0x20504C, 30, 0, 0, false⟩
/-- FPT_PEND.PENDING. -/
def fptPendPending : Fld := ⟨0x205050, 30, 0, 0, false⟩
/-- FPT_REFILL.ACTIVE. -/
def fptRefillActive : Fld := ⟨0x205054, 0, 0, 0, false⟩
-- page fiu2
/-- FIU_DOM_IDX.DOMAIN. -/
def fiuDomIdxDomain : Fld := ⟨0x206040, 13, 0, 0, false⟩
/-- FIU_DOM_CFG.DEDUP_EN. -/
def fiuDomCfgDedupEn : Fld := ⟨0x206044, 0, 0, 1, true⟩
/-- FIU_DOM_CFG.KEY_LOADED. -/
def fiuDomCfgKeyLoaded : Fld := ⟨0x206044, 1, 1, 0, false⟩
/-- FIU_DOM_HITS.HITS. -/
def fiuDomHitsHits : Fld := ⟨0x206048, 31, 0, 0, false⟩
-- page fiu3
/-- FIU_INSP_SEL.SEG. -/
def fiuInspSelSeg : Fld := ⟨0x207040, 14, 0, 0, false⟩
/-- FIU_INSP_SEL.POS. -/
def fiuInspSelPos : Fld := ⟨0x207040, 22, 16, 0, false⟩
/-- FIU_INSP_W0–W2.ENTRY. -/
def fiuInspWEntry (k : Nat) : Fld := ⟨0x207044 + 4 * k, 31, 0, 0, false⟩
-- page cmp0
/-- CMP_CTRL.COMP_EN. -/
def cmpCtrlCompEn : Fld := ⟨0x208040, 0, 0, 0, false⟩
/-- CMP_CTRL.EXP_EN. -/
def cmpCtrlExpEn : Fld := ⟨0x208040, 1, 1, 0, false⟩
/-- CMP_LANE_EN.COMP_ON. -/
def cmpLaneEnCompOn : Fld := ⟨0x208044, 23, 0, 16777215, false⟩
/-- CMP_XLANE_EN.EXP_ON. -/
def cmpXlaneEnExpOn : Fld := ⟨0x208048, 31, 0, 4294967295, false⟩
/-- CMP_LANE_STAT.COMP_READY. -/
def cmpLaneStatCompReady : Fld := ⟨0x20804C, 23, 0, 0, false⟩
/-- CMP_XLANE_STAT.EXP_READY. -/
def cmpXlaneStatExpReady : Fld := ⟨0x208050, 31, 0, 0, false⟩
/-- CMP_GROUP_CFG.GROUP_WAIT. -/
def cmpGroupCfgGroupWait : Fld := ⟨0x208054, 4, 0, 8, true⟩
/-- CMP_BULK_CFG.MAX_LANES. -/
def cmpBulkCfgMaxLanes : Fld := ⟨0x208058, 3, 0, 4, true⟩
-- page cmp1
/-- CMP_IN_LO.IN. -/
def cmpInLoIn : Fld := ⟨0x209040, 31, 0, 0, false⟩
/-- CMP_IN_HI.IN. -/
def cmpInHiIn : Fld := ⟨0x209044, 31, 0, 0, false⟩
/-- CMP_OUT_LO.OUT. -/
def cmpOutLoOut : Fld := ⟨0x209048, 31, 0, 0, false⟩
/-- CMP_OUT_HI.OUT. -/
def cmpOutHiOut : Fld := ⟨0x20904C, 31, 0, 0, false⟩
-- page cmp2
/-- CMP_LSEL.LANE. -/
def cmpLselLane : Fld := ⟨0x20A040, 4, 0, 0, false⟩
/-- CMP_LSEL.KIND. -/
def cmpLselKind : Fld := ⟨0x20A040, 5, 5, 0, false⟩
/-- CMP_LINFO.STATE. -/
def cmpLinfoState : Fld := ⟨0x20A044, 3, 0, 0, false⟩
/-- CMP_LINFO.FAULTS. -/
def cmpLinfoFaults : Fld := ⟨0x20A044, 7, 4, 0, false⟩
-- page cmp3
/-- CMP_BULK_RING.HEAD. -/
def cmpBulkRingHead : Fld := ⟨0x20B040, 7, 0, 0, false⟩
/-- CMP_BULK_RING.TAIL. -/
def cmpBulkRingTail : Fld := ⟨0x20B040, 15, 8, 0, false⟩
/-- CMP_BULK_RING.ACTIVE. -/
def cmpBulkRingActive : Fld := ⟨0x20B040, 31, 16, 0, false⟩
-- page cry0
/-- CRY_CTRL.XTS_EN. -/
def cryCtrlXtsEn : Fld := ⟨0x20C040, 0, 0, 0, false⟩
/-- CRY_LANE_EN.LANE_ON. -/
def cryLaneEnLaneOn : Fld := ⟨0x20C044, 15, 0, 65535, false⟩
/-- CRY_LANE_STAT.READY. -/
def cryLaneStatReady : Fld := ⟨0x20C048, 15, 0, 0, false⟩
/-- CRY_KEYS.DATA_KEYS. -/
def cryKeysDataKeys : Fld := ⟨0x20C04C, 14, 0, 0, false⟩
/-- CRY_KEYS.DEDUP_KEYS. -/
def cryKeysDedupKeys : Fld := ⟨0x20C04C, 30, 16, 0, false⟩
/-- CRY_WRAP.WRAP_LOADED. -/
def cryWrapWrapLoaded : Fld := ⟨0x20C050, 15, 0, 0, false⟩
/-- CRY_WRAP.DEVKEY_OK. -/
def cryWrapDevkeyOk : Fld := ⟨0x20C050, 16, 16, 0, false⟩
-- page cry1
/-- CRY_SLOT_SEL.SLOT. -/
def crySlotSelSlot : Fld := ⟨0x20D040, 13, 0, 0, false⟩
/-- CRY_SLOT_SEL.KIND. -/
def crySlotSelKind : Fld := ⟨0x20D040, 15, 14, 0, false⟩
/-- CRY_SLOT_INFO.STATE. -/
def crySlotInfoState : Fld := ⟨0x20D044, 1, 0, 0, false⟩
/-- CRY_SLOT_INFO.GEN. -/
def crySlotInfoGen : Fld := ⟨0x20D044, 31, 16, 0, false⟩
/-- CRY_SLOT_ID_LO.KEY_ID. -/
def crySlotIdLoKeyId : Fld := ⟨0x20D048, 31, 0, 0, false⟩
/-- CRY_SLOT_ID_HI.KEY_ID. -/
def crySlotIdHiKeyId : Fld := ⟨0x20D04C, 31, 0, 0, false⟩
/-- CRY_SLOT_USERS.USERS. -/
def crySlotUsersUsers : Fld := ⟨0x20D050, 15, 0, 0, false⟩
-- page ftu0
/-- FTU_CTRL.MAP_EN. -/
def ftuCtrlMapEn : Fld := ⟨0x300040, 0, 0, 0, false⟩
/-- FTU_CTRL.GC_EN. -/
def ftuCtrlGcEn : Fld := ⟨0x300040, 1, 1, 0, false⟩
/-- FTU_CTRL.RELOC_EN. -/
def ftuCtrlRelocEn : Fld := ⟨0x300040, 2, 2, 1, false⟩
/-- FTU_CTRL.CKPT_EN. -/
def ftuCtrlCkptEn : Fld := ⟨0x300040, 3, 3, 0, false⟩
/-- FTU_CTRL.FIXUP_EN. -/
def ftuCtrlFixupEn : Fld := ⟨0x300040, 4, 4, 1, false⟩
/-- FTU_SPACE.ADMIT_RES_PCT. -/
def ftuSpaceAdmitResPct : Fld := ⟨0x300044, 7, 0, 2, true⟩
/-- FTU_SPACE.GC_RES_PCT. -/
def ftuSpaceGcResPct : Fld := ⟨0x300044, 15, 8, 4, true⟩
/-- FTU_SPACE.START_PCT. -/
def ftuSpaceStartPct : Fld := ⟨0x300044, 23, 16, 12, true⟩
/-- FTU_SPACE.STOP_PCT. -/
def ftuSpaceStopPct : Fld := ⟨0x300044, 31, 24, 18, true⟩
/-- FTU_FREE.FREE_PM. -/
def ftuFreeFreePm : Fld := ⟨0x300048, 9, 0, 0, false⟩
/-- FTU_FREE.GC_ACTIVE. -/
def ftuFreeGcActive : Fld := ⟨0x300048, 16, 16, 0, false⟩
/-- FTU_FREE.URGENT. -/
def ftuFreeUrgent : Fld := ⟨0x300048, 17, 17, 0, false⟩
/-- FTU_FREE.ADMIT_STOP. -/
def ftuFreeAdmitStop : Fld := ⟨0x300048, 18, 18, 0, false⟩
/-- FTU_RELOC.RELOCATE_THRESHOLD. -/
def ftuRelocRelocateThreshold : Fld := ⟨0x30004C, 11, 0, 0, true⟩
/-- FTU_MAP_BUDGET.BUDGET_GIB. -/
def ftuMapBudgetBudgetGib : Fld := ⟨0x300050, 15, 0, 0, true⟩
/-- FTU_FOOTPRINT.FOOT_MIB. -/
def ftuFootprintFootMib : Fld := ⟨0x300054, 21, 0, 0, false⟩
-- page ftu1
/-- FTU_JRNL_CFG.SPILL_PCT. -/
def ftuJrnlCfgSpillPct : Fld := ⟨0x301040, 6, 0, 50, true⟩
/-- FTU_JRNL_CFG.SPILL_MAX. -/
def ftuJrnlCfgSpillMax : Fld := ⟨0x301040, 11, 8, 4, true⟩
/-- FTU_CKPT_CFG.PERIOD_MS. -/
def ftuCkptCfgPeriodMs : Fld := ⟨0x301044, 15, 0, 1000, true⟩
/-- FTU_CSEQ_LO.CSEQ. -/
def ftuCseqLoCseq : Fld := ⟨0x301048, 31, 0, 0, false⟩
/-- FTU_CSEQ_HI.CSEQ. -/
def ftuCseqHiCseq : Fld := ⟨0x30104C, 31, 0, 0, false⟩
/-- FTU_LOW_LO.LOW. -/
def ftuLowLoLow : Fld := ⟨0x301050, 31, 0, 0, false⟩
/-- FTU_LOW_HI.LOW. -/
def ftuLowHiLow : Fld := ⟨0x301054, 31, 0, 0, false⟩
/-- FTU_JRNL_STAT.RING_USED. -/
def ftuJrnlStatRingUsed : Fld := ⟨0x301058, 17, 0, 0, false⟩
/-- FTU_SPILL.SPILLED. -/
def ftuSpillSpilled : Fld := ⟨0x30105C, 31, 0, 0, false⟩
/-- FTU_CKPT_STAT.GEN. -/
def ftuCkptStatGen : Fld := ⟨0x301060, 31, 0, 0, false⟩
/-- FTU_DIRTY.DIRTY_PAGES. -/
def ftuDirtyDirtyPages : Fld := ⟨0x301064, 27, 0, 0, false⟩
/-- FTU_BAND_CFG.META_CLASS. -/
def ftuBandCfgMetaClass : Fld := ⟨0x301068, 2, 0, 0, true⟩
-- page ftu2
/-- FTU_BAND_SEL.BAND. -/
def ftuBandSelBand : Fld := ⟨0x302040, 23, 0, 0, false⟩
/-- FTU_BAND_INFO.STATE. -/
def ftuBandInfoState : Fld := ⟨0x302044, 2, 0, 0, false⟩
/-- FTU_BAND_INFO.FLAGS. -/
def ftuBandInfoFlags : Fld := ⟨0x302044, 7, 3, 0, false⟩
/-- FTU_BAND_INFO.D. -/
def ftuBandInfoD : Fld := ⟨0x302044, 15, 8, 0, false⟩
/-- FTU_BAND_INFO.P. -/
def ftuBandInfoP : Fld := ⟨0x302044, 17, 16, 0, false⟩
/-- FTU_BAND_INFO.K. -/
def ftuBandInfoK : Fld := ⟨0x302044, 23, 20, 0, false⟩
/-- FTU_BAND_INFO.CLASS. -/
def ftuBandInfoClass : Fld := ⟨0x302044, 26, 24, 0, false⟩
/-- FTU_BAND_LIVE_LO.LIVE. -/
def ftuBandLiveLoLive : Fld := ⟨0x302048, 31, 0, 0, false⟩
/-- FTU_BAND_LIVE_HI.LIVE. -/
def ftuBandLiveHiLive : Fld := ⟨0x30204C, 31, 0, 0, false⟩
/-- FTU_BAND_CBITS.CBITS_MAX. -/
def ftuBandCbitsCbitsMax : Fld := ⟨0x302050, 15, 0, 0, false⟩
/-- FTU_BAND_FWD.FWD_ENTRIES. -/
def ftuBandFwdFwdEntries : Fld := ⟨0x302054, 31, 0, 0, false⟩
/-- FTU_BAND_CNT.IN_USE. -/
def ftuBandCntInUse : Fld := ⟨0x302058, 23, 0, 0, false⟩
/-- FTU_RELOC_Q.QUEUED. -/
def ftuRelocQQueued : Fld := ⟨0x30205C, 12, 0, 0, false⟩
-- page ftu3
/-- FTU_MEM_SEL.MEMBER. -/
def ftuMemSelMember : Fld := ⟨0x303040, 4, 0, 0, false⟩
/-- FTU_MEM_BLOCKS.OWNED. -/
def ftuMemBlocksOwned : Fld := ⟨0x303044, 31, 0, 0, false⟩
/-- FTU_MEM_FREE.FREE. -/
def ftuMemFreeFree : Fld := ⟨0x303048, 31, 0, 0, false⟩
/-- FTU_MEM_RETIRED.RETIRED. -/
def ftuMemRetiredRetired : Fld := ⟨0x30304C, 31, 0, 0, false⟩
/-- FTU_MEM_EMIN.EMIN. -/
def ftuMemEminEmin : Fld := ⟨0x303050, 31, 0, 0, false⟩
/-- FTU_MEM_EMAX.EMAX. -/
def ftuMemEmaxEmax : Fld := ⟨0x303054, 31, 0, 0, false⟩
/-- FTU_MEM_EXT.EXTENTS. -/
def ftuMemExtExtents : Fld := ⟨0x303058, 15, 0, 0, false⟩
-- page mca
/-- MCA_CTRL.CACHE_EN. -/
def mcaCtrlCacheEn : Fld := ⟨0x304040, 0, 0, 0, false⟩
/-- MCA_CFG.PREFETCH. -/
def mcaCfgPrefetch : Fld := ⟨0x304044, 0, 0, 1, true⟩
/-- MCA_CFG.VICTIM_EN. -/
def mcaCfgVictimEn : Fld := ⟨0x304044, 1, 1, 1, true⟩
/-- MCA_CFG.IDLE_RATE. -/
def mcaCfgIdleRate : Fld := ⟨0x304044, 15, 8, 2, true⟩
/-- MCA_WAYS.GROUP0_ON. -/
def mcaWaysGroup0On : Fld := ⟨0x304048, 0, 0, 1, false⟩
/-- MCA_WAYS.GROUP_ON. -/
def mcaWaysGroupOn : Fld := ⟨0x304048, 3, 1, 7, false⟩
/-- MCA_WAYS_STAT.READY. -/
def mcaWaysStatReady : Fld := ⟨0x30404C, 3, 0, 0, false⟩
/-- MCA_WAYS_STAT.CLEANING. -/
def mcaWaysStatCleaning : Fld := ⟨0x30404C, 7, 4, 0, false⟩
/-- MCA_DIRTY.DIRTY_LINES. -/
def mcaDirtyDirtyLines : Fld := ⟨0x304050, 19, 0, 0, false⟩
/-- MCA_LOW_LO.LOW. -/
def mcaLowLoLow : Fld := ⟨0x304054, 31, 0, 0, false⟩
/-- MCA_LOW_HI.LOW. -/
def mcaLowHiLow : Fld := ⟨0x304058, 31, 0, 0, false⟩
-- page par
/-- PAR_CTRL.PARITY_EN. -/
def parCtrlParityEn : Fld := ⟨0x305040, 0, 0, 0, false⟩
/-- PAR_CTRL.REBUILD_EN. -/
def parCtrlRebuildEn : Fld := ⟨0x305040, 1, 1, 0, false⟩
/-- PAR_CTRL.PATROL_EN. -/
def parCtrlPatrolEn : Fld := ⟨0x305040, 2, 2, 0, false⟩
/-- PAR_CLASS_SEL.CLASS. -/
def parClassSelClass : Fld := ⟨0x305044, 2, 0, 0, false⟩
/-- PAR_CLASS_CFG.P. -/
def parClassCfgP : Fld := ⟨0x305048, 1, 0, 1, true⟩
/-- PAR_CLASS_CFG.D. -/
def parClassCfgD : Fld := ⟨0x305048, 12, 8, 8, true⟩
/-- PAR_CLASS_CFG.EN. -/
def parClassCfgEn : Fld := ⟨0x305048, 16, 16, 0, true⟩
/-- PAR_TIMEOUT.MEMBER_TIMEOUT. -/
def parTimeoutMemberTimeout : Fld := ⟨0x30504C, 16, 0, 1500, true⟩
/-- PAR_REBUILD.RATE_GBPS. -/
def parRebuildRateGbps : Fld := ⟨0x305050, 5, 0, 40, true⟩
/-- PAR_REBUILD.DELAY_S. -/
def parRebuildDelayS : Fld := ⟨0x305050, 15, 8, 0, true⟩
/-- PAR_PATROL.PERIOD_H. -/
def parPatrolPeriodH : Fld := ⟨0x305054, 13, 0, 168, true⟩
/-- PAR_PATROL_STAT.DONE_PCT. -/
def parPatrolStatDonePct : Fld := ⟨0x305058, 7, 0, 0, false⟩
/-- PAR_PATROL_STAT.SWEEPS. -/
def parPatrolStatSweeps : Fld := ⟨0x305058, 31, 16, 0, false⟩
/-- PAR_REBUILD_STAT.ACTIVE. -/
def parRebuildStatActive : Fld := ⟨0x30505C, 0, 0, 0, false⟩
/-- PAR_REBUILD_STAT.MEMBER. -/
def parRebuildStatMember : Fld := ⟨0x30505C, 12, 8, 0, false⟩
/-- PAR_REBUILD_STAT.BANDS_LEFT. -/
def parRebuildStatBandsLeft : Fld := ⟨0x30505C, 31, 16, 0, false⟩
/-- PAR_MEM_SEL.MODULE. -/
def parMemSelModule : Fld := ⟨0x305060, 4, 0, 0, false⟩
/-- PAR_MEM_STAT.STATE. -/
def parMemStatState : Fld := ⟨0x305064, 2, 0, 0, false⟩
/-- PAR_MEM_STAT.TIMEOUTS. -/
def parMemStatTimeouts : Fld := ⟨0x305064, 9, 8, 0, false⟩
/-- PAR_MEM_STAT.AROUNDS. -/
def parMemStatArounds : Fld := ⟨0x305064, 31, 16, 0, false⟩
/-- PAR_MEM_CMD.CMD. -/
def parMemCmdCmd : Fld := ⟨0x305068, 1, 0, 0, false⟩
/-- PAR_GRACE.GRACE_S. -/
def parGraceGraceS : Fld := ⟨0x30506C, 7, 0, 10, false⟩
/-- PAR_LOST_STAT.COUNT. -/
def parLostStatCount : Fld := ⟨0x305070, 14, 0, 0, false⟩
/-- PAR_LOST_STAT.OVERFLOW. -/
def parLostStatOverflow : Fld := ⟨0x305070, 15, 15, 0, false⟩
/-- PAR_LOST_STAT.DROPPED. -/
def parLostStatDropped : Fld := ⟨0x305070, 31, 16, 0, false⟩
/-- PAR_LOST_IDX.INDEX. -/
def parLostIdxIndex : Fld := ⟨0x305074, 13, 0, 0, false⟩
/-- PAR_LOST_ACK.N. -/
def parLostAckN : Fld := ⟨0x305078, 14, 0, 0, false⟩
/-- PAR_LOST_W0–W7.RECORD. -/
def parLostWRecord (k : Nat) : Fld := ⟨0x305080 + 4 * k, 31, 0, 0, false⟩
-- page ldc0
/-- LDC_CTRL.DEC_EN. -/
def ldcCtrlDecEn : Fld := ⟨0x306040, 0, 0, 0, false⟩
/-- LDC_CTRL.ENC_EN. -/
def ldcCtrlEncEn : Fld := ⟨0x306040, 1, 1, 0, false⟩
/-- LDC_LANE_EN.LANE_ON. -/
def ldcLaneEnLaneOn : Fld := ⟨0x306044, 31, 0, 4294967295, false⟩
/-- LDC_LANE_STAT.READY. -/
def ldcLaneStatReady : Fld := ⟨0x306048, 31, 0, 0, false⟩
/-- LDC_ENC_STAT.ENC_READY. -/
def ldcEncStatEncReady : Fld := ⟨0x30604C, 7, 0, 0, false⟩
/-- LDC_CFG.RETRY_MAX. -/
def ldcCfgRetryMax : Fld := ⟨0x306050, 3, 0, 0, true⟩
/-- LDC_CFG.SOFT_EN. -/
def ldcCfgSoftEn : Fld := ⟨0x306050, 4, 4, 1, true⟩
/-- LDC_CFG.EARLY_RECON. -/
def ldcCfgEarlyRecon : Fld := ⟨0x306050, 5, 5, 1, true⟩
-- page ldc1
/-- LDC_LSEL.LANE. -/
def ldcLselLane : Fld := ⟨0x307040, 4, 0, 0, false⟩
/-- LDC_LINFO.STATE. -/
def ldcLinfoState : Fld := ⟨0x307044, 3, 0, 0, false⟩
/-- LDC_LINFO.FAULTS. -/
def ldcLinfoFaults : Fld := ⟨0x307044, 7, 4, 0, false⟩
-- page vlt
/-- VLT_CFG.MTS. -/
def vltCfgMts : Fld := ⟨0x308040, 11, 0, 3600, true⟩
/-- VLT_STAT.READY. -/
def vltStatReady : Fld := ⟨0x308044, 0, 0, 0, false⟩
/-- VLT_STAT.DUMPING. -/
def vltStatDumping : Fld := ⟨0x308044, 1, 1, 0, false⟩
/-- VLT_STAT.RESTORING. -/
def vltStatRestoring : Fld := ⟨0x308044, 2, 2, 0, false⟩
/-- VLT_STAT.IMAGE_VALID. -/
def vltStatImageValid : Fld := ⟨0x308044, 3, 3, 0, false⟩
/-- VLT_STAT.TARGETS. -/
def vltStatTargets : Fld := ⟨0x308044, 7, 4, 0, false⟩
/-- VLT_CAP.GIB. -/
def vltCapGib : Fld := ⟨0x308048, 15, 0, 0, false⟩
/-- VLT_BAD.BAD. -/
def vltBadBad : Fld := ⟨0x30804C, 15, 0, 0, false⟩
-- page mpt
/-- MPT_LINK_CTRL.MAX_SPEED. -/
def mptLinkCtrlMaxSpeed (n : Nat) : Fld := ⟨0x320000 + 0x1000 * n + 0x40, 2, 0, 6, true⟩
/-- MPT_LINK_CTRL.PERST. -/
def mptLinkCtrlPerst (n : Nat) : Fld := ⟨0x320000 + 0x1000 * n + 0x40, 4, 4, 1, false⟩
/-- MPT_LINK_CTRL.RETRAIN. -/
def mptLinkCtrlRetrain (n : Nat) : Fld := ⟨0x320000 + 0x1000 * n + 0x40, 5, 5, 0, false⟩
/-- MPT_LINK_STAT.SPEED. -/
def mptLinkStatSpeed (n : Nat) : Fld := ⟨0x320000 + 0x1000 * n + 0x44, 2, 0, 0, false⟩
/-- MPT_LINK_STAT.FLIT. -/
def mptLinkStatFlit (n : Nat) : Fld := ⟨0x320000 + 0x1000 * n + 0x44, 3, 3, 0, false⟩
/-- MPT_LINK_STAT.WIDTH. -/
def mptLinkStatWidth (n : Nat) : Fld := ⟨0x320000 + 0x1000 * n + 0x44, 7, 4, 0, false⟩
/-- MPT_LINK_STAT.UP. -/
def mptLinkStatUp (n : Nat) : Fld := ⟨0x320000 + 0x1000 * n + 0x44, 8, 8, 0, false⟩
/-- MPT_LINK_STAT.DOWNS. -/
def mptLinkStatDowns (n : Nat) : Fld := ⟨0x320000 + 0x1000 * n + 0x44, 23, 16, 0, false⟩
/-- MPT_MOD_STAT.MIR_VALID. -/
def mptModStatMirValid (n : Nat) : Fld := ⟨0x320000 + 0x1000 * n + 0x48, 0, 0, 0, false⟩
/-- MPT_MOD_STAT.ADMITTED. -/
def mptModStatAdmitted (n : Nat) : Fld := ⟨0x320000 + 0x1000 * n + 0x48, 1, 1, 0, false⟩
/-- MPT_MOD_STAT.I3C. -/
def mptModStatI3c (n : Nat) : Fld := ⟨0x320000 + 0x1000 * n + 0x48, 2, 2, 0, false⟩
/-- MPT_MOD_STAT.YSTAT. -/
def mptModStatYstat (n : Nat) : Fld := ⟨0x320000 + 0x1000 * n + 0x48, 7, 3, 0, false⟩
/-- MPT_FENCE.GEN. -/
def mptFenceGen (n : Nat) : Fld := ⟨0x320000 + 0x1000 * n + 0x4C, 30, 0, 0, false⟩
/-- MPT_FENCE.HOLDER. -/
def mptFenceHolder (n : Nat) : Fld := ⟨0x320000 + 0x1000 * n + 0x4C, 31, 31, 0, false⟩
/-- MPT_FENCE_RES.RESULT. -/
def mptFenceResResult (n : Nat) : Fld := ⟨0x320000 + 0x1000 * n + 0x50, 1, 0, 0, false⟩
/-- MPT_FENCE_RES.REISSUED. -/
def mptFenceResReissued (n : Nat) : Fld := ⟨0x320000 + 0x1000 * n + 0x50, 31, 16, 0, false⟩
/-- MPT_QSTAT.OUTSTANDING. -/
def mptQstatOutstanding (n : Nat) : Fld := ⟨0x320000 + 0x1000 * n + 0x54, 11, 0, 0, false⟩
/-- MPT_MIR_IDX.WORD. -/
def mptMirIdxWord (n : Nat) : Fld := ⟨0x320000 + 0x1000 * n + 0x58, 9, 0, 0, false⟩
/-- MPT_MIR_DATA.DATA. -/
def mptMirDataData (n : Nat) : Fld := ⟨0x320000 + 0x1000 * n + 0x5C, 31, 0, 0, false⟩
-- page tl
/-- TL_LINK_CTRL.MAX_SPEED. -/
def tlLinkCtrlMaxSpeed (n : Nat) : Fld := ⟨0x400000 + 0x1000 * n + 0x40, 2, 0, 6, true⟩
/-- TL_LINK_CTRL.MAX_WIDTH. -/
def tlLinkCtrlMaxWidth (n : Nat) : Fld := ⟨0x400000 + 0x1000 * n + 0x40, 8, 4, 16, true⟩
/-- TL_LINK_CTRL.RETRAIN. -/
def tlLinkCtrlRetrain (n : Nat) : Fld := ⟨0x400000 + 0x1000 * n + 0x40, 9, 9, 0, false⟩
/-- TL_LINK_CTRL.TX_OFF. -/
def tlLinkCtrlTxOff (n : Nat) : Fld := ⟨0x400000 + 0x1000 * n + 0x40, 10, 10, 0, false⟩
/-- TL_LINK_STAT.SPEED. -/
def tlLinkStatSpeed (n : Nat) : Fld := ⟨0x400000 + 0x1000 * n + 0x44, 2, 0, 0, false⟩
/-- TL_LINK_STAT.FLIT. -/
def tlLinkStatFlit (n : Nat) : Fld := ⟨0x400000 + 0x1000 * n + 0x44, 3, 3, 0, false⟩
/-- TL_LINK_STAT.WIDTH. -/
def tlLinkStatWidth (n : Nat) : Fld := ⟨0x400000 + 0x1000 * n + 0x44, 8, 4, 0, false⟩
/-- TL_LINK_STAT.UP. -/
def tlLinkStatUp (n : Nat) : Fld := ⟨0x400000 + 0x1000 * n + 0x44, 9, 9, 0, false⟩
/-- TL_LINK_STAT.DOWNS. -/
def tlLinkStatDowns (n : Nat) : Fld := ⟨0x400000 + 0x1000 * n + 0x44, 31, 24, 0, false⟩
/-- TL_WIN_SEL.WIN. -/
def tlWinSelWin (n : Nat) : Fld := ⟨0x400000 + 0x1000 * n + 0x48, 2, 0, 0, false⟩
/-- TL_WIN_BASE_LO.BASE_LO. -/
def tlWinBaseLoBaseLo (n : Nat) : Fld := ⟨0x400000 + 0x1000 * n + 0x4C, 31, 0, 0, false⟩
/-- TL_WIN_BASE_HI.BASE_HI. -/
def tlWinBaseHiBaseHi (n : Nat) : Fld := ⟨0x400000 + 0x1000 * n + 0x50, 31, 0, 0, false⟩
/-- TL_WIN_SIZE.SIZE. -/
def tlWinSizeSize (n : Nat) : Fld := ⟨0x400000 + 0x1000 * n + 0x54, 23, 0, 0, false⟩
/-- TL_WIN_ACT_BASE_LO.ACT_BASE. -/
def tlWinActBaseLoActBase (n : Nat) : Fld := ⟨0x400000 + 0x1000 * n + 0x58, 31, 0, 0, false⟩
/-- TL_WIN_ACT_BASE_HI.ACT_BASE. -/
def tlWinActBaseHiActBase (n : Nat) : Fld := ⟨0x400000 + 0x1000 * n + 0x5C, 31, 0, 0, false⟩
/-- TL_WIN_ACT_SIZE.ACT_SIZE. -/
def tlWinActSizeActSize (n : Nat) : Fld := ⟨0x400000 + 0x1000 * n + 0x60, 23, 0, 0, false⟩
/-- TL_WIN_CTRL.WIN_COMMIT. -/
def tlWinCtrlWinCommit (n : Nat) : Fld := ⟨0x400000 + 0x1000 * n + 0x64, 0, 0, 0, false⟩
/-- TL_WIN_CTRL.WIN_SEQ. -/
def tlWinCtrlWinSeq (n : Nat) : Fld := ⟨0x400000 + 0x1000 * n + 0x64, 31, 16, 0, false⟩
/-- TL_RETX.RESENT. -/
def tlRetxResent (n : Nat) : Fld := ⟨0x400000 + 0x1000 * n + 0x68, 31, 0, 0, false⟩
-- page mir
/-- MIR_CTRL.MIRROR_EN. -/
def mirCtrlMirrorEn : Fld := ⟨0x402040, 0, 0, 0, false⟩
/-- MIR_CTRL.FWD_EN. -/
def mirCtrlFwdEn : Fld := ⟨0x402040, 1, 1, 0, false⟩
/-- MIR_CTRL.ECL_EN. -/
def mirCtrlEclEn : Fld := ⟨0x402040, 2, 2, 0, false⟩
/-- MIR_PAIR_STAT.MODE. -/
def mirPairStatMode : Fld := ⟨0x402044, 1, 0, 0, false⟩
/-- MIR_PAIR_STAT.PEER_STATE. -/
def mirPairStatPeerState : Fld := ⟨0x402044, 5, 2, 15, false⟩
/-- MIR_PAIR_STAT.SEVERED. -/
def mirPairStatSevered : Fld := ⟨0x402044, 6, 6, 0, false⟩
/-- MIR_PAIR_STAT.MIRROR_CURRENT. -/
def mirPairStatMirrorCurrent : Fld := ⟨0x402044, 7, 7, 0, false⟩
/-- MIR_PAIR_STAT.CAUGHT_UP. -/
def mirPairStatCaughtUp : Fld := ⟨0x402044, 8, 8, 0, false⟩
/-- MIR_PAIR_STAT.PEER_PRESENT. -/
def mirPairStatPeerPresent : Fld := ⟨0x402044, 9, 9, 0, false⟩
/-- MIR_PAIR_STAT.ECLIPSE_BUSY. -/
def mirPairStatEclipseBusy : Fld := ⟨0x402044, 10, 10, 0, false⟩
/-- MIR_PAIR_STAT.MOVE_BUSY. -/
def mirPairStatMoveBusy : Fld := ⟨0x402044, 11, 11, 0, false⟩
/-- MIR_FOOT.OWN_GIB. -/
def mirFootOwnGib : Fld := ⟨0x402048, 15, 0, 0, false⟩
/-- MIR_FOOT.PEER_GIB. -/
def mirFootPeerGib : Fld := ⟨0x402048, 31, 16, 0, false⟩
/-- MIR_FWD_BASE_LO.FWD_BASE. -/
def mirFwdBaseLoFwdBase : Fld := ⟨0x40204C, 31, 0, 0, false⟩
/-- MIR_FWD_BASE_HI.FWD_BASE. -/
def mirFwdBaseHiFwdBase : Fld := ⟨0x402050, 31, 0, 0, false⟩
/-- MIR_INFLIGHT.KIB. -/
def mirInflightKib : Fld := ⟨0x402054, 23, 0, 0, false⟩
/-- MIR_FWD_OUT.OUT. -/
def mirFwdOutOut : Fld := ⟨0x402058, 18, 0, 0, false⟩
/-- MIR_ECL_LAST_LO.LAST. -/
def mirEclLastLoLast : Fld := ⟨0x40205C, 31, 0, 0, false⟩
/-- MIR_ECL_LAST_HI.LAST. -/
def mirEclLastHiLast : Fld := ⟨0x402060, 31, 0, 0, false⟩
/-- MIR_ECL_TIMES.DETECT_US. -/
def mirEclTimesDetectUs : Fld := ⟨0x402064, 7, 0, 0, false⟩
/-- MIR_ECL_TIMES.FENCE_US. -/
def mirEclTimesFenceUs : Fld := ⟨0x402064, 15, 8, 0, false⟩
/-- MIR_ECL_TIMES.REARM_US. -/
def mirEclTimesRearmUs : Fld := ⟨0x402064, 23, 16, 0, false⟩
/-- MIR_ECL_TIMES.CAUSE. -/
def mirEclTimesCause : Fld := ⟨0x402064, 31, 24, 0, false⟩
/-- MIR_JOIN.CAUSE. -/
def mirJoinCause : Fld := ⟨0x402068, 3, 0, 0, false⟩
-- page ocu
/-- OCU_CTRL.CMP_EN. -/
def ocuCtrlCmpEn : Fld := ⟨0x403040, 0, 0, 0, false⟩
/-- OCU_STAT.STREAM_OK. -/
def ocuStatStreamOk : Fld := ⟨0x403044, 0, 0, 0, false⟩
/-- OCU_STAT.ARBITRATING. -/
def ocuStatArbitrating : Fld := ⟨0x403044, 1, 1, 0, false⟩
/-- OCU_STAT.VERDICT. -/
def ocuStatVerdict : Fld := ⟨0x403044, 3, 2, 0, false⟩
/-- OCU_OWN_WIN_LO.OWN. -/
def ocuOwnWinLoOwn : Fld := ⟨0x403048, 31, 0, 0, false⟩
/-- OCU_OWN_WIN_HI.OWN. -/
def ocuOwnWinHiOwn : Fld := ⟨0x40304C, 31, 0, 0, false⟩
/-- OCU_PEER_WIN_LO.PEER. -/
def ocuPeerWinLoPeer : Fld := ⟨0x403050, 31, 0, 0, false⟩
/-- OCU_PEER_WIN_HI.PEER. -/
def ocuPeerWinHiPeer : Fld := ⟨0x403054, 31, 0, 0, false⟩
/-- OCU_GAP.GAP. -/
def ocuGapGap : Fld := ⟨0x403058, 15, 0, 0, false⟩
/-- OCU_COUNTS.MISMATCHES. -/
def ocuCountsMismatches : Fld := ⟨0x40305C, 15, 0, 0, false⟩
/-- OCU_COUNTS.ARBITRATIONS. -/
def ocuCountsArbitrations : Fld := ⟨0x40305C, 31, 16, 0, false⟩
-- page hbu
/-- HBU_CTRL.TX_EN. -/
def hbuCtrlTxEn : Fld := ⟨0x404040, 0, 0, 1, false⟩
/-- HBU_STAT.RX_OK. -/
def hbuStatRxOk : Fld := ⟨0x404044, 0, 0, 0, false⟩
/-- HBU_STAT.PEER_STATE. -/
def hbuStatPeerState : Fld := ⟨0x404044, 4, 1, 0, false⟩
/-- HBU_STAT.PEER_HEAD. -/
def hbuStatPeerHead : Fld := ⟨0x404044, 5, 5, 0, false⟩
/-- HBU_STAT.PEER_FAULT. -/
def hbuStatPeerFault : Fld := ⟨0x404044, 6, 6, 0, false⟩
/-- HBU_STAT.RX_SEQ. -/
def hbuStatRxSeq : Fld := ⟨0x404044, 31, 16, 0, false⟩
/-- HBU_ERRS.CRC_ERRS. -/
def hbuErrsCrcErrs : Fld := ⟨0x404048, 15, 0, 0, false⟩
/-- HBU_ERRS.SILENCES. -/
def hbuErrsSilences : Fld := ⟨0x404048, 31, 16, 0, false⟩
-- page stg
/-- STG_WB_BASE_LO.WB_LO. -/
def stgWbBaseLoWbLo : Fld := ⟨0x50C040, 31, 0, 0, false⟩
/-- STG_WB_BASE_HI.WB_HI. -/
def stgWbBaseHiWbHi : Fld := ⟨0x50C044, 31, 0, 0, false⟩
/-- STG_DST_CFG.DST_AGE. -/
def stgDstCfgDstAge : Fld := ⟨0x50C048, 13, 0, 100, true⟩
/-- STG_DST_CFG.HIGH_PCT. -/
def stgDstCfgHighPct : Fld := ⟨0x50C048, 22, 16, 50, true⟩
/-- STG_WB_STAT.OWN_USED. -/
def stgWbStatOwnUsed : Fld := ⟨0x50C04C, 20, 0, 0, false⟩
/-- STG_WB_STAT.READY. -/
def stgWbStatReady : Fld := ⟨0x50C04C, 21, 21, 0, false⟩
/-- STG_WB_MIR.MIR_USED. -/
def stgWbMirMirUsed : Fld := ⟨0x50C050, 20, 0, 0, false⟩
/-- STG_POOL.UNIT_FREE. -/
def stgPoolUnitFree : Fld := ⟨0x50C054, 13, 0, 8192, false⟩
/-- STG_POOL.CHUNK_FREE. -/
def stgPoolChunkFree : Fld := ⟨0x50C054, 24, 16, 384, false⟩
/-- STG_FILTER.FILTER_SAT. -/
def stgFilterFilterSat : Fld := ⟨0x50C058, 15, 0, 0, false⟩
/-- STG_FILTER.RECLAIMED. -/
def stgFilterReclaimed : Fld := ⟨0x50C058, 31, 16, 0, false⟩
-- page fco
/-- FCO_LATCH_LO.LATCH_LO. -/
def fcoLatchLoLatchLo : Fld := ⟨0x2040, 31, 0, 0, false⟩
/-- FCO_LATCH_HI.LATCH_HI. -/
def fcoLatchHiLatchHi : Fld := ⟨0x2044, 31, 0, 0, false⟩
/-- FCO_STAT.GRAVE. -/
def fcoStatGrave : Fld := ⟨0x2048, 0, 0, 0, false⟩
/-- FCO_STAT.OPEN. -/
def fcoStatOpen : Fld := ⟨0x2048, 5, 1, 0, false⟩
/-- FCO_STAT.MAX_CLASS. -/
def fcoStatMaxClass : Fld := ⟨0x2048, 10, 8, 0, false⟩
/-- FCO_STAT.NEXT_INC. -/
def fcoStatNextInc : Fld := ⟨0x2048, 31, 16, 1, false⟩
/-- FCO_GRAVE.CAUSE. -/
def fcoGraveCause : Fld := ⟨0x204C, 7, 0, 0, false⟩
/-- FCO_GRAVE.SOURCE. -/
def fcoGraveSource : Fld := ⟨0x204C, 13, 8, 0, false⟩
/-- FCO_GRAVE.INCIDENT. -/
def fcoGraveIncident : Fld := ⟨0x204C, 31, 16, 0, false⟩
/-- FCO_GRAVE_T_LO.TIME. -/
def fcoGraveTLoTime : Fld := ⟨0x2050, 31, 0, 0, false⟩
/-- FCO_GRAVE_T_HI.TIME. -/
def fcoGraveTHiTime : Fld := ⟨0x2054, 31, 0, 0, false⟩
/-- FCO_INC_SEL.SLOT. -/
def fcoIncSelSlot : Fld := ⟨0x2058, 3, 0, 0, false⟩
/-- FCO_INC_INFO.INCIDENT. -/
def fcoIncInfoIncident : Fld := ⟨0x205C, 15, 0, 0, false⟩
/-- FCO_INC_INFO.CLASS. -/
def fcoIncInfoClass : Fld := ⟨0x205C, 18, 16, 0, false⟩
/-- FCO_INC_INFO.SOURCE. -/
def fcoIncInfoSource : Fld := ⟨0x205C, 24, 19, 0, false⟩
/-- FCO_INC_INFO.SUBS. -/
def fcoIncInfoSubs : Fld := ⟨0x205C, 31, 26, 0, false⟩
/-- FCO_INJ_CTL.ARM. -/
def fcoInjCtlArm : Fld := ⟨0x2060, 7, 0, 0, false⟩
/-- FCO_INJ_CTL.INJ_EN. -/
def fcoInjCtlInjEn : Fld := ⟨0x2060, 8, 8, 0, false⟩
/-- FCO_INJ_CTL.GRAVE_OK. -/
def fcoInjCtlGraveOk : Fld := ⟨0x2060, 9, 9, 0, false⟩
-- page evr
/-- EVR_CTRL.REC_EN. -/
def evrCtrlRecEn : Fld := ⟨0x3040, 0, 0, 1, false⟩
/-- EVR_STAT.HELD. -/
def evrStatHeld : Fld := ⟨0x3044, 16, 0, 0, false⟩
/-- EVR_STAT.FULL. -/
def evrStatFull : Fld := ⟨0x3044, 17, 17, 0, false⟩
/-- EVR_OLDEST.OLDEST. -/
def evrOldestOldest : Fld := ⟨0x3048, 31, 0, 0, false⟩
/-- EVR_NEXT.NEXT. -/
def evrNextNext : Fld := ⟨0x304C, 31, 0, 0, false⟩
/-- EVR_DROPPED.DROPPED. -/
def evrDroppedDropped : Fld := ⟨0x3050, 31, 0, 0, false⟩
/-- EVR_SUPPR.SUPPR. -/
def evrSupprSuppr : Fld := ⟨0x3054, 31, 0, 0, false⟩
/-- EVR_RATE.PER_S. -/
def evrRatePerS : Fld := ⟨0x3058, 15, 0, 1000, false⟩
/-- EVR_RATE.BURST. -/
def evrRateBurst : Fld := ⟨0x3058, 23, 16, 64, false⟩
/-- EVR_RD_SEQ.SEQ. -/
def evrRdSeqSeq : Fld := ⟨0x305C, 31, 0, 0, false⟩
/-- EVR_RD_W0–W7.RECORD. -/
def evrRdWRecord (k : Nat) : Fld := ⟨0x3060 + 4 * k, 31, 0, 0, false⟩
/-- EVR_RELEASE.SEQ. -/
def evrReleaseSeq : Fld := ⟨0x3080, 31, 0, 0, false⟩
-- page eph0
/-- EPH_CTRL.FIRE_EN. -/
def ephCtrlFireEn : Fld := ⟨0x4040, 0, 0, 0, false⟩
/-- EPH_CTRL.PPS_OUT_EN. -/
def ephCtrlPpsOutEn : Fld := ⟨0x4040, 1, 1, 0, false⟩
/-- EPH_CTRL.SRC. -/
def ephCtrlSrc : Fld := ⟨0x4040, 3, 2, 0, true⟩
/-- EPH_STAT.STATE. -/
def ephStatState : Fld := ⟨0x4044, 2, 0, 0, false⟩
/-- EPH_STAT.PPS_PRESENT. -/
def ephStatPpsPresent : Fld := ⟨0x4044, 3, 3, 0, false⟩
/-- EPH_STAT.PPS_DISAGREE. -/
def ephStatPpsDisagree : Fld := ⟨0x4044, 4, 4, 0, false⟩
/-- EPH_STAT.SET_PEND. -/
def ephStatSetPend : Fld := ⟨0x4044, 5, 5, 0, false⟩
/-- EPH_STAT.PORT. -/
def ephStatPort : Fld := ⟨0x4044, 11, 8, 15, false⟩
/-- EPH_TIME_LO.TIME. -/
def ephTimeLoTime : Fld := ⟨0x4048, 31, 0, 0, false⟩
/-- EPH_TIME_HI.TIME. -/
def ephTimeHiTime : Fld := ⟨0x404C, 31, 0, 0, false⟩
/-- EPH_TERR.TERR. -/
def ephTerrTerr : Fld := ⟨0x4050, 31, 0, 4294967295, false⟩
/-- EPH_OFFSET.OFFSET. -/
def ephOffsetOffset : Fld := ⟨0x4054, 31, 0, 0, false⟩
/-- EPH_FREQ.FREQ. -/
def ephFreqFreq : Fld := ⟨0x4058, 31, 0, 0, false⟩
/-- EPH_HOLD.HOLD_PPB. -/
def ephHoldHoldPpb : Fld := ⟨0x405C, 15, 0, 100, false⟩
/-- EPH_TERR_MAX.TERR_MAX. -/
def ephTerrMaxTerrMax : Fld := ⟨0x4060, 31, 0, 10000, true⟩
/-- EPH_GUARD.GUARD. -/
def ephGuardGuard : Fld := ⟨0x4064, 19, 0, 2000, true⟩
/-- EPH_SET_LO.SET. -/
def ephSetLoSet : Fld := ⟨0x4068, 31, 0, 0, false⟩
/-- EPH_SET_HI.SET. -/
def ephSetHiSet : Fld := ⟨0x406C, 31, 0, 0, false⟩
/-- EPH_SET_CTL.SET. -/
def ephSetCtlSet : Fld := ⟨0x4070, 0, 0, 0, false⟩
/-- EPH_PPS.WIDTH_MS. -/
def ephPpsWidthMs : Fld := ⟨0x4074, 9, 0, 100, false⟩
/-- EPH_PPS.IN_DELAY. -/
def ephPpsInDelay : Fld := ⟨0x4074, 31, 16, 0, false⟩
/-- EPH_PPS_TS_LO.PPS_TS. -/
def ephPpsTsLoPpsTs : Fld := ⟨0x4078, 31, 0, 0, false⟩
/-- EPH_PPS_TS_HI.PPS_TS. -/
def ephPpsTsHiPpsTs : Fld := ⟨0x407C, 31, 0, 0, false⟩
-- page eph1
/-- EPH_WINk_PERIOD.PERIOD_S. -/
def ephWinPeriodPeriodS (k : Nat) : Fld := ⟨0x5040 + 16 * k, 23, 0, 86400, true⟩
/-- EPH_WINk_OFFSET.OFFSET_S. -/
def ephWinOffsetOffsetS (k : Nat) : Fld := ⟨0x5044 + 16 * k, 23, 0, 7200, true⟩
/-- EPH_WINk_DUR.DUR_S. -/
def ephWinDurDurS (k : Nat) : Fld := ⟨0x5048 + 16 * k, 23, 0, 14400, true⟩
/-- EPH_WIN_OPEN.OPEN. -/
def ephWinOpenOpen : Fld := ⟨0x5070, 2, 0, 0, false⟩
/-- EPH_ENT_CNT.USED. -/
def ephEntCntUsed : Fld := ⟨0x5074, 12, 0, 0, false⟩
/-- EPH_ENT_CNT.DORMANT. -/
def ephEntCntDormant : Fld := ⟨0x5074, 28, 16, 0, false⟩
/-- EPH_ENT_SEL.ENTRY. -/
def ephEntSelEntry : Fld := ⟨0x5078, 11, 0, 0, false⟩
/-- EPH_ENT_W0–W7.ENTRY. -/
def ephEntWEntry (k : Nat) : Fld := ⟨0x5080 + 4 * k, 31, 0, 0, false⟩
/-- EPH_ENT_LAST_LO.LAST. -/
def ephEntLastLoLast : Fld := ⟨0x50A0, 31, 0, 0, false⟩
/-- EPH_ENT_LAST_HI.LAST. -/
def ephEntLastHiLast : Fld := ⟨0x50A4, 31, 0, 0, false⟩
/-- EPH_ENT_RES.RESULT. -/
def ephEntResResult : Fld := ⟨0x50A8, 1, 0, 0, false⟩
/-- EPH_ENT_RES.FIRINGS. -/
def ephEntResFirings : Fld := ⟨0x50A8, 31, 16, 0, false⟩
/-- EPH_EPOCHS.IN_USE. -/
def ephEpochsInUse : Fld := ⟨0x50AC, 19, 0, 0, false⟩
/-- EPH_STRM_SEL.SLOT. -/
def ephStrmSelSlot : Fld := ⟨0x5100, 5, 0, 0, false⟩
/-- EPH_STRM_ID.STREAM_ID. -/
def ephStrmIdStreamId : Fld := ⟨0x5104, 31, 0, 0, false⟩
/-- EPH_STRM_STAT.STATE. -/
def ephStrmStatState : Fld := ⟨0x5108, 2, 0, 0, false⟩
/-- EPH_STRM_STAT.ROLE. -/
def ephStrmStatRole : Fld := ⟨0x5108, 3, 3, 0, false⟩
/-- EPH_STRM_STAT.MODE. -/
def ephStrmStatMode : Fld := ⟨0x5108, 4, 4, 0, false⟩
/-- EPH_STRM_STAT.CONNS. -/
def ephStrmStatConns : Fld := ⟨0x5108, 7, 5, 0, false⟩
/-- EPH_STRM_STAT.SKIPPED. -/
def ephStrmStatSkipped : Fld := ⟨0x5108, 31, 16, 0, false⟩
/-- EPH_STRM_CUT_LO.CUT. -/
def ephStrmCutLoCut : Fld := ⟨0x510C, 31, 0, 0, false⟩
/-- EPH_STRM_CUT_HI.CUT. -/
def ephStrmCutHiCut : Fld := ⟨0x5110, 31, 0, 0, false⟩
/-- EPH_STRM_SENT_LO.SENT. -/
def ephStrmSentLoSent : Fld := ⟨0x5114, 31, 0, 0, false⟩
/-- EPH_STRM_SENT_HI.SENT. -/
def ephStrmSentHiSent : Fld := ⟨0x5118, 31, 0, 0, false⟩
/-- EPH_STRM_SAVED_LO.SAVED. -/
def ephStrmSavedLoSaved : Fld := ⟨0x511C, 31, 0, 0, false⟩
/-- EPH_STRM_SAVED_HI.SAVED. -/
def ephStrmSavedHiSaved : Fld := ⟨0x5120, 31, 0, 0, false⟩
-- page bld
/-- BLD_STAT.STAGE. -/
def bldStatStage : Fld := ⟨0x6040, 4, 0, 0, false⟩
/-- BLD_STAT.HEAD. -/
def bldStatHead : Fld := ⟨0x6040, 5, 5, 0, false⟩
/-- BLD_STAT.ROLE. -/
def bldStatRole : Fld := ⟨0x6040, 7, 6, 0, false⟩
/-- BLD_STAT.IMAGE_SRC. -/
def bldStatImageSrc : Fld := ⟨0x6040, 9, 8, 0, false⟩
/-- BLD_STAT.ADOPTED. -/
def bldStatAdopted : Fld := ⟨0x6040, 10, 10, 0, false⟩
/-- BLD_STAT.FAIL. -/
def bldStatFail : Fld := ⟨0x6040, 23, 16, 0, false⟩
/-- BLD_TIMES.ROLE_T. -/
def bldTimesRoleT : Fld := ⟨0x6044, 15, 0, 0, false⟩
/-- BLD_TIMES.READY_T. -/
def bldTimesReadyT : Fld := ⟨0x6044, 31, 16, 0, false⟩
/-- BLD_CFG.WAIT_S. -/
def bldCfgWaitS : Fld := ⟨0x6048, 7, 0, 0, false⟩
/-- BLD_IMG_GEN_LO.GEN. -/
def bldImgGenLoGen : Fld := ⟨0x604C, 31, 0, 0, false⟩
/-- BLD_IMG_GEN_HI.GEN. -/
def bldImgGenHiGen : Fld := ⟨0x6050, 31, 0, 0, false⟩
/-- BLD_SPI.MODE. -/
def bldSpiMode : Fld := ⟨0x6054, 2, 0, 0, false⟩
/-- BLD_SPI.MHZ. -/
def bldSpiMhz : Fld := ⟨0x6054, 15, 8, 0, false⟩
/-- BLD_HIR_IDX.WORD. -/
def bldHirIdxWord : Fld := ⟨0x6058, 5, 0, 0, false⟩
/-- BLD_HIR_DATA.DATA. -/
def bldHirDataData : Fld := ⟨0x605C, 31, 0, 0, false⟩
/-- BLD_FW_STAT.STAGE. -/
def bldFwStatStage : Fld := ⟨0x6080, 2, 0, 0, false⟩
/-- BLD_FW_STAT.TRIAL. -/
def bldFwStatTrial : Fld := ⟨0x6080, 4, 3, 0, false⟩
/-- BLD_FW_STAT.OUTCOME. -/
def bldFwStatOutcome : Fld := ⟨0x6080, 7, 5, 0, false⟩
/-- BLD_FW_STAT.RESERVE_OK. -/
def bldFwStatReserveOk : Fld := ⟨0x6080, 8, 8, 0, false⟩
/-- BLD_FW_STAT.TRIAL_LEFT_S. -/
def bldFwStatTrialLeftS : Fld := ⟨0x6080, 25, 16, 0, false⟩
/-- BLD_FW_CTRL.FW_CONFIRM. -/
def bldFwCtrlFwConfirm : Fld := ⟨0x6084, 0, 0, 0, false⟩
/-- BLD_FW_REJECT.KEY. -/
def bldFwRejectKey : Fld := ⟨0x6088, 15, 0, 0, false⟩
/-- BLD_FW_VER.UCODE_VER. -/
def bldFwVerUcodeVer : Fld := ⟨0x608C, 31, 0, 0, false⟩
/-- BLD_FW_LDR.LDR_VER. -/
def bldFwLdrLdrVer : Fld := ⟨0x6090, 31, 0, 0, false⟩
/-- BLD_FW_ARB.LDR_ARB. -/
def bldFwArbLdrArb : Fld := ⟨0x6094, 6, 0, 0, false⟩
/-- BLD_FW_ARB.UC_ARB. -/
def bldFwArbUcArb : Fld := ⟨0x6094, 14, 8, 0, false⟩
/-- BLD_FW_PIECES.STORED. -/
def bldFwPiecesStored : Fld := ⟨0x6098, 15, 0, 0, false⟩
/-- BLD_FW_PIECES.TOTAL. -/
def bldFwPiecesTotal : Fld := ⟨0x6098, 31, 16, 0, false⟩
/-- BLD_FW_ID_LO.IMAGE_ID. -/
def bldFwIdLoImageId : Fld := ⟨0x609C, 31, 0, 0, false⟩
/-- BLD_FW_ID_HI.IMAGE_ID. -/
def bldFwIdHiImageId : Fld := ⟨0x60A0, 31, 0, 0, false⟩
/-- BLD_SET.SET_VER. -/
def bldSetSetVer : Fld := ⟨0x60A4, 15, 0, 0, false⟩
/-- BLD_SET.FROM_VER. -/
def bldSetFromVer : Fld := ⟨0x60A4, 31, 16, 0, false⟩
-- page sec0
/-- SEC_STAT.BOOT_DONE. -/
def secStatBootDone : Fld := ⟨0x7040, 0, 0, 0, false⟩
/-- SEC_STAT.DEVKEY_OK. -/
def secStatDevkeyOk : Fld := ⟨0x7040, 1, 1, 0, false⟩
/-- SEC_STAT.ATTKEY_OK. -/
def secStatAttkeyOk : Fld := ⟨0x7040, 2, 2, 0, false⟩
/-- SEC_STAT.JTAG_LOCKED. -/
def secStatJtagLocked : Fld := ⟨0x7040, 3, 3, 0, false⟩
/-- SEC_STAT.LOG_OVERFLOW. -/
def secStatLogOverflow : Fld := ⟨0x7040, 4, 4, 0, false⟩
/-- SEC_LOG_CNT.COUNT. -/
def secLogCntCount : Fld := ⟨0x7044, 9, 0, 0, false⟩
/-- SEC_ALARM.SOURCE. -/
def secAlarmSource : Fld := ⟨0x7048, 3, 0, 0, false⟩
/-- SEC_MR_CNT0–3.CNT_EVEN. -/
def secMrCntwCntEven (k : Nat) : Fld := ⟨0x7050 + 4 * k, 15, 0, 0, false⟩
/-- SEC_MR_CNT0–3.CNT_ODD. -/
def secMrCntwCntOdd (k : Nat) : Fld := ⟨0x7050 + 4 * k, 31, 16, 0, false⟩
/-- SEC_MR words.MR. -/
def secMrMr (k : Nat) : Fld := ⟨0x7100 + 4 * k, 31, 0, 0, false⟩
/-- SEC_LOG_IDX.ENTRY. -/
def secLogIdxEntry : Fld := ⟨0x7300, 8, 0, 0, false⟩
/-- SEC_LOG_DATA words.DATA. -/
def secLogDataData (k : Nat) : Fld := ⟨0x7340 + 4 * k, 31, 0, 0, false⟩
-- page sec1
/-- SEC_QCTRL.START. -/
def secQctrlStart : Fld := ⟨0x8040, 0, 0, 0, false⟩
/-- SEC_QSTAT.BUSY. -/
def secQstatBusy : Fld := ⟨0x8044, 0, 0, 0, false⟩
/-- SEC_QSTAT.RESULT. -/
def secQstatResult : Fld := ⟨0x8044, 2, 1, 0, false⟩
/-- SEC_QSEQ.QSEQ. -/
def secQseqQseq : Fld := ⟨0x8048, 31, 0, 0, false⟩
/-- SEC_NONCE_W0–W7.NONCE. -/
def secNonceWNonce (k : Nat) : Fld := ⟨0x8080 + 4 * k, 31, 0, 0, false⟩
/-- SEC_QSIG_W0–W23.SIG. -/
def secQsigWSig (k : Nat) : Fld := ⟨0x8100 + 4 * k, 31, 0, 0, false⟩
/-- SEC_QMSG words.MSG. -/
def secQmsgMsg (k : Nat) : Fld := ⟨0x8200 + 4 * k, 31, 0, 0, false⟩
/-- SEC_CERT_SEL.SEL. -/
def secCertSelSel : Fld := ⟨0x8400, 1, 0, 0, false⟩
/-- SEC_CERT_LEN.LEN. -/
def secCertLenLen : Fld := ⟨0x8404, 11, 0, 0, false⟩
/-- SEC_PUBKEY words.KEY. -/
def secPubkeyKey (k : Nat) : Fld := ⟨0x8440 + 4 * k, 31, 0, 0, false⟩
/-- SEC_CERT_DATA words.DER. -/
def secCertDataDer (k : Nat) : Fld := ⟨0x8800 + 4 * k, 31, 0, 0, false⟩
-- page pwc
/-- PWC_CTRL.SHUTDOWN. -/
def pwcCtrlShutdown : Fld := ⟨0x9040, 0, 0, 0, false⟩
/-- PWC_CTRL.AUTO_EN. -/
def pwcCtrlAutoEn : Fld := ⟨0x9040, 1, 1, 1, false⟩
/-- PWC_STAT.HSTATE. -/
def pwcStatHstate : Fld := ⟨0x9044, 1, 0, 0, false⟩
/-- PWC_STAT.MOVING. -/
def pwcStatMoving : Fld := ⟨0x9044, 2, 2, 0, false⟩
/-- PWC_STAT.INPUT_OK. -/
def pwcStatInputOk : Fld := ⟨0x9044, 3, 3, 0, false⟩
/-- PWC_STAT.DUMPING. -/
def pwcStatDumping : Fld := ⟨0x9044, 4, 4, 0, false⟩
/-- PWC_STAT.SHUT_DONE. -/
def pwcStatShutDone : Fld := ⟨0x9044, 5, 5, 0, false⟩
/-- PWC_STAT.LAST_RESET. -/
def pwcStatLastReset : Fld := ⟨0x9044, 11, 8, 0, false⟩
/-- PWC_LIMIT.CAP. -/
def pwcLimitCap : Fld := ⟨0x9048, 1, 0, 0, true⟩
/-- PWC_RST.KEY. -/
def pwcRstKey : Fld := ⟨0x904C, 15, 0, 0, false⟩
/-- PWC_AUTO.IDLE_US. -/
def pwcAutoIdleUs : Fld := ⟨0x9050, 15, 0, 100, false⟩
/-- PWC_DOM_SEL.KIND. -/
def pwcDomSelKind : Fld := ⟨0x9054, 3, 0, 0, false⟩
/-- PWC_DOM_ON_LO.ON_LO. -/
def pwcDomOnLoOnLo : Fld := ⟨0x9058, 31, 0, 0, false⟩
/-- PWC_DOM_ON_HI.ON_HI. -/
def pwcDomOnHiOnHi : Fld := ⟨0x905C, 4, 0, 0, false⟩
/-- PWC_RAILS.IN_RANGE. -/
def pwcRailsInRange : Fld := ⟨0x9060, 6, 0, 0, false⟩
/-- PWC_CLK.SYS_OK. -/
def pwcClkSysOk : Fld := ⟨0x9064, 0, 0, 0, false⟩
/-- PWC_CLK.ETH_OK. -/
def pwcClkEthOk : Fld := ⟨0x9064, 1, 1, 0, false⟩
/-- PWC_CLK.PCIE_OK. -/
def pwcClkPcieOk : Fld := ⟨0x9064, 10, 2, 0, false⟩
/-- PWC_DUMP.LAST_MS. -/
def pwcDumpLastMs : Fld := ⟨0x9068, 15, 0, 0, false⟩
/-- PWC_DUMP.DUMPS. -/
def pwcDumpDumps : Fld := ⟨0x9068, 31, 16, 0, false⟩
/-- PWC_TEMP.TJ. -/
def pwcTempTj : Fld := ⟨0x9070, 11, 0, 0, false⟩
/-- PWC_TEMP.SENSOR. -/
def pwcTempSensor : Fld := ⟨0x9070, 15, 12, 0, false⟩
/-- PWC_TEMP.LEVEL. -/
def pwcTempLevel : Fld := ⟨0x9070, 17, 16, 0, false⟩
/-- PWC_TEMP.IN_SERVICE. -/
def pwcTempInService : Fld := ⟨0x9070, 22, 18, 16, false⟩
/-- PWC_THERM.ENTRIES. -/
def pwcThermEntries : Fld := ⟨0x9074, 15, 0, 0, false⟩
/-- PWC_THERM.MAX_TJ. -/
def pwcThermMaxTj : Fld := ⟨0x9074, 27, 16, 0, false⟩
/-- PWC_TSEL.SENSOR. -/
def pwcTselSensor : Fld := ⟨0x9078, 3, 0, 0, false⟩
/-- PWC_TVAL.TJ. -/
def pwcTvalTj : Fld := ⟨0x907C, 11, 0, 0, false⟩
/-- PWC_TVAL.FAILED. -/
def pwcTvalFailed : Fld := ⟨0x907C, 12, 12, 0, false⟩
-- page mge
/-- MGE_LINK_CTRL.MAX_SPEED. -/
def mgeLinkCtrlMaxSpeed : Fld := ⟨0x104040, 2, 0, 5, true⟩
/-- MGE_LINK_CTRL.MAX_WIDTH. -/
def mgeLinkCtrlMaxWidth : Fld := ⟨0x104040, 7, 4, 4, true⟩
/-- MGE_LINK_CTRL.ASPM_L1_OK. -/
def mgeLinkCtrlAspmL1Ok : Fld := ⟨0x104040, 9, 9, 1, false⟩
/-- MGE_LINK_CTRL.RETRAIN. -/
def mgeLinkCtrlRetrain : Fld := ⟨0x104040, 10, 10, 0, false⟩
/-- MGE_LINK_STAT.SPEED. -/
def mgeLinkStatSpeed : Fld := ⟨0x104044, 2, 0, 0, false⟩
/-- MGE_LINK_STAT.WIDTH. -/
def mgeLinkStatWidth : Fld := ⟨0x104044, 7, 4, 0, false⟩
/-- MGE_LINK_STAT.UP. -/
def mgeLinkStatUp : Fld := ⟨0x104044, 8, 8, 0, false⟩
/-- MGE_LINK_STAT.L1. -/
def mgeLinkStatL1 : Fld := ⟨0x104044, 10, 10, 0, false⟩
/-- MGE_LINK_STAT.PERST_IN. -/
def mgeLinkStatPerstIn : Fld := ⟨0x104044, 11, 11, 0, false⟩
/-- MGE_LINK_STAT.LTSSM. -/
def mgeLinkStatLtssm : Fld := ⟨0x104044, 21, 16, 0, false⟩
/-- MGE_LINK_STAT.DOWNS. -/
def mgeLinkStatDowns : Fld := ⟨0x104044, 31, 24, 0, false⟩
/-- MQ_SQ_BASE_LO.ADDR. -/
def mqSqBaseLoAddr (k : Nat) : Fld := ⟨0x104100 + 32 * k, 31, 0, 0, false⟩
/-- MQ_SQ_BASE_HI.ADDR. -/
def mqSqBaseHiAddr (k : Nat) : Fld := ⟨0x104104 + 32 * k, 31, 0, 0, false⟩
/-- MQ_CQ_BASE_LO.ADDR. -/
def mqCqBaseLoAddr (k : Nat) : Fld := ⟨0x104108 + 32 * k, 31, 0, 0, false⟩
/-- MQ_CQ_BASE_HI.ADDR. -/
def mqCqBaseHiAddr (k : Nat) : Fld := ⟨0x10410C + 32 * k, 31, 0, 0, false⟩
/-- MQ_CFG.SQ_SIZE. -/
def mqCfgSqSize (k : Nat) : Fld := ⟨0x104110 + 32 * k, 11, 0, 0, false⟩
/-- MQ_CFG.CQ_SIZE. -/
def mqCfgCqSize (k : Nat) : Fld := ⟨0x104110 + 32 * k, 23, 12, 0, false⟩
/-- MQ_CFG.VECTOR. -/
def mqCfgVector (k : Nat) : Fld := ⟨0x104110 + 32 * k, 28, 24, 0, false⟩
/-- MQ_CFG.CQ_EN. -/
def mqCfgCqEn (k : Nat) : Fld := ⟨0x104110 + 32 * k, 30, 30, 0, false⟩
/-- MQ_CFG.SQ_EN. -/
def mqCfgSqEn (k : Nat) : Fld := ⟨0x104110 + 32 * k, 31, 31, 0, false⟩
/-- MQ_SQ_TAIL.TAIL. -/
def mqSqTailTail (k : Nat) : Fld := ⟨0x104114 + 32 * k, 11, 0, 0, false⟩
/-- MQ_CQ_HEAD.HEAD. -/
def mqCqHeadHead (k : Nat) : Fld := ⟨0x104118 + 32 * k, 11, 0, 0, false⟩
/-- MQ_STAT.SQ_HEAD. -/
def mqStatSqHead (k : Nat) : Fld := ⟨0x10411C + 32 * k, 11, 0, 0, false⟩
/-- MQ_STAT.IDLE. -/
def mqStatIdle (k : Nat) : Fld := ⟨0x10411C + 32 * k, 16, 16, 1, false⟩
/-- MQ_STAT.ERR. -/
def mqStatErr (k : Nat) : Fld := ⟨0x10411C + 32 * k, 17, 17, 0, false⟩
/-- MQ_STAT.DB_ERR. -/
def mqStatDbErr (k : Nat) : Fld := ⟨0x10411C + 32 * k, 18, 18, 0, false⟩

end F

/-- The fields of page hpe. -/
def rowsHpe : List RegRow := [
  ⟨0x40, 1, 4, 2, 0, .rw, 6, true⟩,
  ⟨0x40, 1, 4, 7, 4, .rw, 8, true⟩,
  ⟨0x40, 1, 4, 8, 8, .rw, 1, false⟩,
  ⟨0x40, 1, 4, 9, 9, .rw, 1, false⟩,
  ⟨0x40, 1, 4, 10, 10, .wo, 0, false⟩,
  ⟨0x40, 1, 4, 11, 11, .rw, 0, false⟩,
  ⟨0x40, 1, 4, 12, 12, .rw, 0, true⟩,
  ⟨0x44, 1, 4, 2, 0, .ro, 0, false⟩,
  ⟨0x44, 1, 4, 3, 3, .ro, 0, false⟩,
  ⟨0x44, 1, 4, 7, 4, .ro, 0, false⟩,
  ⟨0x44, 1, 4, 8, 8, .ro, 0, false⟩,
  ⟨0x44, 1, 4, 9, 9, .ro, 0, false⟩,
  ⟨0x44, 1, 4, 10, 10, .ro, 0, false⟩,
  ⟨0x44, 1, 4, 11, 11, .ro, 0, false⟩,
  ⟨0x44, 1, 4, 21, 16, .ro, 0, false⟩,
  ⟨0x44, 1, 4, 31, 24, .ro, 0, false⟩,
  ⟨0x4C, 1, 4, 8, 0, .rw, 256, true⟩,
  ⟨0x4C, 1, 4, 24, 16, .ro, 0, false⟩,
  ⟨0x4C, 1, 4, 31, 31, .ro, 0, false⟩,
  ⟨0x50, 1, 4, 10, 0, .rw, 64, true⟩,
  ⟨0x400, 256, 4, 6, 0, .rw, 4, true⟩,
  ⟨0x400, 256, 4, 7, 7, .rw, 0, false⟩]

/-- The fields of page fab. -/
def rowsFab : List RegRow := [
  ⟨0x40, 1, 4, 1, 0, .rw, 0, true⟩,
  ⟨0x40, 1, 4, 2, 2, .rw, 0, false⟩,
  ⟨0x40, 1, 4, 3, 3, .wo, 0, false⟩,
  ⟨0x40, 1, 4, 29, 16, .rw, 9216, true⟩,
  ⟨0x44, 1, 4, 0, 0, .ro, 0, false⟩,
  ⟨0x44, 1, 4, 1, 1, .ro, 0, false⟩,
  ⟨0x44, 1, 4, 3, 2, .ro, 0, false⟩,
  ⟨0x44, 1, 4, 15, 8, .ro, 0, false⟩,
  ⟨0x48, 1, 4, 31, 0, .rw, 0, true⟩,
  ⟨0x4C, 1, 4, 15, 0, .rw, 0, true⟩,
  ⟨0x50, 1, 4, 11, 0, .rw, 0, true⟩,
  ⟨0x50, 1, 4, 12, 12, .rw, 0, true⟩,
  ⟨0x50, 1, 4, 15, 13, .rw, 0, true⟩,
  ⟨0x50, 1, 4, 18, 16, .rw, 0, true⟩,
  ⟨0x50, 1, 4, 21, 19, .rw, 0, true⟩,
  ⟨0x50, 1, 4, 22, 22, .rw, 0, true⟩,
  ⟨0x54, 1, 4, 5, 0, .rw, 0, true⟩,
  ⟨0x54, 1, 4, 13, 8, .rw, 0, true⟩,
  ⟨0x54, 1, 4, 21, 16, .rw, 0, true⟩,
  ⟨0x54, 1, 4, 29, 24, .rw, 0, true⟩,
  ⟨0x58, 1, 4, 31, 0, .rw, 0, true⟩,
  ⟨0x5C, 1, 4, 5, 0, .rw, 0, true⟩,
  ⟨0x5C, 1, 4, 6, 6, .rw, 0, false⟩,
  ⟨0x60, 1, 4, 31, 0, .rw, 0, true⟩,
  ⟨0x70, 4, 4, 31, 0, .rw, 0, true⟩,
  ⟨0x80, 1, 4, 7, 0, .rw, 0, true⟩,
  ⟨0x80, 1, 4, 8, 8, .rw, 0, false⟩,
  ⟨0x90, 4, 4, 31, 0, .rw, 0, true⟩,
  ⟨0xA0, 1, 4, 0, 0, .rw, 0, false⟩,
  ⟨0xA0, 1, 4, 2, 1, .rw, 0, true⟩,
  ⟨0xA0, 1, 4, 3, 3, .rw, 0, true⟩,
  ⟨0xA0, 1, 4, 11, 4, .rw, 0, true⟩,
  ⟨0xA0, 1, 4, 15, 12, .rw, 0, false⟩,
  ⟨0xA4, 1, 4, 31, 0, .rw, 0, false⟩,
  ⟨0xA8, 1, 4, 0, 0, .ro, 0, false⟩,
  ⟨0xA8, 1, 4, 1, 1, .ro, 0, false⟩,
  ⟨0xA8, 1, 4, 31, 16, .ro, 0, false⟩]

/-- The fields of page toe0. -/
def rowsToe0 : List RegRow := [
  ⟨0x40, 1, 4, 0, 0, .rw, 0, false⟩,
  ⟨0x40, 1, 4, 1, 1, .rw, 0, false⟩,
  ⟨0x40, 1, 4, 2, 2, .rw, 1, false⟩,
  ⟨0x40, 1, 4, 3, 3, .rw, 1, false⟩,
  ⟨0x40, 1, 4, 4, 4, .rw, 0, false⟩,
  ⟨0x44, 1, 4, 15, 0, .rw, 4420, true⟩,
  ⟨0x44, 1, 4, 31, 16, .rw, 8009, true⟩,
  ⟨0x48, 1, 4, 16, 0, .rw, 16384, true⟩,
  ⟨0x4C, 1, 4, 16, 0, .ro, 0, false⟩,
  ⟨0x50, 1, 4, 16, 0, .ro, 0, false⟩,
  ⟨0x54, 1, 4, 12, 0, .ro, 0, false⟩,
  ⟨0x58, 1, 4, 3, 0, .rw, 8, false⟩,
  ⟨0x58, 1, 4, 11, 4, .rw, 10, false⟩,
  ⟨0x58, 1, 4, 12, 12, .rw, 1, false⟩,
  ⟨0x5C, 1, 4, 0, 0, .rw, 1, false⟩,
  ⟨0x5C, 1, 4, 15, 8, .rw, 50, false⟩,
  ⟨0x60, 1, 4, 6, 0, .rw, 20, false⟩,
  ⟨0x60, 1, 4, 14, 8, .rw, 5, false⟩]

/-- The fields of page hqe0. -/
def rowsHqe0 : List RegRow := [
  ⟨0x40, 1, 4, 0, 0, .rw, 0, false⟩,
  ⟨0x40, 1, 4, 1, 1, .rw, 0, false⟩,
  ⟨0x44, 1, 4, 20, 0, .ro, 0, false⟩,
  ⟨0x48, 1, 4, 16, 0, .ro, 0, false⟩,
  ⟨0x50, 1, 4, 31, 0, .rws, 0, false⟩,
  ⟨0x54, 1, 4, 31, 0, .rws, 0, false⟩,
  ⟨0x58, 1, 4, 1, 0, .ro, 0, false⟩,
  ⟨0x58, 1, 4, 2, 2, .ro, 0, false⟩,
  ⟨0x58, 1, 4, 3, 3, .ro, 0, false⟩]

/-- The fields of page hqe1. -/
def rowsHqe1 : List RegRow := [
  ⟨0x40, 1, 4, 11, 0, .rw, 0, false⟩,
  ⟨0x44, 1, 4, 15, 0, .rw, 0, true⟩,
  ⟨0x44, 1, 4, 31, 16, .rw, 0, true⟩,
  ⟨0x48, 1, 4, 7, 0, .rw, 16, true⟩,
  ⟨0x48, 1, 4, 15, 8, .rw, 10, true⟩,
  ⟨0x4C, 1, 4, 0, 0, .ro, 0, false⟩,
  ⟨0x4C, 1, 4, 31, 16, .ro, 0, false⟩]

/-- The fields of page hqe2. -/
def rowsHqe2 : List RegRow := [
  ⟨0x40, 1, 4, 8, 0, .rw, 0, false⟩,
  ⟨0x40, 1, 4, 10, 9, .rw, 0, false⟩,
  ⟨0x44, 1, 4, 11, 0, .rw, 0, true⟩]

/-- The fields of page hqe3. -/
def rowsHqe3 : List RegRow := [
  ⟨0x40, 1, 4, 15, 0, .rw, 0, false⟩,
  ⟨0x44, 1, 4, 0, 0, .ro, 0, false⟩,
  ⟨0x44, 1, 4, 1, 1, .ro, 0, false⟩,
  ⟨0x44, 1, 4, 2, 2, .ro, 0, false⟩,
  ⟨0x44, 1, 4, 3, 3, .ro, 0, false⟩,
  ⟨0x44, 1, 4, 4, 4, .ro, 0, false⟩,
  ⟨0x44, 1, 4, 26, 16, .ro, 0, false⟩,
  ⟨0x48, 1, 4, 7, 0, .ro, 0, false⟩,
  ⟨0x4C, 1, 4, 31, 0, .ro, 0, false⟩,
  ⟨0x50, 1, 4, 31, 0, .ro, 0, false⟩]

/-- The fields of page dge0. -/
def rowsDge0 : List RegRow := [
  ⟨0x40, 1, 4, 0, 0, .rw, 0, false⟩,
  ⟨0x40, 1, 4, 1, 1, .rw, 0, false⟩,
  ⟨0x44, 1, 4, 15, 0, .rw, 65535, false⟩,
  ⟨0x48, 1, 4, 15, 0, .ro, 0, false⟩,
  ⟨0x4C, 1, 4, 3, 0, .rw, 2, true⟩,
  ⟨0x4C, 1, 4, 7, 4, .rw, 4, true⟩,
  ⟨0x4C, 1, 4, 15, 8, .rw, 10, true⟩,
  ⟨0x50, 1, 4, 5, 0, .ro, 0, false⟩,
  ⟨0x50, 1, 4, 13, 8, .ro, 0, false⟩,
  ⟨0x50, 1, 4, 25, 16, .ro, 0, false⟩,
  ⟨0x54, 1, 4, 14, 0, .ro, 0, false⟩,
  ⟨0x54, 1, 4, 22, 16, .ro, 0, false⟩]

/-- The fields of page dge1. -/
def rowsDge1 : List RegRow := [
  ⟨0x40, 3, 4, 9, 0, .ro, 0, false⟩,
  ⟨0x40, 3, 4, 25, 16, .ro, 0, false⟩,
  ⟨0x50, 1, 4, 5, 0, .rw, 0, false⟩,
  ⟨0x54, 1, 4, 1, 0, .ro, 0, false⟩,
  ⟨0x54, 1, 4, 3, 2, .ro, 0, false⟩,
  ⟨0x54, 1, 4, 8, 4, .ro, 0, false⟩,
  ⟨0x54, 1, 4, 23, 16, .ro, 0, false⟩,
  ⟨0x54, 1, 4, 25, 24, .ro, 0, false⟩,
  ⟨0x58, 1, 4, 31, 0, .ro, 0, false⟩,
  ⟨0x5C, 1, 4, 31, 0, .ro, 0, false⟩]

/-- The fields of page fiu0. -/
def rowsFiu0 : List RegRow := [
  ⟨0x40, 1, 4, 0, 0, .rw, 0, false⟩,
  ⟨0x40, 1, 4, 1, 1, .rw, 0, false⟩,
  ⟨0x40, 1, 4, 2, 2, .rw, 0, false⟩,
  ⟨0x44, 1, 4, 0, 0, .rw, 0, true⟩,
  ⟨0x48, 1, 4, 15, 0, .rw, 65535, false⟩,
  ⟨0x4C, 1, 4, 15, 0, .ro, 0, false⟩,
  ⟨0x4C, 1, 4, 31, 16, .ro, 0, false⟩,
  ⟨0x50, 1, 4, 11, 0, .rw, 60, false⟩,
  ⟨0x50, 1, 4, 15, 12, .rw, 4, false⟩,
  ⟨0x50, 1, 4, 16, 16, .rw, 1, false⟩,
  ⟨0x54, 1, 4, 15, 0, .ro, 0, false⟩,
  ⟨0x54, 1, 4, 31, 16, .ro, 0, false⟩,
  ⟨0x58, 1, 4, 22, 0, .ro, 0, false⟩]

/-- The fields of page fiu1. -/
def rowsFiu1 : List RegRow := [
  ⟨0x40, 1, 4, 31, 0, .rw, 0, true⟩,
  ⟨0x44, 1, 4, 31, 0, .rw, 0, true⟩,
  ⟨0x48, 1, 4, 4, 0, .rw, 24, true⟩,
  ⟨0x4C, 1, 4, 30, 0, .ro, 0, false⟩,
  ⟨0x50, 1, 4, 30, 0, .ro, 0, false⟩,
  ⟨0x54, 1, 4, 0, 0, .ro, 0, false⟩]

/-- The fields of page fiu2. -/
def rowsFiu2 : List RegRow := [
  ⟨0x40, 1, 4, 13, 0, .rw, 0, false⟩,
  ⟨0x44, 1, 4, 0, 0, .rw, 1, true⟩,
  ⟨0x44, 1, 4, 1, 1, .ro, 0, false⟩,
  ⟨0x48, 1, 4, 31, 0, .ro, 0, false⟩]

/-- The fields of page fiu3. -/
def rowsFiu3 : List RegRow := [
  ⟨0x40, 1, 4, 14, 0, .rw, 0, false⟩,
  ⟨0x40, 1, 4, 22, 16, .rw, 0, false⟩,
  ⟨0x44, 3, 4, 31, 0, .ro, 0, false⟩]

/-- The fields of page cmp0. -/
def rowsCmp0 : List RegRow := [
  ⟨0x40, 1, 4, 0, 0, .rw, 0, false⟩,
  ⟨0x40, 1, 4, 1, 1, .rw, 0, false⟩,
  ⟨0x44, 1, 4, 23, 0, .rw, 16777215, false⟩,
  ⟨0x48, 1, 4, 31, 0, .rw, 4294967295, false⟩,
  ⟨0x4C, 1, 4, 23, 0, .ro, 0, false⟩,
  ⟨0x50, 1, 4, 31, 0, .ro, 0, false⟩,
  ⟨0x54, 1, 4, 4, 0, .rw, 8, true⟩,
  ⟨0x58, 1, 4, 3, 0, .rw, 4, true⟩]

/-- The fields of page cmp1. -/
def rowsCmp1 : List RegRow := [
  ⟨0x40, 1, 4, 31, 0, .ro, 0, false⟩,
  ⟨0x44, 1, 4, 31, 0, .ro, 0, false⟩,
  ⟨0x48, 1, 4, 31, 0, .ro, 0, false⟩,
  ⟨0x4C, 1, 4, 31, 0, .ro, 0, false⟩]

/-- The fields of page cmp2. -/
def rowsCmp2 : List RegRow := [
  ⟨0x40, 1, 4, 4, 0, .rw, 0, false⟩,
  ⟨0x40, 1, 4, 5, 5, .rw, 0, false⟩,
  ⟨0x44, 1, 4, 3, 0, .ro, 0, false⟩,
  ⟨0x44, 1, 4, 7, 4, .ro, 0, false⟩]

/-- The fields of page cmp3. -/
def rowsCmp3 : List RegRow := [
  ⟨0x40, 1, 4, 7, 0, .ro, 0, false⟩,
  ⟨0x40, 1, 4, 15, 8, .ro, 0, false⟩,
  ⟨0x40, 1, 4, 31, 16, .ro, 0, false⟩]

/-- The fields of page cry0. -/
def rowsCry0 : List RegRow := [
  ⟨0x40, 1, 4, 0, 0, .rw, 0, false⟩,
  ⟨0x44, 1, 4, 15, 0, .rw, 65535, false⟩,
  ⟨0x48, 1, 4, 15, 0, .ro, 0, false⟩,
  ⟨0x4C, 1, 4, 14, 0, .ro, 0, false⟩,
  ⟨0x4C, 1, 4, 30, 16, .ro, 0, false⟩,
  ⟨0x50, 1, 4, 15, 0, .ro, 0, false⟩,
  ⟨0x50, 1, 4, 16, 16, .ro, 0, false⟩]

/-- The fields of page cry1. -/
def rowsCry1 : List RegRow := [
  ⟨0x40, 1, 4, 13, 0, .rw, 0, false⟩,
  ⟨0x40, 1, 4, 15, 14, .rw, 0, false⟩,
  ⟨0x44, 1, 4, 1, 0, .ro, 0, false⟩,
  ⟨0x44, 1, 4, 31, 16, .ro, 0, false⟩,
  ⟨0x48, 1, 4, 31, 0, .ro, 0, false⟩,
  ⟨0x4C, 1, 4, 31, 0, .ro, 0, false⟩,
  ⟨0x50, 1, 4, 15, 0, .ro, 0, false⟩]

/-- The fields of page ftu0. -/
def rowsFtu0 : List RegRow := [
  ⟨0x40, 1, 4, 0, 0, .rw, 0, false⟩,
  ⟨0x40, 1, 4, 1, 1, .rw, 0, false⟩,
  ⟨0x40, 1, 4, 2, 2, .rw, 1, false⟩,
  ⟨0x40, 1, 4, 3, 3, .rw, 0, false⟩,
  ⟨0x40, 1, 4, 4, 4, .rw, 1, false⟩,
  ⟨0x44, 1, 4, 7, 0, .rw, 2, true⟩,
  ⟨0x44, 1, 4, 15, 8, .rw, 4, true⟩,
  ⟨0x44, 1, 4, 23, 16, .rw, 12, true⟩,
  ⟨0x44, 1, 4, 31, 24, .rw, 18, true⟩,
  ⟨0x48, 1, 4, 9, 0, .ro, 0, false⟩,
  ⟨0x48, 1, 4, 16, 16, .ro, 0, false⟩,
  ⟨0x48, 1, 4, 17, 17, .ro, 0, false⟩,
  ⟨0x48, 1, 4, 18, 18, .ro, 0, false⟩,
  ⟨0x4C, 1, 4, 11, 0, .rw, 0, true⟩,
  ⟨0x50, 1, 4, 15, 0, .rw, 0, true⟩,
  ⟨0x54, 1, 4, 21, 0, .ro, 0, false⟩]

/-- The fields of page ftu1. -/
def rowsFtu1 : List RegRow := [
  ⟨0x40, 1, 4, 6, 0, .rw, 50, true⟩,
  ⟨0x40, 1, 4, 11, 8, .rw, 4, true⟩,
  ⟨0x44, 1, 4, 15, 0, .rw, 1000, true⟩,
  ⟨0x48, 1, 4, 31, 0, .ro, 0, false⟩,
  ⟨0x4C, 1, 4, 31, 0, .ro, 0, false⟩,
  ⟨0x50, 1, 4, 31, 0, .ro, 0, false⟩,
  ⟨0x54, 1, 4, 31, 0, .ro, 0, false⟩,
  ⟨0x58, 1, 4, 17, 0, .ro, 0, false⟩,
  ⟨0x5C, 1, 4, 31, 0, .ro, 0, false⟩,
  ⟨0x60, 1, 4, 31, 0, .ro, 0, false⟩,
  ⟨0x64, 1, 4, 27, 0, .ro, 0, false⟩,
  ⟨0x68, 1, 4, 2, 0, .rw, 0, true⟩]

/-- The fields of page ftu2. -/
def rowsFtu2 : List RegRow := [
  ⟨0x40, 1, 4, 23, 0, .rw, 0, false⟩,
  ⟨0x44, 1, 4, 2, 0, .ro, 0, false⟩,
  ⟨0x44, 1, 4, 7, 3, .ro, 0, false⟩,
  ⟨0x44, 1, 4, 15, 8, .ro, 0, false⟩,
  ⟨0x44, 1, 4, 17, 16, .ro, 0, false⟩,
  ⟨0x44, 1, 4, 23, 20, .ro, 0, false⟩,
  ⟨0x44, 1, 4, 26, 24, .ro, 0, false⟩,
  ⟨0x48, 1, 4, 31, 0, .ro, 0, false⟩,
  ⟨0x4C, 1, 4, 31, 0, .ro, 0, false⟩,
  ⟨0x50, 1, 4, 15, 0, .ro, 0, false⟩,
  ⟨0x54, 1, 4, 31, 0, .ro, 0, false⟩,
  ⟨0x58, 1, 4, 23, 0, .ro, 0, false⟩,
  ⟨0x5C, 1, 4, 12, 0, .ro, 0, false⟩]

/-- The fields of page ftu3. -/
def rowsFtu3 : List RegRow := [
  ⟨0x40, 1, 4, 4, 0, .rw, 0, false⟩,
  ⟨0x44, 1, 4, 31, 0, .ro, 0, false⟩,
  ⟨0x48, 1, 4, 31, 0, .ro, 0, false⟩,
  ⟨0x4C, 1, 4, 31, 0, .ro, 0, false⟩,
  ⟨0x50, 1, 4, 31, 0, .ro, 0, false⟩,
  ⟨0x54, 1, 4, 31, 0, .ro, 0, false⟩,
  ⟨0x58, 1, 4, 15, 0, .ro, 0, false⟩]

/-- The fields of page mca. -/
def rowsMca : List RegRow := [
  ⟨0x40, 1, 4, 0, 0, .rw, 0, false⟩,
  ⟨0x44, 1, 4, 0, 0, .rw, 1, true⟩,
  ⟨0x44, 1, 4, 1, 1, .rw, 1, true⟩,
  ⟨0x44, 1, 4, 15, 8, .rw, 2, true⟩,
  ⟨0x48, 1, 4, 0, 0, .ro, 1, false⟩,
  ⟨0x48, 1, 4, 3, 1, .rw, 7, false⟩,
  ⟨0x4C, 1, 4, 3, 0, .ro, 0, false⟩,
  ⟨0x4C, 1, 4, 7, 4, .ro, 0, false⟩,
  ⟨0x50, 1, 4, 19, 0, .ro, 0, false⟩,
  ⟨0x54, 1, 4, 31, 0, .ro, 0, false⟩,
  ⟨0x58, 1, 4, 31, 0, .ro, 0, false⟩]

/-- The fields of page par. -/
def rowsPar : List RegRow := [
  ⟨0x40, 1, 4, 0, 0, .rw, 0, false⟩,
  ⟨0x40, 1, 4, 1, 1, .rw, 0, false⟩,
  ⟨0x40, 1, 4, 2, 2, .rw, 0, false⟩,
  ⟨0x44, 1, 4, 2, 0, .rw, 0, false⟩,
  ⟨0x48, 1, 4, 1, 0, .rw, 1, true⟩,
  ⟨0x48, 1, 4, 12, 8, .rw, 8, true⟩,
  ⟨0x48, 1, 4, 16, 16, .rw, 0, true⟩,
  ⟨0x4C, 1, 4, 16, 0, .rw, 1500, true⟩,
  ⟨0x50, 1, 4, 5, 0, .rw, 40, true⟩,
  ⟨0x50, 1, 4, 15, 8, .rw, 0, true⟩,
  ⟨0x54, 1, 4, 13, 0, .rw, 168, true⟩,
  ⟨0x58, 1, 4, 7, 0, .ro, 0, false⟩,
  ⟨0x58, 1, 4, 31, 16, .ro, 0, false⟩,
  ⟨0x5C, 1, 4, 0, 0, .ro, 0, false⟩,
  ⟨0x5C, 1, 4, 12, 8, .ro, 0, false⟩,
  ⟨0x5C, 1, 4, 31, 16, .ro, 0, false⟩,
  ⟨0x60, 1, 4, 4, 0, .rw, 0, false⟩,
  ⟨0x64, 1, 4, 2, 0, .ro, 0, false⟩,
  ⟨0x64, 1, 4, 9, 8, .ro, 0, false⟩,
  ⟨0x64, 1, 4, 31, 16, .ro, 0, false⟩,
  ⟨0x68, 1, 4, 1, 0, .wo, 0, false⟩,
  ⟨0x6C, 1, 4, 7, 0, .rw, 10, false⟩,
  ⟨0x70, 1, 4, 14, 0, .ro, 0, false⟩,
  ⟨0x70, 1, 4, 15, 15, .ro, 0, false⟩,
  ⟨0x70, 1, 4, 31, 16, .ro, 0, false⟩,
  ⟨0x74, 1, 4, 13, 0, .rw, 0, false⟩,
  ⟨0x78, 1, 4, 14, 0, .wo, 0, false⟩,
  ⟨0x80, 8, 4, 31, 0, .ro, 0, false⟩]

/-- The fields of page ldc0. -/
def rowsLdc0 : List RegRow := [
  ⟨0x40, 1, 4, 0, 0, .rw, 0, false⟩,
  ⟨0x40, 1, 4, 1, 1, .rw, 0, false⟩,
  ⟨0x44, 1, 4, 31, 0, .rw, 4294967295, false⟩,
  ⟨0x48, 1, 4, 31, 0, .ro, 0, false⟩,
  ⟨0x4C, 1, 4, 7, 0, .ro, 0, false⟩,
  ⟨0x50, 1, 4, 3, 0, .rw, 0, true⟩,
  ⟨0x50, 1, 4, 4, 4, .rw, 1, true⟩,
  ⟨0x50, 1, 4, 5, 5, .rw, 1, true⟩]

/-- The fields of page ldc1. -/
def rowsLdc1 : List RegRow := [
  ⟨0x40, 1, 4, 4, 0, .rw, 0, false⟩,
  ⟨0x44, 1, 4, 3, 0, .ro, 0, false⟩,
  ⟨0x44, 1, 4, 7, 4, .ro, 0, false⟩]

/-- The fields of page vlt. -/
def rowsVlt : List RegRow := [
  ⟨0x40, 1, 4, 11, 0, .rw, 3600, true⟩,
  ⟨0x44, 1, 4, 0, 0, .ro, 0, false⟩,
  ⟨0x44, 1, 4, 1, 1, .ro, 0, false⟩,
  ⟨0x44, 1, 4, 2, 2, .ro, 0, false⟩,
  ⟨0x44, 1, 4, 3, 3, .ro, 0, false⟩,
  ⟨0x44, 1, 4, 7, 4, .ro, 0, false⟩,
  ⟨0x48, 1, 4, 15, 0, .ro, 0, false⟩,
  ⟨0x4C, 1, 4, 15, 0, .ro, 0, false⟩]

/-- The fields of page mpt. -/
def rowsMpt : List RegRow := [
  ⟨0x40, 1, 4, 2, 0, .rw, 6, true⟩,
  ⟨0x40, 1, 4, 4, 4, .rw, 1, false⟩,
  ⟨0x40, 1, 4, 5, 5, .wo, 0, false⟩,
  ⟨0x44, 1, 4, 2, 0, .ro, 0, false⟩,
  ⟨0x44, 1, 4, 3, 3, .ro, 0, false⟩,
  ⟨0x44, 1, 4, 7, 4, .ro, 0, false⟩,
  ⟨0x44, 1, 4, 8, 8, .ro, 0, false⟩,
  ⟨0x44, 1, 4, 23, 16, .ro, 0, false⟩,
  ⟨0x48, 1, 4, 0, 0, .ro, 0, false⟩,
  ⟨0x48, 1, 4, 1, 1, .ro, 0, false⟩,
  ⟨0x48, 1, 4, 2, 2, .ro, 0, false⟩,
  ⟨0x48, 1, 4, 7, 3, .ro, 0, false⟩,
  ⟨0x4C, 1, 4, 30, 0, .ro, 0, false⟩,
  ⟨0x4C, 1, 4, 31, 31, .ro, 0, false⟩,
  ⟨0x50, 1, 4, 1, 0, .ro, 0, false⟩,
  ⟨0x50, 1, 4, 31, 16, .ro, 0, false⟩,
  ⟨0x54, 1, 4, 11, 0, .ro, 0, false⟩,
  ⟨0x58, 1, 4, 9, 0, .rw, 0, false⟩,
  ⟨0x5C, 1, 4, 31, 0, .ro, 0, false⟩]

/-- The fields of page tl. -/
def rowsTl : List RegRow := [
  ⟨0x40, 1, 4, 2, 0, .rw, 6, true⟩,
  ⟨0x40, 1, 4, 8, 4, .rw, 16, true⟩,
  ⟨0x40, 1, 4, 9, 9, .wo, 0, false⟩,
  ⟨0x40, 1, 4, 10, 10, .rw, 0, false⟩,
  ⟨0x44, 1, 4, 2, 0, .ro, 0, false⟩,
  ⟨0x44, 1, 4, 3, 3, .ro, 0, false⟩,
  ⟨0x44, 1, 4, 8, 4, .ro, 0, false⟩,
  ⟨0x44, 1, 4, 9, 9, .ro, 0, false⟩,
  ⟨0x44, 1, 4, 31, 24, .ro, 0, false⟩,
  ⟨0x48, 1, 4, 2, 0, .rw, 0, false⟩,
  ⟨0x4C, 1, 4, 31, 0, .rw, 0, false⟩,
  ⟨0x50, 1, 4, 31, 0, .rw, 0, false⟩,
  ⟨0x54, 1, 4, 23, 0, .rw, 0, false⟩,
  ⟨0x58, 1, 4, 31, 0, .ro, 0, false⟩,
  ⟨0x5C, 1, 4, 31, 0, .ro, 0, false⟩,
  ⟨0x60, 1, 4, 23, 0, .ro, 0, false⟩,
  ⟨0x64, 1, 4, 0, 0, .w1s, 0, false⟩,
  ⟨0x64, 1, 4, 31, 16, .ro, 0, false⟩,
  ⟨0x68, 1, 4, 31, 0, .ro, 0, false⟩]

/-- The fields of page mir. -/
def rowsMir : List RegRow := [
  ⟨0x40, 1, 4, 0, 0, .rw, 0, false⟩,
  ⟨0x40, 1, 4, 1, 1, .rw, 0, false⟩,
  ⟨0x40, 1, 4, 2, 2, .rw, 0, false⟩,
  ⟨0x44, 1, 4, 1, 0, .ro, 0, false⟩,
  ⟨0x44, 1, 4, 5, 2, .ro, 15, false⟩,
  ⟨0x44, 1, 4, 6, 6, .ro, 0, false⟩,
  ⟨0x44, 1, 4, 7, 7, .ro, 0, false⟩,
  ⟨0x44, 1, 4, 8, 8, .ro, 0, false⟩,
  ⟨0x44, 1, 4, 9, 9, .ro, 0, false⟩,
  ⟨0x44, 1, 4, 10, 10, .ro, 0, false⟩,
  ⟨0x44, 1, 4, 11, 11, .ro, 0, false⟩,
  ⟨0x48, 1, 4, 15, 0, .ro, 0, false⟩,
  ⟨0x48, 1, 4, 31, 16, .ro, 0, false⟩,
  ⟨0x4C, 1, 4, 31, 0, .ro, 0, false⟩,
  ⟨0x50, 1, 4, 31, 0, .ro, 0, false⟩,
  ⟨0x54, 1, 4, 23, 0, .ro, 0, false⟩,
  ⟨0x58, 1, 4, 18, 0, .ro, 0, false⟩,
  ⟨0x5C, 1, 4, 31, 0, .ro, 0, false⟩,
  ⟨0x60, 1, 4, 31, 0, .ro, 0, false⟩,
  ⟨0x64, 1, 4, 7, 0, .ro, 0, false⟩,
  ⟨0x64, 1, 4, 15, 8, .ro, 0, false⟩,
  ⟨0x64, 1, 4, 23, 16, .ro, 0, false⟩,
  ⟨0x64, 1, 4, 31, 24, .ro, 0, false⟩,
  ⟨0x68, 1, 4, 3, 0, .ro, 0, false⟩]

/-- The fields of page ocu. -/
def rowsOcu : List RegRow := [
  ⟨0x40, 1, 4, 0, 0, .rw, 0, false⟩,
  ⟨0x44, 1, 4, 0, 0, .ro, 0, false⟩,
  ⟨0x44, 1, 4, 1, 1, .ro, 0, false⟩,
  ⟨0x44, 1, 4, 3, 2, .ro, 0, false⟩,
  ⟨0x48, 1, 4, 31, 0, .ro, 0, false⟩,
  ⟨0x4C, 1, 4, 31, 0, .ro, 0, false⟩,
  ⟨0x50, 1, 4, 31, 0, .ro, 0, false⟩,
  ⟨0x54, 1, 4, 31, 0, .ro, 0, false⟩,
  ⟨0x58, 1, 4, 15, 0, .ro, 0, false⟩,
  ⟨0x5C, 1, 4, 15, 0, .ro, 0, false⟩,
  ⟨0x5C, 1, 4, 31, 16, .ro, 0, false⟩]

/-- The fields of page hbu. -/
def rowsHbu : List RegRow := [
  ⟨0x40, 1, 4, 0, 0, .rw, 1, false⟩,
  ⟨0x44, 1, 4, 0, 0, .ro, 0, false⟩,
  ⟨0x44, 1, 4, 4, 1, .ro, 0, false⟩,
  ⟨0x44, 1, 4, 5, 5, .ro, 0, false⟩,
  ⟨0x44, 1, 4, 6, 6, .ro, 0, false⟩,
  ⟨0x44, 1, 4, 31, 16, .ro, 0, false⟩,
  ⟨0x48, 1, 4, 15, 0, .ro, 0, false⟩,
  ⟨0x48, 1, 4, 31, 16, .ro, 0, false⟩]

/-- The fields of page stg. -/
def rowsStg : List RegRow := [
  ⟨0x40, 1, 4, 31, 0, .ro, 0, false⟩,
  ⟨0x44, 1, 4, 31, 0, .ro, 0, false⟩,
  ⟨0x48, 1, 4, 13, 0, .rw, 100, true⟩,
  ⟨0x48, 1, 4, 22, 16, .rw, 50, true⟩,
  ⟨0x4C, 1, 4, 20, 0, .ro, 0, false⟩,
  ⟨0x4C, 1, 4, 21, 21, .ro, 0, false⟩,
  ⟨0x50, 1, 4, 20, 0, .ro, 0, false⟩,
  ⟨0x54, 1, 4, 13, 0, .ro, 8192, false⟩,
  ⟨0x54, 1, 4, 24, 16, .ro, 384, false⟩,
  ⟨0x58, 1, 4, 15, 0, .ro, 0, false⟩,
  ⟨0x58, 1, 4, 31, 16, .ro, 0, false⟩]

/-- The fields of page fco. -/
def rowsFco : List RegRow := [
  ⟨0x40, 1, 4, 31, 0, .w1c, 0, false⟩,
  ⟨0x44, 1, 4, 31, 0, .w1c, 0, false⟩,
  ⟨0x48, 1, 4, 0, 0, .ro, 0, false⟩,
  ⟨0x48, 1, 4, 5, 1, .ro, 0, false⟩,
  ⟨0x48, 1, 4, 10, 8, .ro, 0, false⟩,
  ⟨0x48, 1, 4, 31, 16, .ro, 1, false⟩,
  ⟨0x4C, 1, 4, 7, 0, .ro, 0, false⟩,
  ⟨0x4C, 1, 4, 13, 8, .ro, 0, false⟩,
  ⟨0x4C, 1, 4, 31, 16, .ro, 0, false⟩,
  ⟨0x50, 1, 4, 31, 0, .ro, 0, false⟩,
  ⟨0x54, 1, 4, 31, 0, .ro, 0, false⟩,
  ⟨0x58, 1, 4, 3, 0, .rw, 0, false⟩,
  ⟨0x5C, 1, 4, 15, 0, .ro, 0, false⟩,
  ⟨0x5C, 1, 4, 18, 16, .ro, 0, false⟩,
  ⟨0x5C, 1, 4, 24, 19, .ro, 0, false⟩,
  ⟨0x5C, 1, 4, 31, 26, .ro, 0, false⟩,
  ⟨0x60, 1, 4, 7, 0, .wo, 0, false⟩,
  ⟨0x60, 1, 4, 8, 8, .ro, 0, false⟩,
  ⟨0x60, 1, 4, 9, 9, .rw, 0, false⟩]

/-- The fields of page evr. -/
def rowsEvr : List RegRow := [
  ⟨0x40, 1, 4, 0, 0, .rw, 1, false⟩,
  ⟨0x44, 1, 4, 16, 0, .ro, 0, false⟩,
  ⟨0x44, 1, 4, 17, 17, .ro, 0, false⟩,
  ⟨0x48, 1, 4, 31, 0, .ro, 0, false⟩,
  ⟨0x4C, 1, 4, 31, 0, .ro, 0, false⟩,
  ⟨0x50, 1, 4, 31, 0, .ro, 0, false⟩,
  ⟨0x54, 1, 4, 31, 0, .ro, 0, false⟩,
  ⟨0x58, 1, 4, 15, 0, .rw, 1000, false⟩,
  ⟨0x58, 1, 4, 23, 16, .rw, 64, false⟩,
  ⟨0x5C, 1, 4, 31, 0, .rw, 0, false⟩,
  ⟨0x60, 8, 4, 31, 0, .ro, 0, false⟩,
  ⟨0x80, 1, 4, 31, 0, .wo, 0, false⟩]

/-- The fields of page eph0. -/
def rowsEph0 : List RegRow := [
  ⟨0x40, 1, 4, 0, 0, .rw, 0, false⟩,
  ⟨0x40, 1, 4, 1, 1, .rw, 0, false⟩,
  ⟨0x40, 1, 4, 3, 2, .rw, 0, true⟩,
  ⟨0x44, 1, 4, 2, 0, .ro, 0, false⟩,
  ⟨0x44, 1, 4, 3, 3, .ro, 0, false⟩,
  ⟨0x44, 1, 4, 4, 4, .ro, 0, false⟩,
  ⟨0x44, 1, 4, 5, 5, .ro, 0, false⟩,
  ⟨0x44, 1, 4, 11, 8, .ro, 15, false⟩,
  ⟨0x48, 1, 4, 31, 0, .ro, 0, false⟩,
  ⟨0x4C, 1, 4, 31, 0, .ro, 0, false⟩,
  ⟨0x50, 1, 4, 31, 0, .ro, 4294967295, false⟩,
  ⟨0x54, 1, 4, 31, 0, .ro, 0, false⟩,
  ⟨0x58, 1, 4, 31, 0, .ro, 0, false⟩,
  ⟨0x5C, 1, 4, 15, 0, .rw, 100, false⟩,
  ⟨0x60, 1, 4, 31, 0, .rw, 10000, true⟩,
  ⟨0x64, 1, 4, 19, 0, .rw, 2000, true⟩,
  ⟨0x68, 1, 4, 31, 0, .rw, 0, false⟩,
  ⟨0x6C, 1, 4, 31, 0, .rw, 0, false⟩,
  ⟨0x70, 1, 4, 0, 0, .wo, 0, false⟩,
  ⟨0x74, 1, 4, 9, 0, .rw, 100, false⟩,
  ⟨0x74, 1, 4, 31, 16, .rw, 0, false⟩,
  ⟨0x78, 1, 4, 31, 0, .ro, 0, false⟩,
  ⟨0x7C, 1, 4, 31, 0, .ro, 0, false⟩]

/-- The fields of page eph1. -/
def rowsEph1 : List RegRow := [
  ⟨0x40, 3, 16, 23, 0, .rw, 86400, true⟩,
  ⟨0x44, 3, 16, 23, 0, .rw, 7200, true⟩,
  ⟨0x48, 3, 16, 23, 0, .rw, 14400, true⟩,
  ⟨0x70, 1, 4, 2, 0, .ro, 0, false⟩,
  ⟨0x74, 1, 4, 12, 0, .ro, 0, false⟩,
  ⟨0x74, 1, 4, 28, 16, .ro, 0, false⟩,
  ⟨0x78, 1, 4, 11, 0, .rw, 0, false⟩,
  ⟨0x80, 8, 4, 31, 0, .ro, 0, false⟩,
  ⟨0xA0, 1, 4, 31, 0, .ro, 0, false⟩,
  ⟨0xA4, 1, 4, 31, 0, .ro, 0, false⟩,
  ⟨0xA8, 1, 4, 1, 0, .ro, 0, false⟩,
  ⟨0xA8, 1, 4, 31, 16, .ro, 0, false⟩,
  ⟨0xAC, 1, 4, 19, 0, .ro, 0, false⟩,
  ⟨0x100, 1, 4, 5, 0, .rw, 0, false⟩,
  ⟨0x104, 1, 4, 31, 0, .ro, 0, false⟩,
  ⟨0x108, 1, 4, 2, 0, .ro, 0, false⟩,
  ⟨0x108, 1, 4, 3, 3, .ro, 0, false⟩,
  ⟨0x108, 1, 4, 4, 4, .ro, 0, false⟩,
  ⟨0x108, 1, 4, 7, 5, .ro, 0, false⟩,
  ⟨0x108, 1, 4, 31, 16, .ro, 0, false⟩,
  ⟨0x10C, 1, 4, 31, 0, .ro, 0, false⟩,
  ⟨0x110, 1, 4, 31, 0, .ro, 0, false⟩,
  ⟨0x114, 1, 4, 31, 0, .ro, 0, false⟩,
  ⟨0x118, 1, 4, 31, 0, .ro, 0, false⟩,
  ⟨0x11C, 1, 4, 31, 0, .ro, 0, false⟩,
  ⟨0x120, 1, 4, 31, 0, .ro, 0, false⟩]

/-- The fields of page bld. -/
def rowsBld : List RegRow := [
  ⟨0x40, 1, 4, 4, 0, .ro, 0, false⟩,
  ⟨0x40, 1, 4, 5, 5, .ro, 0, false⟩,
  ⟨0x40, 1, 4, 7, 6, .ro, 0, false⟩,
  ⟨0x40, 1, 4, 9, 8, .ro, 0, false⟩,
  ⟨0x40, 1, 4, 10, 10, .ro, 0, false⟩,
  ⟨0x40, 1, 4, 23, 16, .ro, 0, false⟩,
  ⟨0x44, 1, 4, 15, 0, .ro, 0, false⟩,
  ⟨0x44, 1, 4, 31, 16, .ro, 0, false⟩,
  ⟨0x48, 1, 4, 7, 0, .ro, 0, false⟩,
  ⟨0x4C, 1, 4, 31, 0, .ro, 0, false⟩,
  ⟨0x50, 1, 4, 31, 0, .ro, 0, false⟩,
  ⟨0x54, 1, 4, 2, 0, .ro, 0, false⟩,
  ⟨0x54, 1, 4, 15, 8, .ro, 0, false⟩,
  ⟨0x58, 1, 4, 5, 0, .rw, 0, false⟩,
  ⟨0x5C, 1, 4, 31, 0, .ro, 0, false⟩,
  ⟨0x80, 1, 4, 2, 0, .ro, 0, false⟩,
  ⟨0x80, 1, 4, 4, 3, .ro, 0, false⟩,
  ⟨0x80, 1, 4, 7, 5, .ro, 0, false⟩,
  ⟨0x80, 1, 4, 8, 8, .ro, 0, false⟩,
  ⟨0x80, 1, 4, 25, 16, .ro, 0, false⟩,
  ⟨0x84, 1, 4, 0, 0, .ro, 0, false⟩,
  ⟨0x88, 1, 4, 15, 0, .wo, 0, false⟩,
  ⟨0x8C, 1, 4, 31, 0, .ro, 0, false⟩,
  ⟨0x90, 1, 4, 31, 0, .ro, 0, false⟩,
  ⟨0x94, 1, 4, 6, 0, .ro, 0, false⟩,
  ⟨0x94, 1, 4, 14, 8, .ro, 0, false⟩,
  ⟨0x98, 1, 4, 15, 0, .ro, 0, false⟩,
  ⟨0x98, 1, 4, 31, 16, .ro, 0, false⟩,
  ⟨0x9C, 1, 4, 31, 0, .ro, 0, false⟩,
  ⟨0xA0, 1, 4, 31, 0, .ro, 0, false⟩,
  ⟨0xA4, 1, 4, 15, 0, .ro, 0, false⟩,
  ⟨0xA4, 1, 4, 31, 16, .ro, 0, false⟩]

/-- The fields of page sec0. -/
def rowsSec0 : List RegRow := [
  ⟨0x40, 1, 4, 0, 0, .ro, 0, false⟩,
  ⟨0x40, 1, 4, 1, 1, .ro, 0, false⟩,
  ⟨0x40, 1, 4, 2, 2, .ro, 0, false⟩,
  ⟨0x40, 1, 4, 3, 3, .ro, 0, false⟩,
  ⟨0x40, 1, 4, 4, 4, .ro, 0, false⟩,
  ⟨0x44, 1, 4, 9, 0, .ro, 0, false⟩,
  ⟨0x48, 1, 4, 3, 0, .w1c, 0, false⟩,
  ⟨0x50, 4, 4, 15, 0, .ro, 0, false⟩,
  ⟨0x50, 4, 4, 31, 16, .ro, 0, false⟩,
  ⟨0x100, 96, 4, 31, 0, .ro, 0, false⟩,
  ⟨0x300, 1, 4, 8, 0, .rw, 0, false⟩,
  ⟨0x340, 16, 4, 31, 0, .ro, 0, false⟩]

/-- The fields of page sec1. -/
def rowsSec1 : List RegRow := [
  ⟨0x40, 1, 4, 0, 0, .wo, 0, false⟩,
  ⟨0x44, 1, 4, 0, 0, .ro, 0, false⟩,
  ⟨0x44, 1, 4, 2, 1, .ro, 0, false⟩,
  ⟨0x48, 1, 4, 31, 0, .ro, 0, false⟩,
  ⟨0x80, 8, 4, 31, 0, .rw, 0, false⟩,
  ⟨0x100, 24, 4, 31, 0, .ro, 0, false⟩,
  ⟨0x200, 110, 4, 31, 0, .ro, 0, false⟩,
  ⟨0x400, 1, 4, 1, 0, .rw, 0, false⟩,
  ⟨0x404, 1, 4, 11, 0, .ro, 0, false⟩,
  ⟨0x440, 25, 4, 31, 0, .ro, 0, false⟩,
  ⟨0x800, 512, 4, 31, 0, .ro, 0, false⟩]

/-- The fields of page pwc. -/
def rowsPwc : List RegRow := [
  ⟨0x40, 1, 4, 0, 0, .w1s, 0, false⟩,
  ⟨0x40, 1, 4, 1, 1, .rw, 1, false⟩,
  ⟨0x44, 1, 4, 1, 0, .ro, 0, false⟩,
  ⟨0x44, 1, 4, 2, 2, .ro, 0, false⟩,
  ⟨0x44, 1, 4, 3, 3, .ro, 0, false⟩,
  ⟨0x44, 1, 4, 4, 4, .ro, 0, false⟩,
  ⟨0x44, 1, 4, 5, 5, .ro, 0, false⟩,
  ⟨0x44, 1, 4, 11, 8, .ro, 0, false⟩,
  ⟨0x48, 1, 4, 1, 0, .rw, 0, true⟩,
  ⟨0x4C, 1, 4, 15, 0, .wo, 0, false⟩,
  ⟨0x50, 1, 4, 15, 0, .rw, 100, false⟩,
  ⟨0x54, 1, 4, 3, 0, .rw, 0, false⟩,
  ⟨0x58, 1, 4, 31, 0, .ro, 0, false⟩,
  ⟨0x5C, 1, 4, 4, 0, .ro, 0, false⟩,
  ⟨0x60, 1, 4, 6, 0, .ro, 0, false⟩,
  ⟨0x64, 1, 4, 0, 0, .ro, 0, false⟩,
  ⟨0x64, 1, 4, 1, 1, .ro, 0, false⟩,
  ⟨0x64, 1, 4, 10, 2, .ro, 0, false⟩,
  ⟨0x68, 1, 4, 15, 0, .ro, 0, false⟩,
  ⟨0x68, 1, 4, 31, 16, .ro, 0, false⟩,
  ⟨0x70, 1, 4, 11, 0, .ro, 0, false⟩,
  ⟨0x70, 1, 4, 15, 12, .ro, 0, false⟩,
  ⟨0x70, 1, 4, 17, 16, .ro, 0, false⟩,
  ⟨0x70, 1, 4, 22, 18, .ro, 16, false⟩,
  ⟨0x74, 1, 4, 15, 0, .ro, 0, false⟩,
  ⟨0x74, 1, 4, 27, 16, .ro, 0, false⟩,
  ⟨0x78, 1, 4, 3, 0, .rw, 0, false⟩,
  ⟨0x7C, 1, 4, 11, 0, .ro, 0, false⟩,
  ⟨0x7C, 1, 4, 12, 12, .ro, 0, false⟩]

/-- The fields of page mge. -/
def rowsMge : List RegRow := [
  ⟨0x40, 1, 4, 2, 0, .rw, 5, true⟩,
  ⟨0x40, 1, 4, 7, 4, .rw, 4, true⟩,
  ⟨0x40, 1, 4, 9, 9, .rw, 1, false⟩,
  ⟨0x40, 1, 4, 10, 10, .wo, 0, false⟩,
  ⟨0x44, 1, 4, 2, 0, .ro, 0, false⟩,
  ⟨0x44, 1, 4, 7, 4, .ro, 0, false⟩,
  ⟨0x44, 1, 4, 8, 8, .ro, 0, false⟩,
  ⟨0x44, 1, 4, 10, 10, .ro, 0, false⟩,
  ⟨0x44, 1, 4, 11, 11, .ro, 0, false⟩,
  ⟨0x44, 1, 4, 21, 16, .ro, 0, false⟩,
  ⟨0x44, 1, 4, 31, 24, .ro, 0, false⟩,
  ⟨0x100, 16, 32, 31, 0, .rw, 0, false⟩,
  ⟨0x104, 16, 32, 31, 0, .rw, 0, false⟩,
  ⟨0x108, 16, 32, 31, 0, .rw, 0, false⟩,
  ⟨0x10C, 16, 32, 31, 0, .rw, 0, false⟩,
  ⟨0x110, 16, 32, 11, 0, .rw, 0, false⟩,
  ⟨0x110, 16, 32, 23, 12, .rw, 0, false⟩,
  ⟨0x110, 16, 32, 28, 24, .rw, 0, false⟩,
  ⟨0x110, 16, 32, 30, 30, .rw, 0, false⟩,
  ⟨0x110, 16, 32, 31, 31, .rw, 0, false⟩,
  ⟨0x114, 16, 32, 11, 0, .rw, 0, false⟩,
  ⟨0x118, 16, 32, 11, 0, .rw, 0, false⟩,
  ⟨0x11C, 16, 32, 11, 0, .ro, 0, false⟩,
  ⟨0x11C, 16, 32, 16, 16, .ro, 1, false⟩,
  ⟨0x11C, 16, 32, 17, 17, .ro, 0, false⟩,
  ⟨0x11C, 16, 32, 18, 18, .w1c, 0, false⟩]

/-- The rows of a block's page `pg` (R50); the summary pages hold a computed register only, and CPC, the
DDR channels and NOC have the header alone. -/
def rowsOf (b : Block) (pg : Nat) : List RegRow :=
  match b with
  | .fco => rowsFco | .evr => rowsEvr | .bld => rowsBld | .pwc => rowsPwc
  | .eph => if pg = 0 then rowsEph0 else rowsEph1
  | .sec => if pg = 0 then rowsSec0 else rowsSec1
  | .hpe _ => rowsHpe | .mge => rowsMge | .fab _ => rowsFab
  | .toe => if pg = 0 then rowsToe0 else [⟨0x40, 1, 4, 15, 0, .rw, 0, false⟩]
  | .hqe => if pg = 0 then rowsHqe0 else if pg = 1 then rowsHqe1 else if pg = 2 then rowsHqe2 else rowsHqe3
  | .dge => if pg = 0 then rowsDge0 else rowsDge1
  | .fiu => if pg = 0 then rowsFiu0 else if pg = 1 then rowsFiu1 else if pg = 2 then rowsFiu2 else rowsFiu3
  | .cmp => if pg = 0 then rowsCmp0 else if pg = 1 then rowsCmp1 else if pg = 2 then rowsCmp2 else rowsCmp3
  | .cry => if pg = 0 then rowsCry0 else rowsCry1
  | .ftu => if pg = 0 then rowsFtu0 else if pg = 1 then rowsFtu1 else if pg = 2 then rowsFtu2 else rowsFtu3
  | .mca => rowsMca | .par => rowsPar | .vlt => rowsVlt | .mpt _ => rowsMpt
  | .ldc => if pg = 0 then rowsLdc0 else rowsLdc1
  | .tl _ => rowsTl | .mir => rowsMir | .ocu => rowsOcu | .hbu => rowsHbu
  | .stg => rowsStg
  | .cpc | .dmc _ | .noc | .wsp _ => []

end Sys2Proof.Machine
end

