-- ==== Sys2Proof/Machine/Errors.lean ====
section
/-! DEFINITION. The error bits of every page with their default classes (R145, R185, R186, R247, R296, R297, R353,
R354, R388, R389, R435, R436, R467, R507, R553, R593, R622, R647, R693, R696) and the block-specific interrupt bits. -/

namespace Sys2Proof.Machine

namespace E

def hpeLinkCorr : Nat := 0
def hpeCplTimeout : Nat := 1
def hpeUnexpCpl : Nat := 2
def hpeUrSent : Nat := 3
def hpePoisonRx : Nat := 4
def hpeBadTlp : Nat := 5
def hpeLinkLost : Nat := 6
def hpeQpOver : Nat := 7
def hpeSqFetchFail : Nat := 8
def hpePhyFault : Nat := 9
def hpeBufEcc : Nat := 10
def mgeLinkCorr : Nat := 0
def mgeCplTimeout : Nat := 1
def mgeUnexpCpl : Nat := 2
def mgeUrSent : Nat := 3
def mgePoisonRx : Nat := 4
def mgeBadTlp : Nat := 5
def mgeLinkLost : Nat := 6
def mgeBufEcc : Nat := 10
def fabFecCorr : Nat := 0
def fabFecUncorr : Nat := 1
def fabLinkLost : Nat := 2
def fabFcsErr : Nat := 3
def fabPfcStorm : Nat := 4
def fabPtpLost : Nat := 5
def fabPhyFault : Nat := 6
def fabBufEcc : Nat := 7
def toeConnFull : Nat := 0
def toeQpFull : Nat := 1
def toeDigestErr : Nat := 2
def toeProtoErr : Nat := 3
def toeRetxFail : Nat := 4
def toeKatoExpired : Nat := 5
def toeStgFull : Nat := 6
def toeQpOver : Nat := 7
def toeStateEcc : Nat := 8
def toePipeFault : Nat := 9
def hqeQctxCorr : Nat := 0
def hqeBadDb : Nat := 1
def hqeOutstFull : Nat := 2
def hqeQosCfg : Nat := 3
def hqeFwdFail : Nat := 4
def hqeQctxEcc : Nat := 5
def hqePipeFault : Nat := 6
def fiuScrubFix : Nat := 0
def fiuDcopyFix : Nat := 1
def fiuBankParity : Nat := 2
def fiuFptCrc : Nat := 3
def fiuBucketFull : Nat := 4
def fiuTagChain : Nat := 5
def fiuNoDomkey : Nat := 6
def fiuCountSat : Nat := 7
def fiuCfgRefused : Nat := 8
def fiuPipeFault : Nat := 9
def stgEccCorr : Nat := 0
def stgUnitEcc : Nat := 1
def stgBufEcc : Nat := 2
def stgWbFull : Nat := 3
def stgSlotCrc : Nat := 4
def cmpStreamErr : Nat := 0
def cmpExpandOverrun : Nat := 1
def cmpExpandShort : Nat := 2
def cmpCrcMismatch : Nat := 3
def cmpGroupSplit : Nat := 4
def cmpChainExhausted : Nat := 5
def cmpLaneEcc : Nat := 6
def cmpLaneFault : Nat := 7
def cmpUnitFormat : Nat := 8
def cryKeyCheck : Nat := 0
def cryKeyMissing : Nat := 1
def cryUnwrapFail : Nat := 2
def cryKeyWeak : Nat := 3
def cryKeystoreEcc : Nat := 4
def cryLaneFault : Nat := 5
def dgeLengthMismatch : Nat := 0
def dgeExcess : Nat := 1
def dgeBusErr : Nat := 2
def dgeAlarmClear : Nat := 3
def dgeCtxInvalid : Nat := 4
def dgeKeyAbsent : Nat := 5
def dgeCmpIncoherent : Nat := 6
def dgeCtxEcc : Nat := 7
def dgeKeystateEcc : Nat := 8
def dgeLaneFault : Nat := 9
def secMrDenied : Nat := 0
def secLogFull : Nat := 1
def secGlitch : Nat := 2
def secMrCorr : Nat := 3
def secKeyFault : Nat := 4
def secMrLost : Nat := 5
def ftuClauseChk : Nat := 0
def ftuJrnlFull : Nat := 1
def ftuMapBad : Nat := 2
def ftuBpMismatch : Nat := 3
def ftuProgFail : Nat := 4
def ftuEraseFail : Nat := 5
def ftuBlockWorn : Nat := 6
def ftuSpaceLow : Nat := 7
def ftuGcUrgent : Nat := 8
def ftuMappageLost : Nat := 9
def ftuRelocQFull : Nat := 10
def ftuCfgRefused : Nat := 11
def ftuTableEcc : Nat := 12
def ftuPipeFault : Nat := 13
def mcaEccCorr : Nat := 0
def mcaCleanEcc : Nat := 1
def mcaDirtyEcc : Nat := 2
def mcaPipeFault : Nat := 3
def parReadAround : Nat := 0
def parMemberTimeout : Nat := 1
def parMemberFailed : Nat := 2
def parReconOk : Nat := 3
def parUnitLost : Nat := 4
def parPatrolMismatch : Nat := 5
def parPatrolLate : Nat := 6
def parRebuildSpace : Nat := 7
def parNarrow : Nat := 8
def parClassBlocked : Nat := 9
def parCfgRefused : Nat := 10
def parLogFull : Nat := 11
def parBufEcc : Nat := 12
def parPipeFault : Nat := 13
def mptLinkCorr : Nat := 0
def mptLinkLost : Nat := 1
def mptCmdErr : Nat := 2
def mptStale : Nat := 3
def mptAdmitRefused : Nat := 4
def mptSbErr : Nat := 5
def mptOutOfRange : Nat := 6
def mptProtoErr : Nat := 7
def mptPhyFault : Nat := 8
def ldcUncorr : Nat := 0
def ldcTagMismatch : Nat := 1
def ldcCrcFail : Nat := 2
def ldcRetryOk : Nat := 3
def ldcSoftOk : Nat := 4
def ldcLaneEcc : Nat := 5
def ldcLaneFault : Nat := 6
def vltEccCorr : Nat := 0
def vltProgFail : Nat := 1
def vltEraseFail : Nat := 2
def vltUncorr : Nat := 3
def vltPhyFault : Nat := 4
def ephSrcLost : Nat := 0
def ephFreeRun : Nat := 1
def ephStepped : Nat := 2
def ephPpsDisagree : Nat := 3
def ephFiredLate : Nat := 4
def ephCutSkipped : Nat := 5
def ephEpochLimit : Nat := 6
def ephReplAuth : Nat := 7
def ephReplFractured : Nat := 8
def ephReplBroken : Nat := 9
def ephCfgRefused : Nat := 10
def ephTableCorr : Nat := 11
def ephClockFault : Nat := 12
def tlLinkCorr : Nat := 0
def tlLinkLost : Nat := 1
def tlWindowNak : Nat := 2
def tlJoinRefused : Nat := 3
def tlPhyFault : Nat := 4
def mirEclipse : Nat := 0
def mirSevered : Nat := 1
def mirFenceLost : Nat := 2
def mirResyncFail : Nat := 3
def mirStateEcc : Nat := 4
def mirPipeFault : Nat := 5
def ocuMismatch : Nat := 0
def ocuStreamLost : Nat := 1
def ocuAnswerLate : Nat := 2
def ocuSelfCheck : Nat := 3
def ocuDiverged : Nat := 4
def ocuPipeFault : Nat := 5
def hbuCrcErr : Nat := 0
def hbuSilent : Nat := 1
def hbuPairChk : Nat := 2
def hbuPhyFault : Nat := 3
def cpcLmemCorr : Nat := 0
def cpcLmemEcc : Nat := 1
def cpcCoreFault : Nat := 2
def cpcSharedFault : Nat := 3
def dmcEccCorr : Nat := 0
def dmcCaReplay : Nat := 1
def dmcEccUncorr : Nat := 2
def dmcPhyFault : Nat := 3
def nocLinkCorr : Nat := 0
def nocRouteFault : Nat := 1
def fcoTableCorr : Nat := 0
def fcoInjRefused : Nat := 1
def fcoTableEcc : Nat := 2
def evrFull : Nat := 0
def evrSuppressing : Nat := 1
def evrRecCrc : Nat := 2
def pwcLastLane : Nat := 0
def pwcRailEdge : Nat := 1
def pwcDumpShort : Nat := 2
def pwcThrottle : Nat := 3
def pwcSensorFault : Nat := 4
def bldStartFail : Nat := 0
def bldImageDiscarded : Nat := 1
def bldNoImage : Nat := 2
def bldAdoptAbandoned : Nat := 3

end E

namespace I

def fabLinkUp : Nat := 16
def fabLinkDown : Nat := 17
def fabPtpSelect : Nat := 18
def toeConnHigh : Nat := 16
def hqeOutstHigh : Nat := 16
def hqeSanDone : Nat := 17
def hqeFmtDone : Nat := 18
def hqeThrottle : Nat := 19
def fiuBankReady : Nat := 16
def fiuRefillDone : Nat := 17
def fiuBgdDone : Nat := 18
def stgWbHigh : Nat := 16
def cmpLaneOff : Nat := 16
def cryRestoreDone : Nat := 16
def cryPurgeDone : Nat := 17
def dgeLaneOff : Nat := 16
def dgeCtxExpired : Nat := 17
def secQuoteDone : Nat := 16
def secBootDone : Nat := 17
def secAlarm : Nat := 18
def ftuCkptDone : Nat := 16
def ftuMapLoaded : Nat := 17
def ftuRelocQueued : Nat := 18
def mcaGroupOff : Nat := 16
def mcaGroupOn : Nat := 17
def parMemberFailed : Nat := 16
def parRebuildDone : Nat := 17
def parSweepDone : Nat := 18
def parLostNew : Nat := 19
def mptLinkUp : Nat := 16
def mptLinkDown : Nat := 17
def mptAlert : Nat := 18
def mptFenceDone : Nat := 19
def ephStateChange : Nat := 16
def ephCutReady : Nat := 17
def ephStreamChange : Nat := 18
def tlLinkUp : Nat := 16
def tlLinkDown : Nat := 17
def tlWinDone : Nat := 18
def mirEclipseDone : Nat := 16
def mirModeChange : Nat := 17
def mirMirrorCurrent : Nat := 18
def mirPeerState : Nat := 19
def hbuPeerState : Nat := 16
def fcoIncOpen : Nat := 16
def fcoIncClosed : Nat := 17
def fcoClass3 : Nat := 18
def evrFull : Nat := 16
def evrHalf : Nat := 17
def pwcStateChange : Nat := 16
def pwcShutDone : Nat := 17
def pwcThermLevel : Nat := 18
def bldRoleDone : Nat := 16
def bldServing : Nat := 17
def hpeLinkUp : Nat := 16
def hpeLinkDown : Nat := 17
def hpePerst : Nat := 18
def hpeFlr : Nat := 19
def hpeVfChange : Nat := 20
def mgeLinkUp : Nat := 16
def mgeLinkDown : Nat := 17
def mgePerst : Nat := 18

end I

/-- Default class of each ERR_STAT bit of a block, by bit number. -/
def classTable (b : Block) : List Nat :=
  match b with
  | .hpe _ => [1, 0, 0, 0, 0, 0, 0, 0, 0, 2, 2]
  | .mge => [1, 0, 0, 0, 0, 0, 0, 0, 0, 0, 2]
  | .fab _ => [1, 0, 0, 0, 0, 0, 2, 2]
  | .toe => [0, 0, 0, 0, 0, 0, 0, 0, 2, 2]
  | .hqe => [1, 0, 0, 0, 0, 2, 2]
  | .fiu => [1, 1, 2, 1, 0, 0, 0, 0, 0, 2]
  | .stg => [1, 1, 2, 0, 1]
  | .cmp => [0, 0, 0, 0, 0, 0, 2, 2, 0]
  | .cry => [0, 0, 0, 0, 2, 2]
  | .dge => [0, 0, 0, 0, 0, 0, 2, 2, 2, 2]
  | .sec => [0, 0, 1, 1, 2, 4]
  | .ftu => [1, 0, 0, 1, 0, 0, 0, 0, 0, 0, 0, 0, 2, 2]
  | .mca => [1, 1, 2, 2]
  | .par => [0, 0, 0, 1, 0, 1, 0, 0, 0, 0, 0, 0, 2, 2]
  | .mpt _ => [1, 0, 0, 0, 0, 0, 0, 2, 2]
  | .ldc => [0, 0, 0, 1, 1, 2, 2]
  | .vlt => [1, 0, 0, 0, 2]
  | .eph => [0, 0, 0, 0, 0, 0, 0, 0, 0, 0, 0, 1, 4]
  | .tl _ => [1, 0, 2, 0, 2]
  | .mir => [0, 0, 4, 0, 3, 3]
  | .ocu => [0, 0, 0, 4, 3, 2]
  | .hbu => [0, 0, 0, 2]
  | .cpc => [1, 2, 2, 4]
  | .dmc _ => [1, 1, 4, 4]
  | .noc => [1, 4]
  | .fco => [1, 0, 4]
  | .evr => [0, 0, 1]
  | .pwc => [0, 0, 0, 0, 1]
  | .bld => [4, 0, 0, 0]
  | .wsp _ => []

/-- Default class of error `bit` of block `b`; none for a reserved bit (R148: MGE has bits 0 to 6 and 10). -/
def errClass? (b : Block) (bit : Nat) : Option Nat :=
  if b = .mge ∧ 7 ≤ bit ∧ bit ≤ 9 then none else (classTable b)[bit]?

end Sys2Proof.Machine
end

