-- ==== Sys2Proof/Machine/StateCore.lean ====
section
/-! DEFINITION. State, part 1: what the head sends out, the register file, transactions, management queues, faults,
the event record, power and pins. -/

namespace Sys2Proof.Machine

/-- Asynchronous events posted to a controller. -/
inductive AsyncEv where
  | nsAttrChanged | anaChange | sanitizeCompleted | sanitizeFailed | thermal | reservation | discoveryChange
  | invalidDoorbell
  deriving DecidableEq, Repr

/-- Packets and messages sent over a Troys link (R557, R563–R589), by what they carry. -/
inductive TroysOut where
  /-- Mirrored changes: a slot's data, its descriptor, a clause, a stripe journal record, the region header, a slot's release (R563). -/
  | mirror (slot : Nat)
  | desc (slot : Nat)
  | clause (cseq : Nat)
  | stripeRec (band stripe : Nat)
  | region
  | slotRelease (slot : Nat)
  /-- Forwarding: a command, data of a unit read for the peer, a completion (R28, R32, R564). -/
  | forward (tag : Nat)
  | forwardData (tag unit : Nat) (data : List Byte)
  | forwardReport (tag : Nat) (st : NvmeSt)
  | join
  | joinRefused (cause : Nat)
  | ack (ch cseq : Nat)
  | nak (ch cseq cause : Nat)
  /-- A digest of a window: an answer or not, stream, window and digests (R570). -/
  | digest (answer : Bool) (stream first count : Nat) (cdig mdig : List Byte)
  | arbitrate (stream first : Nat)
  | verdict (ok : Bool)
  | refcount (uaddr : Nat) (add : Bool)
  | footprint (gib : Nat)
  | modeChange (mode : Nat)
  | caughtUp
  | mirrorCurrent
  /-- Requests and answers for identifiers, and pair control blocks passed on (R228, R343, R519). -/
  | nsRequest (what id : Nat)
  | reserved (isGroup : Bool) (id : Nat) (ok : Bool)
  | keyLoad (kind slot : Nat)
  | keyStatus (kind slot status : Nat)
  | keyPurge (kind slot : Nat)
  | member (m state : Nat)
  | extentRequest (m : Nat)
  | extentGrant (m : Nat) (extent : Option Nat)
  | moving (groups : List Nat) (on : Bool)
  | handover (groups : List Nat) (seq : Nat)
  | epochReserve
  | progress (kind state : Nat)
  | root (gen : Nat)
  /-- The copy of a resynchronisation (R585): slot data, descriptors, stripe records, clauses, the region header, the root; then keys,
  entries, streams. -/
  | copySlot (slot : Nat)
  | copyDesc (slot : Nat)
  | copyStripe (band stripe : Nat)
  | copyClause (cseq : Nat)
  | copyRegion
  | keyCopy (kind slot : Nat)
  | entryCopy (no : Nat)
  | streamCopy (slot : Nat)
  deriving DecidableEq, Repr

/-- What the head has sent, one entry an output, newest first. -/
inductive Out where
  /-- An NVMe completion entry (R188, R193). -/
  | nvmeCpl (c : Ctl) (qid cid : Nat) (st : NvmeSt)
  /-- An MSI-X message of an NVMe function. -/
  | msix (c : Ctl) (vector : Nat)
  /-- An MSI-X message of MGE (R63, R78). -/
  | mgeMsix (vector : Nat)
  /-- A management completion entry (R86). -/
  | mgmtCpl (q tag status sqHead result : Nat) (phase : Bool)
  /-- A PCIe completion with Unsupported Request, Request Retry Status or success (R111, R122, R140). -/
  | pcieUr (b : Block)
  | pcieRrs (p : Nat)
  | pcieCfg (p f : Nat)
  /-- An error logged through AER (R122–R131). -/
  | aer (b : Block) (bit : Nat)
  /-- A host memory read request (R112). -/
  | hostRead (p f tag : Nat)
  /-- Data returned to the host for a command: the bytes it asked of one unit. -/
  | hostData (h unit : Nat) (data : List Byte)
  /-- What an admin command returned: 0x100 plus CNS, 0x200 plus log page, 0x300 plus feature, 0x400 Dword 0, 0x500 plus
  property offset; `value` where it is a number. -/
  | adminData (h kind value : Nat)
  /-- The response of a Fabrics Connect on a connection: its status and the fabric controller it names. -/
  | connectRsp (conn : Nat) (st : NvmeSt) (ctl : Nat)
  /-- An event posted through an Asynchronous Event Request. -/
  | asyncEvent (c : Ctl) (e : AsyncEv)
  /-- A register value returned to the management driver (R53), and by the sideband target (R677). -/
  | mgeRead (addr value : Nat)
  | sideband (addr value : Nat)
  /-- EVR records copied to a data buffer (R613). -/
  | evrData (seqs : List Nat)
  | troys (t : TroysOut)
  /-- A heartbeat word (R574). -/
  | heartbeat (w : Nat)
  /-- A chunk as handed to LDC for module m's block and program unit: its 65,536 bytes (R441, R482, R499). -/
  | chunk (m block pu : Nat) (data : List Byte)
  /-- A Yaler command written to module m's queue q with identifier cid (R475). -/
  | yaler (m q cid opc : Nat)
  /-- TCP, RDMA and network frames (R155–R170). -/
  | rst (port : Nat)
  | synAck (conn : Nat)
  | rdmaAccept (conn : Nat)
  | rdmaReject (port : Nat)
  | icresp (conn : Nat) (hdgst ddgst : Bool)
  | retransmit (conn : Nat)
  | termReq (conn : Nat)
  | arpReply (port addr : Nat)
  /-- A replication frame (R545) by TYPE and REF, with what its payload names: the status of HELLO_ACK, the base instant of
  CUT_BEGIN, positions asked for by NEED, counts of CUT_END, or units. -/
  | frame (conn typ ref : Nat) (what : List Nat)
  /-- The data buffer of a SNAP_CREATE: namespaces with their epochs (R533). -/
  | snapData (q tag : Nat) (eps : List (Nat × Nat))
  /-- A digest job's completion record (R365), and a digest written to its result address (R374). -/
  | dgeRecord (ring tag status flags ctx gen bytes : Nat)
  | dgeDigest (ring tag addr : Nat) (d : List Byte)
  /-- A bulk job's record (R332, R333): status (0 done, 1 chain exhausted, 2 stream error, 3 overrun, 4 short, 5 CRC), input
  bytes done and output bytes; and what it wrote. -/
  | bulkRecord (id status inDone outDone : Nat)
  | bulkData (id : Nat) (data : List Byte)
  /-- A vault image header written (R636), a checkpoint root written (R410). -/
  | vaultHeader (gen : Nat)
  | ckptRoot (gen : Nat)
  deriving DecidableEq, Repr

/-- The values one commit captured in a page (R64), held in transaction `txn` or applied at once for 0 (R71); `index`
is the record an indexed page had selected. -/
structure Capture where
  blk   : Block
  pg    : Nat
  txn   : Nat
  index : Nat
  vals  : Tbl Nat
  deriving DecidableEq, Repr

/-- An armed injection waiting for its check point (R59, R621). -/
structure Armed where
  blk  : Block
  bit  : Nat
  lane : Nat
  deriving DecidableEq, Repr

/-- The register fields. Keys are a field's word address times 32 plus its lowest bit; an unlisted field holds its
reset value. -/
structure RegFile where
  /-- Unshadowed fields (R9). -/
  cur     : Tbl Nat
  /-- Shadow copies, which the driver writes (R64). -/
  shd     : Tbl Nat
  /-- Active copies, which the block uses (R64). -/
  act     : Tbl Nat
  /-- Active records behind index registers, by field key times 65,536 plus record (R246, R295, R466, R561). -/
  bank    : Tbl Nat
  /-- Captured commits not yet applied (R64, R66). -/
  caps    : List Capture
  /-- The 64-bit counter of each page, by page address (R59). -/
  cnt     : Tbl Nat
  /-- Words latched by a read of another word, by the address at which they are read (R59, R380). -/
  latchHi : Tbl Nat
  /-- R59, R621. -/
  armed   : List Armed
  deriving DecidableEq, Repr

/-- A scheduled configuration transaction (R72, R76, R90): its members once frozen. -/
structure Txn where
  id      : Nat
  instant : Nat
  q       : Nat
  tag     : Nat
  frozen  : Option (List (Block × Nat))
  deriving DecidableEq, Repr

/-- Configuration transactions (R71–R77). -/
structure TxnState where
  sched   : List Txn
  /-- R73: the transaction whose members are applying while HQE and destage hold new starts. -/
  holding : Option Txn
  deriving DecidableEq, Repr

/-- A control block fetched and not yet completed (R83, R84); `started` once its row has begun it. -/
structure MgmtCmd where
  q       : Nat
  tag     : Nat
  opcode  : Nat
  fence   : Bool
  dataLen : Nat
  started : Bool
  /-- The status it completes with at once, when its descriptor or body fails a check (R80, R84, R87, R698). -/
  reject  : Option Nat
  /-- Its queue went down with a reset: the outcome is recorded, not posted (R82). -/
  unposted : Bool
  deriving DecidableEq, Repr

/-- Completion indices of one management queue (R83). -/
structure MgmtQ where
  cqTail : Nat
  phase  : Bool
  deriving DecidableEq, Repr

/-- The management endpoint. -/
structure MgmtState where
  queues : Tbl MgmtQ
  cmds   : List MgmtCmd
  deriving DecidableEq, Repr

/-- The reset scope of an incident (R603). -/
inductive Scope where
  | lane (b : Block) (l : Nat)
  | engine (b : Block)
  | plane (p : Plane)
  | head
  deriving DecidableEq, Repr

/-- An open incident (R601–R604). -/
structure Incident where
  slot     : Nat
  number   : Nat
  cls      : Nat
  source   : Nat
  blk      : Option Block
  lane     : Nat
  inst     : Nat
  scope    : Scope
  subs     : Nat
  openedAt : Nat
  /-- The control core that runs the handler (R603): the spec does not say which, so a free value. -/
  handler  : Nat
  deriving DecidableEq, Repr

/-- The Grave state, held in VDD_AON (R614, R617). -/
structure Grave where
  cause    : Nat
  source   : Nat
  incident : Nat
  time     : Nat
  deriving DecidableEq, Repr

/-- Fault collection. -/
structure FcoState where
  grave   : Option Grave
  incs    : List Incident
  /-- Times of Class 2 incidents of an instance or lane within the last second, by lane key (R599). -/
  hist    : Tbl (List Nat)
  /-- Lanes powered off until cold reset (R599). -/
  laneOff : List Nat
  /-- Lanes being reset (R596). -/
  laneRst : List Nat
  /-- Instant of ARM = 0x3C while the arming sequence is open (R619). -/
  armAt   : Option Nat
  deriving DecidableEq, Repr

/-- The resets of the whole head (R628). -/
inductive ResetKind where
  | power | cold | warm
  deriving DecidableEq, Repr

/-- An event record (R606); its CRC is computed on reading. -/
structure Rec where
  code   : Nat
  cls    : Nat
  inj    : Bool
  sub    : Bool
  raised : Bool
  noTai  : Bool
  source : Nat
  seq    : Nat
  time   : Nat
  inst   : Nat
  lane   : Nat
  inc    : Nat
  p1     : Nat
  p2     : Nat
  deriving DecidableEq, Repr

/-- A token bucket and pending count of one event code (R610); tokens are in thousand-millionths. -/
structure EvBucket where
  tok     : Nat
  at_     : Nat
  pending : Nat
  since   : Nat
  deriving DecidableEq, Repr

/-- The event record. -/
structure EvrState where
  /-- Records held, oldest first. -/
  recs    : List Rec
  buckets : Tbl EvBucket
  deriving DecidableEq, Repr

/-- A domain being watched: rails, clocks, sensors, gates (R623, R627, R630, R686). -/
structure PwcState where
  /-- The head is held in reset: from a power cycle, POR_N or the end of a dump to the release of cold reset (R628). -/
  held      : Bool
  /-- Rails out of range, by the order of R623. -/
  railsOut  : List Nat
  /-- Reference clocks lost, by the bit order of PWC_CLK. -/
  clocksOut : List Nat
  /-- PWR_FAIL_N reads high. -/
  inputOk   : Bool
  /-- A PWR_CTRL.REQ not yet carried out, by block (R630). -/
  moving    : List (Block × Nat)
  /-- Lanes gated by hardware, by lane key (R631). -/
  gated     : List Nat
  /-- Head power state transition under way, and the instant it ends (R633). -/
  toState   : Option (Nat × Nat)
  /-- Sensor readings in units of R686, when they were last taken, and the sensors out of service. -/
  temps     : List Nat
  sensedAt  : Nat
  failed    : List Nat
  /-- Instants since which Tj has been below the release thresholds of levels 1 and 2 (R687). -/
  cool1     : Option Nat
  cool2     : Option Nat
  /-- A vault dump has begun and not ended, and when it began (R598, R635, R637). -/
  dumping   : Bool
  dumpAt    : Nat
  /-- Orderly stop under way (R639). -/
  stopping  : Bool
  deriving DecidableEq, Repr

/-- The pins the head drives and reads (R676); true is the level with the named meaning. -/
structure Pins where
  faultN      : Bool
  thermTripN  : Bool
  ppsOut      : Bool
  /-- Transmitters in electrical idle (R614). -/
  idle        : Bool
  peerFaultN  : Bool
  peerPresent : Bool
  headSel     : Nat
  deriving DecidableEq, Repr

end Sys2Proof.Machine
end

