-- ==== Sys2Proof/Machine/StateHost.lean ====
section
/-! DEFINITION. State, part 2: host ports, HQE with its controllers, queues, commands, namespaces and groups, and the
fabric ports with TOE. -/

namespace Sys2Proof.Machine

/-- What an outstanding read of host memory serves (R112, R127). -/
inductive ReadKind where
  | sqFetch (qid : Nat)
  | data (h : Nat)
  deriving DecidableEq, Repr

/-- A tag's standing (R126, R128, R131): live, quarantined after a timeout, cancelled with its command, or cancelled by
a reset. -/
inductive TagSt where
  | live | quarantined | cancelled | resetCancelled
  deriving DecidableEq, Repr

/-- One read request of an HPE by port, function and tag (R114, R115); `off` is its place in its command's data. -/
structure ReadReq where
  port : Nat
  func : Nat
  tag  : Nat
  addr : Nat
  len  : Nat
  got  : Nat
  off  : Nat
  kind : ReadKind
  st   : TagSt
  deriving DecidableEq, Repr

/-- Settings of one PCIe function (R112, R113, R115, R122, R130). [PRESUMED: log entry 20] -/
structure FnCfg where
  maxRead    : Nat
  maxPayload : Nat
  tagBits    : Nat
  ctoDisable : Bool
  memEnable  : Bool
  deriving DecidableEq, Repr

/-- The PCIe side of one HPE (R104, R138, R139). -/
structure Port where
  totalVfs : Nat
  training : Bool
  /-- Functions whose FLR is in progress. -/
  flr      : List Nat
  deriving DecidableEq, Repr

/-- The host ports. -/
structure PortsState where
  port  : Tbl Port
  fns   : Tbl FnCfg
  reads : List ReadReq
  deriving DecidableEq, Repr

/-- CSTS.SHST (R194). -/
inductive Shst where
  | normal | processing | complete
  deriving DecidableEq, Repr

/-- An NVMe controller of this head (R102, R141, R160, R189). -/
structure Controller where
  id      : Ctl
  en      : Bool
  rdy     : Bool
  cfs     : Bool
  shst    : Shst
  /-- I/O queue pairs offered, sampled at CC.EN (R107). -/
  qpMax   : Nat
  /-- Feature values the host has set, by feature identifier (R206). -/
  feats   : Tbl Nat
  /-- Volatile Write Cache enable (R214). -/
  wce     : Bool
  /-- NVMe power state and the last operational one (R218, R219). -/
  ps      : Nat
  lastOp  : Nat
  /-- Asynchronous Event Requests held, by handle, at most 16 (R204). -/
  aers    : List Nat
  events  : List AsyncEv
  /-- Changed Namespace List (R207, R223). -/
  changed : List Nat
  /-- Tenant group of a fabric controller (R195); an HPE function's is in HQE_FMAP. -/
  tenant  : Nat
  /-- Keep Alive Timeout in ms, 0 off (R165). -/
  kato    : Nat
  disc    : Bool
  deriving DecidableEq, Repr

/-- A submission queue context (R188–R192). -/
structure SubQ where
  ctl      : Ctl
  qid      : Nat
  size     : Nat
  head     : Nat
  tail     : Nat
  cqid     : Nat
  prio     : Nat
  /-- The Delete I/O Submission Queue command that waits on it (R192). -/
  deleting : Option Nat
  /-- Fetching stopped by R127. -/
  stopped  : Bool
  deriving DecidableEq, Repr

/-- A completion queue context (R190, R193). -/
structure CplQ where
  ctl    : Ctl
  qid    : Nat
  size   : Nat
  head   : Nat
  tail   : Nat
  phase  : Bool
  vector : Nat
  irqEn  : Bool
  /-- Completions whose MSI-X message coalescing holds (R193). -/
  held   : Nat
  deriving DecidableEq, Repr

/-- How far an outstanding command has gone. -/
inductive CmdPhase where
  /-- Entry taken, its row not yet run. -/
  | fetched
  /-- Its effect started; completes when nothing it waits for is left. -/
  | running
  /-- Forwarded to the peer; waits for the owner's report (R215). -/
  | forwarded
  /-- Held for a takeover or a plane (R17, R579, R600). -/
  | held
  deriving DecidableEq, Repr

/-- An outstanding command (R188, R248) and what it waits for. -/
structure Cmd where
  h        : Nat
  /-- The controller it arrived at; none when the peer forwarded it, QID then holds its forwarding tag. -/
  ctl      : Option Ctl
  qid      : Nat
  sqe      : Sqe
  /-- Host identity of a command the peer forwarded (R209). -/
  host     : Nat
  /-- Data a Compare holds against what it reads (R205). -/
  cmp      : List Byte
  phase    : CmdPhase
  /-- Head sequence number (R22). -/
  seq      : Nat
  /-- Host data read requests not yet issued, address, length and place (R112, R115). -/
  todo     : List (Nat × Nat × Nat)
  /-- Write data bytes a fabric command still waits for (R156). -/
  need     : Nat
  /-- Slots whose data has not landed, and slots the peer has not acknowledged (R22). -/
  waitLand : List Nat
  waitAck  : List Nat
  /-- Units whose durability it waits for, (nsid, unit, SEQ) (R211, R213). -/
  waitDur  : List (Nat × Nat × Nat)
  /-- Clauses whose mirror acknowledgement it waits for: none but CSEQs below this (R210, R211). -/
  waitCseq : Nat
  /-- Replication streams whose SYNC_ACK it waits for (R548). -/
  waitSync : List Nat
  /-- Unit reads in flight (R29). -/
  waitRead : List Nat
  /-- Parts of a split Flush outstanding at the peer (R28). -/
  waitPart : Nat
  /-- Held by a cut's guard (R526). -/
  guard    : Bool
  /-- A frame of a stream that it lands: connection and REF of the SYNC_ACK to send (R548). -/
  repl     : Option (Nat × Nat)
  st       : NvmeSt
  deriving DecidableEq, Repr

/-- The token buckets of a tenant group, in millionths of a token (R196–R198). -/
structure Bucket where
  cmds      : Int
  bytes     : Int
  throttled : Bool
  throttles : Nat
  deriving DecidableEq, Repr

/-- Reservation state of a namespace (R209): registrants are (controller's host, key). -/
structure Resv where
  regs   : List (Nat × Nat)
  holder : Option Nat
  rtype  : Nat
  gen    : Nat
  ptpl   : Bool
  deriving DecidableEq, Repr

/-- A format accepted and not complete (R235, R236): its settings, the head sequence number from which commands are new,
the clause of its invalidation, the bands it must see erased, and the control block or host command that waits. -/
structure FormatOp where
  ses    : Nat
  lbaf   : Nat
  since  : Nat
  begun  : Bool
  cseq   : Nat
  bands  : List Nat
  cmd    : Option Nat
  mgmt   : Option (Nat × Nat)
  deriving DecidableEq, Repr

/-- A namespace of the pair (R222, R229). -/
structure Namespace where
  nsid      : Nat
  group     : Nat
  tenant    : Nat
  nsze      : Nat
  lbaf      : Nat
  cmpMode   : Nat
  cmpLevel  : Nat
  grouping  : Nat
  domain    : Nat
  layout    : Nat
  key       : Nat
  nextKey   : Nat
  nguid     : Nat
  resv      : Resv
  mixed     : Bool
  oldPct    : Nat
  /-- Attribute generation that stored units carry (R227, R422). -/
  attrGen   : Nat
  format    : Option FormatOp
  /-- NS_DELETE in progress: its queue and tag, and the head sequence number from which commands are new (R233). -/
  deleting  : Option (Nat × Nat × Nat)
  /-- The epoch it was cloned from; 0 for none (R537). -/
  cloneOf   : Nat
  /-- Write protection of a replication target (R551). -/
  protect   : Bool
  deriving DecidableEq, Repr

/-- An ANA group (R224): owned here or by the peer, and whether a move is in progress. -/
structure AnaGroup where
  id     : Nat
  mine   : Bool
  change : Bool
  deriving DecidableEq, Repr

/-- A progress record of a format or sanitize (R242). -/
structure Progress where
  kind     : Nat
  action   : Nat
  state    : Nat
  nsid     : Nat
  cursor   : Nat
  progress : Nat
  ause     : Bool
  gen      : Nat
  deriving DecidableEq, Repr

/-- HQE and the administration state. -/
structure HqeState where
  ctls      : List Controller
  sqs       : List SubQ
  cqs       : List CplQ
  cmds      : List Cmd
  nextH     : Nat
  buckets   : Tbl Bucket
  ns        : List Namespace
  groups    : List AnaGroup
  /-- Host NQN to tenant group bindings (R195, R230). -/
  binds     : List (List Byte × Nat)
  /-- Identifiers reserved for a request of the peer in progress (R228): kind 0 NSID, 1 group. -/
  reserving : List (Nat × Nat)
  progress  : List Progress
  /-- A failed sanitize and its AUSE (R245). -/
  sanFail   : Option Bool
  /-- The control block or command of a sanitize in progress (R241). -/
  sanMgmt   : Option (Nat × Nat)
  /-- Power level transition: to which level (R219, R220). -/
  psTo      : Option Nat
  nextSeq   : Nat
  /-- Write fetching stopped by a full buffer (R255). -/
  wbHold    : Bool
  /-- Commands held for a plane reset without hand-over (R600). -/
  planeHold : Bool
  deriving DecidableEq, Repr

/-- Kinds of connection (R157, R159, R161). -/
inductive ConnKind where
  | tcp | roce | disc | repl
  deriving DecidableEq, Repr

/-- A connection of TOE (R156–R169, R186). -/
structure Conn where
  id      : Nat
  port    : Nat
  kind    : ConnKind
  remote  : Nat
  rport   : Nat
  /-- ICReq answered, or RDMA connection accepted (R156, R157). -/
  ready   : Bool
  hdgst   : Bool
  ddgst   : Bool
  /-- Fabric controller number and queue, once a Connect named them (R161). -/
  ctl     : Option Nat
  qid     : Nat
  /-- Retransmissions of the oldest unacknowledged segment or packet (R166, R167). -/
  retx    : Nat
  /-- Unacknowledged transmit bytes held in STG (R169). -/
  unacked : Nat
  /-- Congestion notifications not yet recovered from: rate halvings (R156). -/
  cnp     : Nat
  deriving DecidableEq, Repr

/-- Announce data of a fabric port (R182): quality, lower better, while it arrives. -/
structure Announce where
  port    : Nat
  quality : Nat
  deriving DecidableEq, Repr

/-- The fabric ports and TOE. -/
structure FabState where
  conns    : List Conn
  nextConn : Nat
  announce : List Announce
  /-- Ports whose RoCEv2 priority is paused, with the instant the pause began (R153, R185). -/
  paused   : Tbl Nat
  deriving DecidableEq, Repr

end Sys2Proof.Machine
end

