-- ==== Sys2Proof/Machine/StateData.lean ====
section
/-! DEFINITION. State, part 3: write buffer and destage, fingerprint index, compression and keys, digest engine and
measurements. -/

namespace Sys2Proof.Machine

/-- States of a unit slot (R251); an unlisted slot is Free. -/
inductive SlotSt where
  | landing | filled | destaging | placed | releasing
  deriving DecidableEq, Repr

/-- A unit slot with its descriptor and 4,096 bytes (R249–R251). -/
structure Slot where
  nsid     : Nat
  unit     : Nat
  seq      : Nat
  st       : SlotSt
  /-- SECT_MASK: sectors written (R250, R254). -/
  mask     : Nat
  /-- A FUA write or pending Flush covers it (R212, R257). -/
  durable  : Bool
  /-- Its data has landed here; the peer has acknowledged it (R22). -/
  landed   : Bool
  acked    : Bool
  /-- A shadow slot, not yet in the slot index; a slot whose place a shadow has taken (R250, R253). -/
  shadow   : Bool
  replaced : Bool
  /-- FLAGS.FILLED: the fill of R254 is done. -/
  fillDone : Bool
  /-- The command that wrote it; 0 when none waits. -/
  cmd      : Nat
  /-- Instant it became Filled (R257). -/
  filledAt : Nat
  data     : List Byte
  deriving DecidableEq, Repr

/-- Stages of destage (R24, R259). -/
inductive Stage where
  | read | fingerprint | search | compress | groupWait | encrypt | pack | parity | clause
  deriving DecidableEq, Repr

/-- Why a unit is in the pipeline: a slot's unit, or one moved or merged by background work. -/
inductive UnitSrc where
  | slot (slot : Nat)
  /-- Collection of the unit at `old`, copied or re-encoded (R426). -/
  | gc (old : Nat) (reenc : Bool)
  deriving DecidableEq, Repr

/-- A unit in the destage pipeline, held in a unit buffer of STG (R25, R258, R259). -/
structure DestUnit where
  id     : Nat
  src    : UnitSrc
  nsid   : Nat
  unit   : Nat
  seq    : Nat
  stage  : Stage
  data   : List Byte
  zero   : Bool
  fp     : List Byte
  /-- FPT index of the unit it duplicates, and of its own Pending entry (R276, R281). -/
  dup    : Option Nat
  own    : Option Nat
  /-- Open 16 KiB group it belongs to (R311). -/
  grp    : Option Nat
  /-- Encoded stored unit: mode (0 raw, 1 Lexical, 2 Predicate) and body bytes (R298, R305, R310). -/
  mode   : Nat
  body   : List Byte
  /-- Data key handle that encrypts it (R299, R304); the attribute generation it is encoded under (R422). -/
  key    : Nat
  gen    : Nat
  /-- Address assigned in packing, with its member index; 0 before (R390). -/
  uaddr  : Nat
  mem    : Nat
  /-- Layout class of its band (R417, R426); the stripe's early-close flag comes from `durable` (R212). -/
  cls    : Nat
  durable : Bool
  deriving DecidableEq, Repr

/-- A unit of a read on its way to the host or to a background reader (R29, R30). -/
inductive ReadStage where
  | map | module_ | decrypt | expand | done
  deriving DecidableEq, Repr

/-- What a unit read serves. -/
inductive ReadFor where
  | host (h : Nat)
  | fill (u : Nat)
  | gc (band : Nat)
  | stream (slot : Nat)
  deriving DecidableEq, Repr

/-- A unit read in flight (R29). -/
structure UnitRead where
  id    : Nat
  for_  : ReadFor
  nsid  : Nat
  unit  : Nat
  stage : ReadStage
  /-- The map entry as the read found it. -/
  uaddr : Nat
  /-- Sectors and bytes taken from the write buffer in the same access (R292). -/
  ovMask : Nat
  ovData : List Byte
  /-- Stored unit: reconstructed (R442), then with its body decrypted (R329). -/
  body  : List Byte
  /-- Codewords read and not yet decoded: module, block, program unit, codeword (R499, R501). -/
  cws   : List (Nat × Nat × Nat × Nat)
  /-- Data positions unreadable in its stripe (R450), those taken around because late (R451), and the sets of its own
  positions still to try, the first one being tried (R450). -/
  gone  : List Nat
  late  : List Nat
  tries : List (List Nat)
  deriving DecidableEq, Repr

/-- Write buffer and destage. -/
structure WbState where
  /-- Own half and mirror half, by slot number. -/
  own    : Tbl Slot
  mir    : Tbl Slot
  /-- The mirror half has returned to the own pool (R23). -/
  alone  : Bool
  /-- Presence filter counters in use, by position (R256). -/
  filter : Tbl Nat
  units  : List DestUnit
  /-- Slots whose clause is written and not yet acknowledged by the peer: slot and CSEQ (R27, R408). -/
  relWait : List (Nat × Nat)
  nextU  : Nat
  reads  : List UnitRead
  nextR  : Nat
  deriving DecidableEq, Repr

/-- A tier 1 entry (R267). -/
structure TagEntry where
  tag    : Nat
  domain : Nat
  fptIdx : Nat
  heat   : Nat
  age    : Nat
  deriving DecidableEq, Repr

/-- States of an FPT entry (R277); an unlisted entry is Free. -/
inductive FptSt where
  | pending | live | dead
  deriving DecidableEq, Repr

/-- An FPT entry (R276). -/
structure FptEntry where
  fp      : List Byte
  uaddr   : Nat
  domain  : Nat
  st      : FptSt
  indexed : Bool
  raw     : Bool
  group16 : Bool
  /-- References taken while Pending (R282). -/
  pendref : Nat
  heat    : Nat
  seq     : Nat
  crcBad  : Bool
  deriving DecidableEq, Repr

/-- A Shared Unit Table record (R283): references, and its link to an FPT entry. -/
structure SutRec where
  count : Nat
  fpt   : Option Nat
  deriving DecidableEq, Repr

/-- A fingerprint log record (R289). -/
structure LogRec where
  fp      : List Byte
  uaddr   : Nat
  domain  : Nat
  raw     : Bool
  group16 : Bool
  deriving DecidableEq, Repr

/-- The fingerprint index. -/
structure FiuState where
  /-- SRAM tag entries by segment, and their DRAM copy (R267, R273). -/
  tier1    : Tbl (List TagEntry)
  dcopy    : Tbl (List TagEntry)
  /-- Inserts and removals in progress: segment and FPT index (R269, R271). -/
  ins      : List (Nat × TagEntry)
  rem      : List Nat
  fpt      : Tbl FptEntry
  /-- Fingerprint log, newest first (R289). -/
  log      : List LogRec
  sut      : Tbl SutRec
  /-- Verified matches per domain. -/
  hits     : Tbl Nat
  scrubSeg : Nat
  refill   : Option Nat
  deriving DecidableEq, Repr

/-- An open 16 KiB group (R311). -/
structure Group16 where
  id      : Nat
  nsid    : Nat
  base    : Nat
  members : List Nat
  closed  : Bool
  deriving DecidableEq, Repr

/-- Compression. -/
structure CmpState where
  groups   : List Group16
  nextG    : Nat
  storeCtr : Nat
  inBytes  : Nat
  outBytes : Nat
  deriving DecidableEq, Repr

/-- States of a key slot (R341). -/
inductive KeySt where
  | loaded | restorePending | purging
  deriving DecidableEq, Repr

/-- A key slot that is not Empty (R339–R342). -/
structure KeySlot where
  st     : KeySt
  keyId  : Nat
  key    : List Byte
  /-- Stored wrapped copy and the slot of its wrap key (R342). -/
  stored : Option (List Byte × Nat)
  deriving DecidableEq, Repr

/-- A purge in progress (R348, R349): kind, slot, and the control block or format that waits. -/
structure Purge where
  kind : Nat
  slot : Nat
  mgmt : Option (Nat × Nat)
  fmt  : Option Nat
  deriving DecidableEq, Repr

/-- Keys. -/
structure CryState where
  data   : Tbl KeySlot
  dedup  : Tbl KeySlot
  wrap   : Tbl KeySlot
  /-- Generation of each slot, by kind times 65,536 plus slot (R341). -/
  gens   : Tbl Nat
  purges : List Purge
  deriving DecidableEq, Repr

/-- State of a digest context (R358). -/
inductive CtxSt where
  | waiting | active | open_
  deriving DecidableEq, Repr

/-- A digest context that is not Free (R357, R358, R370): its owner is the ring plus 1. -/
structure DgeCtx where
  st      : CtxSt
  owner   : Nat
  core    : Nat
  alg     : Nat
  /-- Message bytes taken so far. -/
  msg     : List Byte
  /-- The copy of its key, once a lane has taken it, and the slot and source it came from. -/
  keyCopy : Option (List Byte)
  keySlot : Nat
  keySrc  : Nat
  lane    : Option Nat
  job     : Option DgeDesc
  /-- Instant it entered its state, and whether it waits because it was suspended (R360, R362). -/
  since   : Nat
  susp    : Bool
  deriving DecidableEq, Repr

/-- The digest engine. -/
structure DgeState where
  ctx     : Tbl DgeCtx
  gens    : Tbl Nat
  /-- Why a freed context was cleared, for the next job that names it (R362, R364, R372, R373). -/
  cleared : Tbl Nat
  /-- Contexts Waiting in order; jobs waiting in their ring, for a Free context or for the job before them (R359,
  R360). -/
  wait    : List Nat
  first   : List (Nat × DgeDesc)
  jobKeys : Tbl (List Byte)
  deriving DecidableEq, Repr

/-- A measurement log entry (R379). -/
structure MrLog where
  mr     : Nat
  event  : Nat
  source : Nat
  time   : Nat
  digest : List Byte
  deriving DecidableEq, Repr

/-- A quote in progress or done (R384, R385): captured nonce, registers, log count and flags. -/
structure Quote where
  nonce : List Nat
  mrs   : List (List Byte)
  count : Nat
  flags : Nat
  deriving DecidableEq, Repr

/-- Measurement registers and log. -/
structure SecState where
  /-- MR0 to MR7 (R377). -/
  mr      : List (List Byte)
  mrCnt   : List Nat
  log     : List MrLog
  quote   : Option Quote
  msg     : List Byte
  sig     : List Byte
  devKey  : Bool
  attKey  : Bool
  deriving DecidableEq, Repr

end Sys2Proof.Machine
end

