-- ==== Sys2Proof/Machine/StateMedia.lean ====
section
/-! DEFINITION. State, part 4: map, map cache, bands and journal, parity, members and modules. -/

namespace Sys2Proof.Machine

/-- State of a map page in the page directory that differs from absent (R396, R397). -/
structure MapPage where
  epoch    : Nat
  nsid     : Nat
  page     : Nat
  /-- The page's identity: maps that share a page hold records with the same number and the same state (R528). -/
  pid      : Nat
  resident : Bool
  dirty    : Bool
  loading  : Bool
  writing  : Bool
  /-- ZERO: every entry is 0 and no page is held. -/
  zero     : Bool
  /-- Unit address of its copy on flash, 0 for none; of the copy being written; and the CSEQ of the first clause applied
  to it during that write (R409). -/
  flash    : Nat
  wrote    : Nat
  again    : Option Nat
  dirtyCseq : Nat
  /-- Instant of its last lookup, for eviction (R397). -/
  used     : Nat
  deriving DecidableEq, Repr

/-- The map of one epoch of one namespace: nonzero entries by unit (R394, R395); epoch 0 is the current map. -/
structure MapOf where
  epoch   : Nat
  nsid    : Nat
  entries : Tbl Nat
  deriving DecidableEq, Repr

/-- A journalled clause with its CSEQ (R405, R406), and the OUTCOME, UNIT and VALUE of its effect record (R570). -/
structure JClause where
  cseq   : Nat
  clause : Clause
  eff    : Nat × Nat × Nat
  deriving DecidableEq, Repr

/-- A 4 KiB clause block of the journal ring (R405, R408). -/
structure JBlock where
  no      : Nat
  first   : Nat
  last    : Nat
  sealed_ : Bool
  /-- Instant at sealing. -/
  time    : Nat
  /-- Address of its copy in the metadata band, 0 for none, and whether that copy is programmed (R408). -/
  copy    : Nat
  spilled : Bool
  deriving DecidableEq, Repr

/-- Band states (R416). -/
inductive BandSt where
  | open_ | sealed_ | collecting | erasing | forwarded
  deriving DecidableEq, Repr

/-- A band record (R415, R416). -/
structure Band where
  no       : Nat
  st       : BandSt
  d        : Nat
  p        : Nat
  k        : Nat
  cls      : Nat
  bseq     : Nat
  live     : Nat
  stripes  : Nat
  cbits    : Nat
  isMeta   : Bool
  isGc     : Bool
  reloc    : Bool
  short    : Bool
  degraded : Bool
  /-- Owned by this head; the peer's bands are known through its journal. -/
  mine     : Bool
  /-- Member and its K block numbers, by member position (R415, R440). -/
  members  : List (Nat × List Nat)
  fwd      : Nat
  /-- OPEN_CSEQ, and the chunks that patrol found wrong, by stripe and data position (R465). -/
  openCseq : Nat
  wrong    : List (Nat × Nat)
  deriving DecidableEq, Repr

/-- Erase block table entry that differs from what the module's record and the extents give (R418, R419): ERASES, STATE
(0 Free, 1 In band, 2 Pending erase, 3 Retired) and REASON. -/
structure EBlk where
  erases : Nat
  st     : Nat
  reason : Nat
  deriving DecidableEq, Repr

/-- A forward table entry (R428). -/
structure Fwd where
  old    : Nat
  new    : Nat
  remain : Nat
  deriving DecidableEq, Repr

/-- A collection in progress (R424–R427): victim, unit addresses still without a RELOCATE, and whether it is a rebuild
(R457). -/
structure Gc where
  band   : Nat
  units  : List Nat
  rebuild : Bool
  deriving DecidableEq, Repr

/-- A page back-pointer (R422): namespace, unit or a group's first unit, MASK, attribute generation, SEQ, COPY, SHARED and
FROM. -/
structure BackPtr where
  nsid : Nat
  unit : Nat
  mask : Nat
  gen  : Nat
  seq  : Nat
  copy : Bool
  shared : Bool
  src  : Nat
  deriving DecidableEq, Repr

/-- The checkpoint root last written (R410). -/
structure Root where
  gen      : Nat
  clean    : Bool
  low      : Nat
  next     : Nat
  storeCtr : Nat
  nextSeq  : Nat
  nextBseq : Nat
  time     : Nat
  /-- YM_FENCE of each module. -/
  fence    : List (Nat × Nat)
  deriving DecidableEq, Repr

/-- FTU. -/
structure FtuState where
  maps     : List MapOf
  pages    : List MapPage
  nextPid  : Nat
  csnext   : Nat
  capply   : Nat
  cack     : Nat
  /-- Clauses not yet covered by a checkpoint, oldest first, and their blocks. -/
  jrnl     : List JClause
  blocks   : List JBlock
  root     : Option Root
  /-- Instant of the last root on the local clock. -/
  rootAt   : Nat
  bands    : List Band
  eblk     : Tbl EBlk
  /-- Extents owned by the other head than the even and odd rule gives, by member times 65,536 plus extent. -/
  extents  : Tbl Bool
  fwd      : List Fwd
  relocQ   : List Nat
  gcs      : List Gc
  nextBseq : Nat
  /-- Back-pointers of stored units, by unit address with MEMBER 0 (R421, R422). -/
  back     : Tbl BackPtr
  gcOn     : Bool
  urgent   : Bool
  admitStop : Bool
  deriving DecidableEq, Repr

/-- A cached map line (R399, R402). -/
structure McaLine where
  epoch : Nat
  nsid  : Nat
  line  : Nat
  /-- CSEQ of its oldest clause not written back; none clean. -/
  dirty : Option Nat
  way   : Nat
  victim : Bool
  pref  : Bool
  deriving DecidableEq, Repr

/-- A miss of the map cache (R400): outstanding, or waiting for its bank. -/
structure McaMiss where
  epoch  : Nat
  nsid   : Nat
  line   : Nat
  demand : Bool
  waiting : Bool
  deriving DecidableEq, Repr

/-- The map cache. -/
structure McaState where
  lines  : List McaLine
  misses : List McaMiss
  /-- Way groups gated, and those of them that the hardware gated itself (R403). -/
  off      : List Nat
  auto     : List Nat
  /-- Replay after a reset in progress: from which CSEQ (R404). -/
  replay   : Option Nat
  /-- The line of the last map update (R407). -/
  last     : Option (Nat × Nat × Nat)
  /-- The microsecond of the last lookup, lookups in it, and the instant IDLE_RATE was last reached (R403). -/
  rateAt   : Nat
  rateN    : Nat
  busyAt   : Nat
  deriving DecidableEq, Repr

/-- State of a chunk of a stripe in flight (R443, R446). -/
inductive ChunkSt where
  | open_ | sent | accepted | programmed | failed
  deriving DecidableEq, Repr

/-- A stripe journal record with its chunks (R445, R446). -/
structure Stripe where
  band    : Nat
  no      : Nat
  chunks  : List ChunkSt
  dataEnd : Nat
  /-- Its unit stream (R393), and its page back-pointers with their OFFSET (R421). -/
  stream  : List Byte
  items   : List (Nat × BackPtr)
  parity  : Bool
  early   : Bool
  closed  : Bool
  degraded : Bool
  /-- Instant a unit of an FUA write or pending Flush entered (R212). -/
  dueAt   : Option Nat
  /-- PAR holds its accumulators; and it is being completed from its record (R449). -/
  held    : Bool
  recover : Bool
  isMeta  : Bool
  isGc    : Bool
  deriving DecidableEq, Repr

/-- State of a member (R454). -/
inductive MemSt where
  | absent | present | retiring | failed | released
  deriving DecidableEq, Repr

/-- A member of the pair (R451–R454). -/
structure Member where
  st       : MemSt
  serial   : Nat
  timeouts : List Nat
  arounds  : Nat
  declared : Nat
  downAt   : Option Nat
  /-- It has reported a fatal status, or a command has exceeded ten times its timeout (R453). -/
  fatal    : Bool
  deriving DecidableEq, Repr

/-- A lost-extent record (R462). -/
structure LostRec where
  nsid  : Nat
  unit  : Nat
  count : Nat
  time  : Nat
  epoch : Nat
  cause : Nat
  recon : Bool
  deriving DecidableEq, Repr

/-- Rebuild of one member (R456–R458). -/
structure Rebuild where
  member : Nat
  started : Bool
  dueAt  : Nat
  deriving DecidableEq, Repr

/-- PAR. -/
structure ParState where
  stripes : List Stripe
  members : Tbl Member
  lost    : List LostRec
  rebuilds : List Rebuild
  /-- Classes with no band to open (R438). -/
  blocked : List Nat
  /-- Patrol: stripes done in this sweep, and the instant its period began (R464). -/
  swept   : List (Nat × Nat)
  sweepAt : Nat
  deriving DecidableEq, Repr

/-- What a module command was sent for. -/
inductive YmFor where
  | read (r pos : Nat)
  | program (band stripe pos : Nat)
  | erase (band : Nat)
  | badList
  | fence (compare swap : Nat)
  deriving DecidableEq, Repr

/-- A module command outstanding (R475–R478, R489, R492). -/
structure YmCmd where
  m        : Nat
  q        : Nat
  cid      : Nat
  opc      : Nat
  gen      : Nat
  block    : Nat
  pu       : Nat
  /-- First codeword and count of a READ, and its RETRY set (R478). -/
  cw       : Nat
  cws      : Nat
  retry    : Nat
  for_     : YmFor
  issued   : Nat
  accepted : Bool
  late     : Bool
  /-- Resubmitted once after DATA_XFER_ERROR (R489). -/
  again    : Bool
  deriving DecidableEq, Repr

/-- A compare-and-swap of YM_FENCE in flight or done (R492, R580). -/
structure Cas where
  m       : Nat
  compare : Nat
  swap    : Nat
  /-- Swap values this head has tried before on this module; and when the present one was issued. -/
  tried   : List Nat
  at_     : Nat
  done    : Bool
  won     : Bool
  deriving DecidableEq, Repr

/-- Module ports. -/
structure ModsState where
  mir     : Tbl ModRec
  cmds    : List YmCmd
  /-- Commands that wait for room in their queue, for a fence or for a link (R475, R492). -/
  waiting : List YmCmd
  cas     : List Cas
  /-- Members that hold the system-area records (R498). -/
  sysRecs : List Nat
  deriving DecidableEq, Repr

end Sys2Proof.Machine
end

