-- ==== Sys2Proof/Machine/StatePair.lean ====
section
/-! DEFINITION. State, part 5: Ephemeris, snapshots and replication, the pair, start-up and firmware. -/

namespace Sys2Proof.Machine

/-- Kinds of Ephemeris entry (R515). -/
inductive EntKind where
  | snapCut | replCut | txn | winGc | winPatrol | winDedup
  deriving DecidableEq, Repr

/-- An Ephemeris entry (R515, R517). -/
structure Entry where
  no      : Nat
  kind    : EntKind
  start   : Nat
  next    : Nat
  period  : Nat
  /-- Firings left; 0 without limit. -/
  left    : Nat
  skipLate : Bool
  requireTime : Bool
  /-- Cut handle, stream slot, transaction or window it refers to. -/
  ref     : Nat
  /-- The peer owns its objects (R519). -/
  dormant : Bool
  deriving DecidableEq, Repr

/-- What an entry number has done (EPH_ENT_LAST, EPH_ENT_RES): 0 none, 1 fired, 2 late, 3 skipped. -/
structure EntDone where
  result  : Nat
  firings : Nat
  last    : Nat
  deriving DecidableEq, Repr

/-- A cut handle (R516, R521, R533); the control block that waits for its epochs, with the status of skipped ones and the
instant of the firing. -/
structure CutDef where
  no      : Nat
  nsids   : List Nat
  groupId : Nat
  retain  : Nat
  mgmt    : Option (Nat × Nat)
  status  : Nat
  time    : Nat
  /-- Namespace and epoch of each namespace named, as the data buffer shows them. -/
  got     : List (Nat × Nat)
  deriving DecidableEq, Repr

/-- States of an epoch (R529, R530). -/
inductive EpochSt where
  | pending | ready | deleting
  deriving DecidableEq, Repr

/-- An epoch record (R530). -/
structure Epoch where
  no       : Nat
  nsid     : Nat
  /-- Position in the namespace's epoch list (R530, R531). -/
  slot     : Nat
  cutSeq   : Nat
  instant  : Nat
  groupId  : Nat
  st       : EpochSt
  /-- INTERNAL for replication, RECEIVED on a target (R541, R543). -/
  internal : Bool
  received : Bool
  retain   : Nat
  late     : Bool
  /-- TIME_UNCERTAIN, and the Ephemeris entry that cut it; 65,535 for none (R530). -/
  unsure   : Bool
  sched    : Nat
  clones   : Nat
  mgmt     : Option (Nat × Nat)
  deriving DecidableEq, Repr

/-- Time, Ephemeris and epochs. -/
structure EphState where
  /-- EPH time in ns; ticks while STATE is not Unset (R508, R510). -/
  time    : Nat
  /-- Good updates in a row, slew left in ns, estimated error (R511, R512). -/
  good    : Nat
  slew    : Int
  terr    : Nat
  holdSince : Option Nat
  lastPps : Option Nat
  /-- Instant the set request was made (R513). -/
  setAt   : Option Nat
  entries : List Entry
  past    : Tbl EntDone
  cuts    : List CutDef
  /-- Windows open and their ends (R520). -/
  open_   : List (Nat × Nat)
  /-- Epochs whose cut's guard runs, with its end (R526). -/
  guards  : List (Nat × Nat)
  epochs  : List Epoch
  reserve : List Nat
  nextCut : Nat
  deriving DecidableEq, Repr

/-- States of a replication stream (R540). -/
inductive StreamSt where
  | setup | initial | active | fractured | broken
  deriving DecidableEq, Repr

/-- A replication connection (R544–R547): its CONN_NONCE and CONN_ID, the namespaces whose dedup keys are equal at both ends, and
the FSEQ last sent and received. -/
structure ReplConn where
  conn    : Nat
  slot    : Nat
  up      : Bool
  nonce   : List Byte
  connId  : Nat
  fpOk    : List Nat
  txSeq   : Nat
  rxSeq   : Nat
  lastRx  : Nat
  lastTx  : Nat
  deriving DecidableEq, Repr

/-- A replication stream (R538–R550). -/
structure Stream where
  slot    : Nat
  body    : ReplBody
  /-- This head runs it; on the other it is dormant (R519, R539). -/
  mine    : Bool
  st      : StreamSt
  mac     : List Byte
  xfer    : List Byte
  /-- Source: base epoch per local namespace and the instant of its cut; the cut in transfer with its epochs; whether its
  frames are going out, units whose fingerprints wait to be sent, the FP_BATCH records not answered by FSEQ, and units sent as data,
  as duplicates and as unmapped (R541–R543). -/
  base    : List (Nat × Nat)
  baseAt  : Nat
  cut     : Option (Nat × List (Nat × Nat))
  sending : Bool
  fpq     : List (Nat × Nat)
  batches : List (Nat × List (Nat × Nat))
  nData   : Nat
  nDup    : Nat
  nUnmap  : Nat
  /-- Target: the cut being received, and units that a SYNC_WRITE wrote since it began (R543, R549). -/
  rcut    : Option Nat
  synced  : List (Nat × Nat)
  skipped : Nat
  /-- The fracture set, (nsid, unit) (R549). -/
  changed : List (Nat × Nat)
  sent    : Nat
  saved   : Nat
  lastCut : Nat
  /-- SYNC_WRITEs waiting for their SYNC_ACK: REF, handle and instant sent (R548). -/
  acks    : List (Nat × Nat × Nat)
  /-- Instant of the last attempt to connect, by port, and attempts in a row that failed authentication (R540, R547). -/
  tried   : Tbl Nat
  authBad : Nat
  deriving DecidableEq, Repr

/-- Replication. -/
structure ReplState where
  streams : List Stream
  conns   : List ReplConn
  deriving DecidableEq, Repr

/-- A Troys packet sent and not acknowledged (R558): its link, 2 while it waits for credit or a link. -/
structure Sent where
  ch   : Nat
  cseq : Nat
  link : Nat
  len  : Nat
  what : TroysOut
  deriving DecidableEq, Repr

/-- A channel of the pair (R557, R558): the next CSEQ to send, the last CSEQ taken, and the credit granted, if any was. -/
structure Chan where
  next   : Nat
  taken  : Nat
  credit : Option Nat
  deriving DecidableEq, Repr

/-- An active window of a link (R560, R561). -/
structure Win where
  base : Nat
  size : Nat
  deriving DecidableEq, Repr

/-- This head's role (R643, R574). -/
inductive Role where
  | none_ | serving | alone | standby | joining
  deriving DecidableEq, Repr

/-- A command forwarded to the peer (R28, R564). -/
structure FwdCmd where
  tag : Nat
  h   : Nat
  deriving DecidableEq, Repr

/-- A takeover in progress (R577–R582): its cause, the instant of detection, whether the fences are issued, and whether head 1
waits out the stagger. -/
structure Eclipse where
  cause    : Nat
  at_      : Nat
  fenced   : Bool
  stagger  : Bool
  deriving DecidableEq, Repr

/-- A digest window not yet answered or, of the peer's, not yet compared (R569–R573). -/
structure DigWin where
  first : Nat
  count : Nat
  cdig  : List Byte
  mdig  : List Byte
  at_   : Nat
  late  : Bool
  deriving DecidableEq, Repr

/-- An OWNERSHIP_MOVE in progress (R587, R588). -/
structure Move where
  q      : Nat
  tag    : Nat
  groups : List Nat
  deriving DecidableEq, Repr

/-- The pair. -/
structure PairState where
  chans   : Tbl Chan
  /-- Packets sent and not acknowledged, oldest first. -/
  sent    : List Sent
  wins    : Tbl Win
  role    : Role
  joined  : Bool
  /-- UCODE_VER of the JOIN record accepted last (R565, R658). -/
  peerUcode : Nat
  fwd     : List FwdCmd
  nextFwd : Nat
  /-- The mirror half as stored, by window and 4 KiB page, and slots that a resynchronisation copy has brought ahead of their
  descriptors (R560, R585). -/
  mirMem  : Tbl (List Byte)
  copied  : Tbl (List Byte)
  /-- The peer's clauses as received, how far the shadow map has applied them, and its root (R567). -/
  peerJ   : List JClause
  peerApplied : Nat
  peerRoot : Option Root
  shadow  : Bool
  caughtUp : Bool
  peerCaughtUp : Bool
  /-- Mode dropped by arbitration (R33, R38). -/
  arbDrop : Bool
  /-- The window in arbitration: its stream's owner and first CSEQ (R571). -/
  arb     : Option (Nat × Nat)
  /-- Own windows not answered, the peer's digests waiting for their clauses, the CSEQ from which the next own window runs, when the
  last one closed, and the last digest of the peer (R569, R573, R592). -/
  ownWins : List DigWin
  peerWins : List DigWin
  nextWin : Nat
  winAt   : Nat
  lastDig : Option Nat
  ecl     : Option Eclipse
  /-- A resynchronisation in which this head is the server: whether the copy has been sent (R585). -/
  resync  : Option Bool
  move    : Option Move
  /-- A MODE_RESTORE that waits (R590). -/
  restore : Option (Nat × Nat)
  /-- Heartbeat words sent, and when the last one was (R574). -/
  hbSeq   : Nat
  hbTx    : Option Nat
  /-- Instant of the last valid heartbeat word (R575). -/
  hbAt    : Option Nat
  /-- CONTROL messages queued while Severed (R576). -/
  queued  : List TroysOut
  deriving DecidableEq, Repr

/-- A firmware image by its header (R650), with its bytes; `ok` when every condition of R651 holds of them that does not depend on the
fuses. -/
structure FwImage where
  kind    : Nat
  keyId   : Nat
  version : Nat
  peerMin : Nat
  peerMax : Nat
  counter : Nat
  setVer  : Nat
  setMin  : Nat
  id      : Nat
  bytes   : List Byte
  ok      : Bool
  deriving DecidableEq, Repr

/-- A transfer of pieces into staging (R653–R657): the header, the image's length, the pieces stored. -/
structure FwStage where
  img    : FwImage
  total  : Nat
  pieces : Tbl (List Byte)
  deriving DecidableEq, Repr

/-- Start-up, images, firmware and settings. -/
structure BldState where
  hir      : Option Hir
  /-- The RETAIN record in DRAM, the image headers in the vault, and CONSUMED_GEN (R637); the last dump began and wrote no valid
  header (R647). -/
  retain   : Option ImageHdr
  vault    : List ImageHdr
  consumed : Nat
  dumpOpen : Bool
  /-- The own and the mirror half as the source of the write buffer holds them, by slot number (R635, R638). -/
  imgOwn   : Tbl Slot
  imgMir   : Tbl Slot
  /-- Fuses: Device Serial Number, lifecycle, anti-rollback counters, revoked keys, JTAG allowed (R381, R651, R652). -/
  dsn      : Nat
  lifecycle : Nat
  arb      : Tbl Nat
  revoked  : List Nat
  jtagOk   : Bool
  /-- Images in the boot flash slots and the reserve copies, by KIND; unlisted, the image the head was delivered with (R648,
  R649). -/
  slots    : Tbl FwImage
  reserve  : Tbl FwImage
  /-- The update record (R656): its transfer, STATE, STARTS and OUTCOME, the outcome of a failed trial, and the instant the boot
  watchdog expires (R663). -/
  stage    : Option FwStage
  fwSt     : Nat
  starts   : Nat
  outcome  : Nat
  why      : Nat
  wdogAt   : Option Nat
  /-- Settings copies and the block in use (R666, R667). -/
  setA     : Option Settings
  setB     : Option Settings
  running  : Option Settings
  /-- Microcode running: its version, the peer versions it accepts; the settings format it writes (R650, R669). -/
  ucode    : Nat
  peerMin  : Nat
  peerMax  : Nat
  setVer   : Nat
  /-- Instant stage 7 began, and the head adopts the peer's groups (R641, R644). -/
  stageAt  : Nat
  adopt    : Bool
  deriving DecidableEq, Repr

end Sys2Proof.Machine
end

