-- ==== Sys2Proof/Machine/State.lean ====
section
/-! DEFINITION. State: everything the spec gives the machine, as plain data, with the queue of waiting commands; and
State.reset, Fault and Refusal. -/

namespace Sys2Proof.Machine

/-- The head. -/
structure State where
  /-- Local interval clock in ns, from REFCLK_SYS, in steps of 8 (R508, R606). -/
  now   : Nat
  regs  : RegFile
  txn   : TxnState
  mgmt  : MgmtState
  fco   : FcoState
  evr   : EvrState
  pwc   : PwcState
  pins  : Pins
  ports : PortsState
  hqe   : HqeState
  fab   : FabState
  wb    : WbState
  fiu   : FiuState
  cmp   : CmpState
  cry   : CryState
  dge   : DgeState
  sec   : SecState
  ftu   : FtuState
  mca   : McaState
  par   : ParState
  mods  : ModsState
  eph   : EphState
  repl  : ReplState
  pair  : PairState
  bld   : BldState
  /-- What the head has sent, newest first (the model's own). -/
  out   : List Out
  /-- The draw counter of the free values (the model's own). -/
  free  : Nat
  /-- Commands waiting, first in first out. -/
  pending : List Instr
  deriving DecidableEq, Repr

/-- Why a run stops with a fault. No command of this block does: every row has an effect in the spec. -/
inductive Fault where
  /-- Raised by no command; kept so that the type has a member. Safe. -/
  | none_
  deriving DecidableEq, Repr

/-- Why a command has no meaning. -/
inductive Refusal where
  /-- Raised by an arm of exec whose command the model does not cover yet. Safe. -/
  | notModelled (mnemonic : String)
  deriving DecidableEq, Repr

/-- 48 zero bytes. -/
def zero48 : List Byte := List.replicate 48 0

/-- The machine right after a power cycle, at the release of cold reset: every register field at its reset value,
every store empty (R617, R628); PAR_CLASS_CFG.EN of the selected
class 0 reads 1 (R466). The values the spec does not state are named in the assumption log.
[DESIGN CHOICE: log entry 1] -/
def State.reset : State where
  now  := 0
  regs := { cur := [], shd := [(0x305048 * 32 + 16, 1)], act := [(0x305048 * 32 + 16, 1)], bank := [], caps := [], cnt := [], latchHi := [], armed := [] }
  txn  := { sched := [], holding := none }
  mgmt := { queues := [], cmds := [] }
  fco  := { grave := none, incs := [], hist := [], laneOff := [], laneRst := [], armAt := none }
  evr  := { recs := [], buckets := [] }
  pwc  := { held := false, railsOut := [], clocksOut := [], inputOk := true, moving := [], gated := [], toState := none,
            temps := List.replicate 16 0, sensedAt := 0, failed := [], cool1 := none, cool2 := none, dumping := false, dumpAt := 0,
            stopping := false }
  pins := { faultN := true, thermTripN := true, ppsOut := false, idle := true,
            peerFaultN := true, peerPresent := true, headSel := 0 }
  ports := { port := [], fns := [], reads := [] }
  hqe  := { ctls := [], sqs := [], cqs := [], cmds := [], nextH := 1, buckets := [], ns := [], groups := [],
            binds := [], reserving := [], progress := [], sanFail := none, sanMgmt := none, psTo := none,
            nextSeq := 1, wbHold := false, planeHold := false }
  fab  := { conns := [], nextConn := 1, announce := [], paused := [] }
  wb   := { own := [], mir := [], alone := false, filter := [], units := [], relWait := [], nextU := 1, reads := [], nextR := 1 }
  fiu  := { tier1 := [], dcopy := [], ins := [], rem := [], fpt := [], log := [], sut := [], hits := [],
            scrubSeg := 0, refill := none }
  cmp  := { groups := [], nextG := 1, storeCtr := 0, inBytes := 0, outBytes := 0 }
  cry  := { data := [], dedup := [], wrap := [], gens := [], purges := [] }
  dge  := { ctx := [], gens := [], cleared := [], wait := [], first := [], jobKeys := [] }
  sec  := { mr := List.replicate 8 zero48, mrCnt := List.replicate 8 0, log := [], quote := none, msg := [], sig := [],
            devKey := true, attKey := true }
  ftu  := { maps := [], pages := [], nextPid := 1, csnext := 1, capply := 1, cack := 1, jrnl := [], blocks := [], root := none, rootAt := 0,
            bands := [], eblk := [], extents := [], fwd := [], relocQ := [], gcs := [], nextBseq := 1,
            back := [], gcOn := false, urgent := false, admitStop := false }
  mca  := { lines := [], misses := [], off := [], auto := [], replay := none, last := none, rateAt := 0, rateN := 0, busyAt := 0 }
  par  := { stripes := [], members := [], lost := [], rebuilds := [], blocked := [], swept := [], sweepAt := 0 }
  mods := { mir := [], cmds := [], waiting := [], cas := [], sysRecs := [] }
  eph  := { time := 0, good := 0, slew := 0, terr := 0, holdSince := none, lastPps := none,
            setAt := none, entries := [], past := [], cuts := [], open_ := [], guards := [], epochs := [], reserve := [],
            nextCut := 1 }
  repl := { streams := [], conns := [] }
  pair := { chans := [], sent := [], wins := [], role := .none_, joined := false, peerUcode := 0, fwd := [], nextFwd := 1,
            mirMem := [], copied := [], peerJ := [], peerApplied := 1, peerRoot := none, shadow := false, caughtUp := false,
            peerCaughtUp := false, arbDrop := false, arb := none, ownWins := [], peerWins := [], nextWin := 1, winAt := 0,
            lastDig := none, ecl := none, resync := none, move := none, restore := none, hbSeq := 0, hbTx := none, hbAt := none, queued := [] }
  bld  := { hir := none, retain := none, vault := [], consumed := 0, dumpOpen := false, imgOwn := [], imgMir := [], dsn := 0,
            lifecycle := 1, arb := [], revoked := [], jtagOk := false, slots := [], reserve := [], stage := none, fwSt := 0, starts := 0,
            outcome := 0, why := 0, wdogAt := none, setA := none, setB := none, running := none, ucode := 0, peerMin := 0, peerMax := 0,
            setVer := 0, stageAt := 0, adopt := false }
  out  := []
  free := 0
  pending := []

end Sys2Proof.Machine
end

