-- ==== Sys2Proof/Machine/Operands.lean ====
section
/-! DEFINITION. Registers: where blocks lie, the header fields, reading and writing fields, words and commits, and the
decoding of BAR0 addresses (R48–R71). -/

namespace Sys2Proof.Machine

/-! Blocks (R17, R49, R50, R594). -/

/-- BAR0 address of page 0 of a block (R49, R50). -/
def base (b : Block) : Nat :=
  match b with
  | .cpc => 0x0 | .fco => 0x2000 | .evr => 0x3000 | .eph => 0x4000 | .bld => 0x6000 | .sec => 0x7000 | .pwc => 0x9000
  | .hpe n => 0x100000 + 0x1000 * n | .mge => 0x104000 | .fab n => 0x108000 + 0x1000 * n | .toe => 0x10C000
  | .hqe => 0x110000
  | .dge => 0x200000 | .fiu => 0x204000 | .cmp => 0x208000 | .cry => 0x20C000
  | .ftu => 0x300000 | .mca => 0x304000 | .par => 0x305000 | .ldc => 0x306000 | .vlt => 0x308000
  | .mpt n => 0x320000 + 0x1000 * n
  | .tl n => 0x400000 + 0x1000 * n | .mir => 0x402000 | .ocu => 0x403000 | .hbu => 0x404000
  | .dmc n => 0x500000 + 0x1000 * n | .stg => 0x50C000 | .noc => 0x50D000
  | .wsp w => 0xFF000 + 0x100000 * w

/-- Pages per instance (R50). -/
def pages (b : Block) : Nat :=
  match b with
  | .cpc | .eph | .sec | .toe | .dge | .cry | .ldc => 2
  | .hqe | .fiu | .cmp | .ftu => 4
  | _ => 1

/-- Block code (R50). -/
def blockCode (b : Block) : Nat :=
  match b with
  | .cpc => 0x01 | .fco => 0x02 | .evr => 0x03 | .eph => 0x04 | .bld => 0x05 | .sec => 0x06 | .pwc => 0x07
  | .hpe _ => 0x10 | .mge => 0x11 | .fab _ => 0x12 | .toe => 0x13 | .hqe => 0x14
  | .dge => 0x20 | .fiu => 0x21 | .cmp => 0x22 | .cry => 0x23
  | .ftu => 0x30 | .mca => 0x31 | .par => 0x32 | .ldc => 0x33 | .mpt _ => 0x34 | .vlt => 0x35
  | .tl _ => 0x40 | .mir => 0x41 | .ocu => 0x42 | .hbu => 0x43
  | .dmc _ => 0x50 | .stg => 0x51 | .noc => 0x52
  | .wsp w => 0x0F + 16 * w

/-- Instance number (R8, R50). -/
def inst (b : Block) : Nat :=
  match b with
  | .hpe n | .fab n | .mpt n | .tl n | .dmc n => n
  | _ => 0

/-- The instance exists on this part (R50). -/
def exists_ (b : Block) : Bool :=
  match b with
  | .hpe n | .fab n => n < 4
  | .mpt n => n < 32
  | .tl n => n < 2
  | .dmc n => n < 12
  | .wsp w => w < 6
  | _ => true

/-- The plane of a block (R17). -/
def planeOf (b : Block) : Plane :=
  match b with
  | .cpc | .fco | .evr | .eph | .bld | .sec | .pwc => .control
  | .hpe _ | .mge | .fab _ | .toe | .hqe => .host
  | .dge | .fiu | .cmp | .cry => .reduction
  | .ftu | .mca | .par | .ldc | .vlt | .mpt _ => .media
  | .tl _ | .mir | .ocu | .hbu => .pair
  | .dmc _ | .stg | .noc => .memory
  | .wsp w => [Plane.control, .host, .reduction, .media, .pair, .memory].getD w .control

/-- Window of a plane (R49). -/
def windowOf (b : Block) : Nat := base b / 0x100000

/-- Every block of a plane (R17). -/
def blocksOf (p : Plane) : List Block :=
  match p with
  | .control => [.cpc, .fco, .evr, .eph, .bld, .sec, .pwc]
  | .host => [.hpe 0, .hpe 1, .hpe 2, .hpe 3, .mge, .fab 0, .fab 1, .fab 2, .fab 3, .toe, .hqe]
  | .reduction => [.dge, .fiu, .cmp, .cry]
  | .media => [.ftu, .mca, .par, .ldc, .vlt] ++ (List.range 32).map Block.mpt
  | .pair => [.tl 0, .tl 1, .mir, .ocu, .hbu]
  | .memory => (List.range 12).map Block.dmc ++ [.stg, .noc]

/-- The plane whose window is `w`. -/
def planeAt (w : Nat) : Plane := planeOf (.wsp w)

/-- FCO_LATCH bit of a block (R594); 63 for the summary pages, which have no error line. -/
def latchBit (b : Block) : Nat :=
  match b with
  | .cpc => 0 | .fco => 1 | .evr => 2 | .eph => 3 | .bld => 4 | .sec => 5 | .pwc => 6
  | .hpe n => 8 + n | .mge => 12 | .fab n => 13 + n | .toe => 17 | .hqe => 18
  | .dge => 20 | .fiu => 21 | .cmp => 22 | .cry => 23
  | .ftu => 24 | .mca => 25 | .par => 26 | .ldc => 27 | .vlt => 28 | .mpt n => 29 + n / 8
  | .tl n => 33 + n | .mir => 35 | .ocu => 36 | .hbu => 37
  | .dmc n => 38 + n / 6 | .stg => 40 | .noc => 41
  | .wsp _ => 63

/-- The block and page index at a BAR0 address; none for a page that is not present (R48–R51). -/
def blockAt (addr : Nat) : Option (Block × Nat) :=
  let w := addr / 0x100000
  let p := addr / 0x1000 % 256
  if 6 ≤ w then none
  else if p = 255 then some (.wsp w, 0)
  else match w with
  | 0 => match p with
    | 0 => some (.cpc, 0) | 1 => some (.cpc, 1) | 2 => some (.fco, 0) | 3 => some (.evr, 0) | 4 => some (.eph, 0)
    | 5 => some (.eph, 1) | 6 => some (.bld, 0) | 7 => some (.sec, 0) | 8 => some (.sec, 1) | 9 => some (.pwc, 0)
    | _ => none
  | 1 =>
    if p < 4 then some (.hpe p, 0) else if p = 4 then some (.mge, 0)
    else if 8 ≤ p ∧ p < 12 then some (.fab (p - 8), 0)
    else if 12 ≤ p ∧ p < 14 then some (.toe, p - 12)
    else if 16 ≤ p ∧ p < 20 then some (.hqe, p - 16) else none
  | 2 =>
    if p < 2 then some (.dge, p) else if 4 ≤ p ∧ p < 8 then some (.fiu, p - 4)
    else if 8 ≤ p ∧ p < 12 then some (.cmp, p - 8)
    else if 12 ≤ p ∧ p < 14 then some (.cry, p - 12) else none
  | 3 =>
    if p < 4 then some (.ftu, p) else if p = 4 then some (.mca, 0) else if p = 5 then some (.par, 0)
    else if 6 ≤ p ∧ p < 8 then some (.ldc, p - 6) else if p = 8 then some (.vlt, 0)
    else if 32 ≤ p ∧ p < 64 then some (.mpt (p - 32), 0) else none
  | 4 =>
    if p < 2 then some (.tl p, 0) else if p = 2 then some (.mir, 0) else if p = 3 then some (.ocu, 0)
    else if p = 4 then some (.hbu, 0) else none
  | _ =>
    if p < 12 then some (.dmc p, 0) else if p = 12 then some (.stg, 0) else if p = 13 then some (.noc, 0) else none

/-! The common page header (R54): fields by block and page. -/

namespace H

/-- Address of a page of a block. -/
def page (b : Block) (pg : Nat) : Nat := base b + 0x1000 * pg

/-- HDR_CTRL.EN (R56): RO and 1 in Memory, Control and summary pages. -/
def en (b : Block) : Fld :=
  ⟨base b + 8, 0, 0, match planeOf b, b with
    | .control, _ | .memory, _ | _, .wsp _ => 1
    | _, _ => 0, false⟩
def viewActive (b : Block) (pg : Nat) : Fld := ⟨page b pg + 8, 4, 4, 0, false⟩
def txn (b : Block) (pg : Nat) : Fld := ⟨page b pg + 8, 5, 5, 0, false⟩
def txnId (b : Block) (pg : Nat) : Fld := ⟨page b pg + 8, 15, 8, 0, false⟩
def run (b : Block) : Fld := ⟨base b + 0xC, 0, 0, 0, false⟩
def rstBusy (b : Block) : Fld := ⟨base b + 0xC, 1, 1, 0, false⟩
def state (b : Block) : Fld := ⟨base b + 0xC, 15, 12, 0, false⟩
def commitSeq (b : Block) (pg : Nat) : Fld := ⟨page b pg + 0xC, 31, 16, 0, false⟩
def errStat (b : Block) : Fld := ⟨base b + 0x10, 31, 0, 0, false⟩
def errMask (b : Block) : Fld := ⟨base b + 0x14, 31, 0, 0, false⟩
def classMap (b : Block) : Fld := ⟨base b + 0x18, 31, 0, 0, false⟩
/-- INT_STAT [31:1]; bit 0 is computed (R57). -/
def intStat (b : Block) : Fld := ⟨base b + 0x20, 31, 0, 0, false⟩
def intEn (b : Block) : Fld := ⟨base b + 0x24, 31, 0, 0, false⟩
def pwrReq (b : Block) : Fld := ⟨base b + 0x28, 1, 0, 0, false⟩
def pwrAuto (b : Block) : Fld := ⟨base b + 0x28, 2, 2, 0, false⟩
def pwrState (b : Block) : Fld := ⟨base b + 0x2C, 1, 0, 0, false⟩
def pwrMoving (b : Block) : Fld := ⟨base b + 0x2C, 2, 2, 0, false⟩
def cntEvent (b : Block) : Fld := ⟨base b + 0x30, 7, 0, 0, false⟩
def cntFreeze (b : Block) : Fld := ⟨base b + 0x30, 8, 8, 0, false⟩
def spare (b : Block) : Fld := ⟨base b + 0x3C, 31, 0, 0, false⟩

end H

/-! Fields. -/

/-- Key of a field in the tables of `RegFile`. -/
def fkey (f : Fld) : Nat := f.addr * 32 + f.lo

/-- A value cut to the field's width. -/
def ftrunc (f : Fld) (v : Nat) : Nat := v % 2 ^ (f.hi - f.lo + 1)

/-- The value a block uses: the active copy of a shadowed field (R64). -/
def getF (f : Fld) (s : State) : Nat := tget (if f.sh then s.regs.act else s.regs.cur) (fkey f) f.reset

/-- The value a register read returns by default: the shadow copy of a shadowed field (R64). -/
def peekF (f : Fld) (s : State) : Nat := tget (if f.sh then s.regs.shd else s.regs.cur) (fkey f) f.reset

/-- A one-bit field that reads 1. -/
def onF (f : Fld) (s : State) : Bool := getF f s = 1

/-- The hardware or a driver sets a field: an unshadowed field takes effect at once; of a shadowed one, the shadow
copy (R64). -/
def setF (f : Fld) (v : Nat) (s : State) : State :=
  if f.sh then { s with regs.shd := tput s.regs.shd (fkey f) (ftrunc f v) f.reset }
  else { s with regs.cur := tput s.regs.cur (fkey f) (ftrunc f v) f.reset }

/-- Microcode loads a shadowed field: both copies (R184). -/
def loadF (f : Fld) (v : Nat) (s : State) : State :=
  { s with regs.shd := tput s.regs.shd (fkey f) (ftrunc f v) f.reset,
           regs.act := tput s.regs.act (fkey f) (ftrunc f v) f.reset }

/-- Set or clear a one-bit field. -/
def flagF (f : Fld) (v : Bool) (s : State) : State := setF f (b2n v) s

/-- Increment a counting field, stopping at its largest value. -/
def incSatF (f : Fld) (n : Nat) (s : State) : State :=
  setF f (min (getF f s + n) (2 ^ (f.hi - f.lo + 1) - 1)) s

/-- Increment a counting field modulo its width. -/
def incF (f : Fld) (s : State) : State := setF f (getF f s + 1) s

/-- A pair of low and high words as one number. -/
def get64 (lo hi : Fld) (s : State) : Nat := getF lo s + 0x100000000 * getF hi s
def set64 (lo hi : Fld) (v : Nat) (s : State) : State := setF hi (v / 0x100000000) (setF lo v s)

/-- Active record `i` behind an index register (R246, R295, R466, R561). -/
def bankF (f : Fld) (i : Nat) (dflt : Nat) (s : State) : Nat := tget s.regs.bank (65536 * fkey f + i) dflt
def setBankF (f : Fld) (i v dflt : Nat) (s : State) : State :=
  { s with regs.bank := tput s.regs.bank (65536 * fkey f + i) (ftrunc f v) dflt }

/-! Block states (R55, R56). -/

/-- The block is in STATE 2 Run. -/
def running (b : Block) (s : State) : Bool := getF (H.state b) s = 2

/-- The block is in STATE 5 Reset or 7 Fault. -/
def blockDown (b : Block) (s : State) : Bool := getF (H.state b) s = 5 || getF (H.state b) s = 7

/-- Some block of the plane is in reset or fault. -/
def planeDown (p : Plane) (s : State) : Bool := (blocksOf p).any fun b => blockDown b s

/-- Put a block into a STATE, with RUN as that state has it. -/
def setState (b : Block) (v : Nat) (s : State) : State := flagF (H.run b) (v == 2) (setF (H.state b) v s)

/-! Captured commits (R64–R71). -/

/-- Keys of a page run from here to the next page. -/
def pageLo (b : Block) (pg : Nat) : Nat := H.page b pg * 32
def pageHi (b : Block) (pg : Nat) : Nat := (H.page b pg + 0x1000) * 32

/-- The capture a page holds. -/
def capOf (b : Block) (pg : Nat) (s : State) : Option Capture :=
  s.regs.caps.find? fun c => c.blk == b && c.pg == pg

/-- COMMIT_BUSY (R65). -/
def commitBusy (b : Block) (pg : Nat) (s : State) : Bool := (capOf b pg s).isSome

/-- TXN_PENDING (R71). -/
def txnPending (b : Block) (pg : Nat) (s : State) : Bool :=
  match capOf b pg s with
  | some c => c.txn != 0
  | none => false

/-- SHADOW_DIRTY: a shadowed field differs from its active value (R54). -/
def shadowDirty (b : Block) (pg : Nat) (s : State) : Bool :=
  tslice s.regs.shd (pageLo b pg) (pageHi b pg) != tslice s.regs.act (pageLo b pg) (pageHi b pg)

/-- The index register of a page whose shadowed fields lie behind one, and its present record. -/
def indexOf (b : Block) (pg : Nat) (s : State) : Nat :=
  match b, pg with
  | .hqe, 1 => getF F.hqeQosIdxGroup s
  | .hqe, 2 => getF F.hqeFmapIdxFunc s + 512 * getF F.hqeFmapIdxPort s
  | .fiu, 2 => getF F.fiuDomIdxDomain s
  | .par, 0 => getF F.parClassSelClass s
  | .tl n, 0 => getF (F.tlWinSelWin n) s
  | _, _ => 0

/-- The indexed shadowed fields of a page, each with the reset value of record `i` (PAR_CLASS_CFG.EN is 1 for class 0). -/
def indexedFields (b : Block) (pg : Nat) (i : Nat) : List (Fld × Nat) :=
  match b, pg with
  | .hqe, 1 => [(F.hqeQosCeilCeilIops, 0), (F.hqeQosCeilCeilBw, 0), (F.hqeQosCfgWeight, 16), (F.hqeQosCfgBurst, 10)]
  | .hqe, 2 => [(F.hqeFmapTenant, 0)]
  | .fiu, 2 => [(F.fiuDomCfgDedupEn, 1)]
  | .par, 0 => [(F.parClassCfgP, 1), (F.parClassCfgD, 8), (F.parClassCfgEn, if i = 0 then 1 else 0)]
  | _, _ => []

/-- Load both copies of a page's indexed fields from record `i` (R246). -/
def loadIndexed (b : Block) (pg i : Nat) (s : State) : State :=
  forEach (indexedFields b pg i) (fun p t => loadF p.1 (bankF p.1 i p.2 t) t) s

/-- Capture the shadow values of a page at this moment (R64, R71). -/
def capture (b : Block) (pg txn : Nat) (s : State) : State :=
  { s with regs.caps := s.regs.caps ++
      [{ blk := b, pg := pg, txn := txn, index := indexOf b pg s,
         vals := tslice s.regs.shd (pageLo b pg) (pageHi b pg) }] }

/-- Drop the capture of a page (R69). -/
def dropCap (b : Block) (pg : Nat) (s : State) : State :=
  { s with regs.caps := s.regs.caps.filter fun c => !(c.blk == b && c.pg == pg) }

/-- The shadowed fields of an indexed page keep a record each: store what a commit made active (R246). -/
def storeIndexed (c : Capture) (s : State) : State :=
  forEach (indexedFields c.blk c.pg c.index)
    (fun p t => setBankF p.1 c.index (tget c.vals (fkey p.1) p.1.reset) p.2 t) s

/-- Make a capture active (R64, R65): the values, the record behind an index, COMMIT_SEQ. -/
def applyCap (c : Capture) (s : State) : State :=
  let i := indexOf c.blk c.pg s
  let s := storeIndexed c s
  let s := { s with regs.act := treplace s.regs.act (pageLo c.blk c.pg) (pageHi c.blk c.pg) c.vals }
  let s := if i = c.index then s else loadIndexed c.blk c.pg i s
  incF (H.commitSeq c.blk c.pg) (dropCap c.blk c.pg s)

/-- Put a capture's values back as shadow values and drop it (R74, R90). -/
def uncapture (c : Capture) (s : State) : State :=
  dropCap c.blk c.pg
    { s with regs.shd := treplace s.regs.shd (pageLo c.blk c.pg) (pageHi c.blk c.pg) c.vals }

/-- A plane reset restores a page's fields to their last committed active values (R61). [DEDUCED: log entry 16] -/
def restorePage (b : Block) (pg : Nat) (s : State) : State :=
  { s with regs.shd := treplace s.regs.shd (pageLo b pg) (pageHi b pg) s.regs.act }

end Sys2Proof.Machine
end

