-- ==== Sys2Proof/WellFormed.lean ====
section
/-! DEFINITION. Which commands can be sent at all: operand ranges that the formats of the spec fix. A block has no
encoder, so a command is data; these checks say which data stand for something a sender can send. -/

namespace Sys2Proof

/-- The instance of a block exists (R50). -/
def Block.wf (b : Block) : Bool :=
  match b with
  | .hpe n | .fab n => n < 4
  | .mpt n => n < 32
  | .tl n => n < 2
  | .dmc n => n < 12
  | .wsp w => w < 6
  | _ => true

/-- An NVMe controller this head can have (R102, R109, R160). -/
def Ctl.wf (c : Ctl) : Bool :=
  match c with
  | .hpe p f => p < 4 && f ≤ 256
  | .fab i => i < 4096

/-- Operand ranges of each command. -/
def Instr.wf (i : Instr) : Bool :=
  match i with
  | .registerWrite a sz v => a < 0x4000000 && 1 ≤ sz && sz ≤ 4096 && v < 2 ^ (8 * sz)
  | .latchReadLo a => a < 0x4000000 && a % 4 == 0
  | .blockEnableWrite b _ _ _ | .softReset b | .counterClear b | .powerTransitionDone b | .softResetDone b
  | .injectTakeEffect b | .linkRetrain b | .unsupportedRequest b _ _ | .poisonedWriteRx b _ => b.wf
  | .commit b pg | .commitApply b pg | .discard b pg => b.wf && pg < 4
  | .errInjectWrite b bit lane | .errorPulse b bit lane => b.wf && bit < 32 && lane < 256
  | .powerRequest b r => b.wf && r < 4
  | .mqSqEnable q _ | .mqCqEnable q _ => q < 16
  | .mqSqDoorbell q t | .mqCqDoorbell q t => q < 16 && t < 4096
  | .mqFetch q d _ => q < 16 && d.all fun x => x.tag < 65536 && x.opcode < 65536 && x.bodyVer < 256
  | .perstDeassert p | .hpeLinkUp p _ _ _ => p ≤ 4
  | .portConventionalReset p cause => p < 4 && cause < 3
  | .portHoldDetect p _ => p < 4
  | .flr p f | .flrComplete p f | .vfBlock p f _ | .configRequest p f _ => p < 4 && f ≤ 256
  | .ccEnable c asq acq => c.wf && 1 ≤ asq && asq ≤ 4096 && 1 ≤ acq && acq ≤ 4096
  | .sqDoorbell c _ _ | .cqDoorbell c _ _ | .sqFetch c _ _ | .cstsRdySet c | .shutdownNotification c
  | .shutdownComplete c | .controllerReset c | .aggregationTimeExpiry c _ => c.wf
  | .write _ d | .compare _ d => d.length ≤ 0x200000
  | .mptPerst m _ | .mptLinkUp m _ _ _ _ | .mptLinkDown m | .moduleAdmit m _ _ | .moduleAlert m _ => m < 32
  | .troysWrite l _ _ | .troysMsg l _ _ | .troysLinkUp l _ _ | .troysLinkDown l | .winCommit l => l < 2
  | .laneEnableWrite b _ _ | .laneAutoGate b _ => b.wf
  | _ => true

end Sys2Proof
end

