-- ==== Sys2Proof/Machine/Ops.lean ====
section
/-! DEFINITION. The named operations that every family shares: outcomes, outputs, free values, counters, interrupts and
window vectors, the event record, and management completions. -/

namespace Sys2Proof.Machine

/-- The silicon stepping, the same in every page's HDR_VER (R54). -/
def siliconStep : Nat := Config.hdrVer 0 % 256

/-- The outcome of a command. -/
abbrev Res := Host.Outcome State Fault Refusal

/-- The head is in the Grave state (R614). -/
def graved (s : State) : Bool := s.fco.grave.isSome

/-- The head is in service: past stage 9 of R641. [DEDUCED: log entry 105] -/
def inService (s : State) : Bool := getF F.bldStatStage s = 9

/-- The head does nothing but what the Grave state, a reset or a vault dump leaves it (R616, R628, R636). -/
def halted (s : State) : Bool := graved s || s.pwc.held || s.pwc.dumping

/-- A command that the Grave state, a reset or a dump leaves without effect: it answers the state unchanged there, and `t`
otherwise. [DESIGN CHOICE: log entry 4] -/
def live (s t : State) : Res := .next (if halted s then s else t)

/-- As `live` for MGE, which the Grave state leaves in service (R616). -/
def liveMge (mge : Bool) (s t : State) : Res :=
  .next (if (if mge then s.pwc.held || (s.pwc.dumping && !graved s) else halted s) then s else t)

/-- The state after `f` when `c` holds, unchanged when not: an event that cannot come about here, or a write that the
spec says is ignored. [DESIGN CHOICE: log entry 4] -/
def when_ (c : Bool) (f : State → State) (s : State) : State := if c then f s else s

/-- Log an output. -/
def emit (o : Out) (s : State) : State := { s with out := o :: s.out }

/-- Draw a free value: the number, and the state with the draw counter moved on. [DESIGN CHOICE: log entry 10] -/
def drawNat (s : State) : Nat × State := (Config.freeNat s.free, { s with free := s.free + 1 })
/-- [DESIGN CHOICE: log entry 10] -/
def drawBytes (n : Nat) (s : State) : List Byte × State := (Config.freeBytes s.free n, { s with free := s.free + 1 })

/-- Count `n` events of a code in a block's page counter (R59). -/
def count (b : Block) (code n : Nat) (s : State) : State :=
  if getF (H.cntEvent b) s = code ∧ getF (H.cntFreeze b) s = 0 then
    { s with regs.cnt := tput s.regs.cnt (base b) ((tget s.regs.cnt (base b) 0 + n) % 2 ^ 64) 0 }
  else s

/-! Interrupts and window vectors (R57, R62, R63). -/

/-- INT_STAT with its computed bit 0. -/
def intWord (b : Block) (s : State) : Nat :=
  let e := getF (H.errStat b) s
  getF (H.intStat b) s + (if bclrMask e (getF (H.errMask b) s) = 0 then 0 else 1)

/-- A page's pending state (R57). -/
def pagePend (b : Block) (s : State) : Bool := intWord b s &&& getF (H.intEn b) s != 0

/-- WSP_PEND of window `w` is not all zeros (R62). -/
def winPend (w : Nat) (s : State) : Bool := (Block.wsp w :: blocksOf (planeAt w)).any fun b => pagePend b s

/-- Do `f`, and send MSI-X vector `w` when WSP_PEND of the window becomes nonzero (R63). -/
def withWin (w : Nat) (f : State → State) (s : State) : State :=
  let t := f s
  if winPend w t && !winPend w s then emit (.mgeMsix w) t else t

/-- Set INT_STAT bit `n` of a block's page 0. -/
def setInt (b : Block) (n : Nat) (s : State) : State :=
  withWin (windowOf b) (fun t => setF (H.intStat b) (bset (getF (H.intStat b) t) n) t) s

/-! The event record (R606–R611). -/

/-- A record before EVR gives it its number and time. -/
def mkRec (code cls source inst lane inc p1 p2 : Nat) : Rec :=
  { code := code, cls := cls, inj := false, sub := false, raised := false, noTai := false, source := source,
    seq := 0, time := 0, inst := inst, lane := lane, inc := inc, p1 := p1, p2 := p2 }

/-- EPH is in state 0 Unset (R510). -/
def timeUnset (s : State) : Bool := getF F.ephStatState s = 0

/-- The instant the Ephemeris time shows, or the local clock while it is unset (R606). -/
def stamp (s : State) : Nat := if timeUnset s then s.now / 8 * 8 else s.eph.time

/-- Append a record with the next SEQ (R609). -/
def evrAppend (r : Rec) (s : State) : State :=
  let n := getF F.evrNextNext s
  let s := { s with evr.recs := s.evr.recs ++ [{ r with seq := n, time := stamp s, noTai := timeUnset s }] }
  let s := if s.evr.recs.length = 32769 then setInt .evr I.evrHalf s else s
  count .evr 0x01 1 (incF F.evrNextNext s)

/-- An event not recorded (R611). -/
def evrDrop (s : State) : State := count .evr 0x03 1 (incSatF F.evrDroppedDropped 1 s)

/-- The log is full: write FULL into the last slot and stop (R611); EVR's own FULL error is set, latched and, the log
being full, only counted. -/
def evrFull (code : Nat) (s : State) : State :=
  let s := evrAppend (mkRec 0x0004 0 63 0 0xFF 0 code 0) s
  let s := flagF F.evrStatFull true s
  let s := withWin 0 (fun t => setF (H.errStat .evr) (bset (getF (H.errStat .evr) t) E.evrFull) t) s
  let s := if bit (getF (H.errMask .evr) s) E.evrFull then s
    else evrDrop (setF F.fcoLatchLoLatchLo (bset (getF F.fcoLatchLoLatchLo s) 2) s)
  setInt .evr I.evrFull (evrDrop s)

/-- Write a record, with the DROPPED record that opens recording again (R611). -/
def evrWrite (r : Rec) (s : State) : State :=
  if getF F.evrCtrlRecEn s = 0 || onF F.evrStatFull s then evrDrop s
  else if 65535 ≤ s.evr.recs.length then evrFull r.code s
  else
    let d := getF F.evrDroppedDropped s
    if d = 0 then evrAppend r s
    else
      let s := setF F.evrDroppedDropped 0 (evrAppend (mkRec 0x0005 0 63 0 0xFF 0 d 0) s)
      if 65535 ≤ s.evr.recs.length then evrFull r.code s else evrAppend r s

/-- Tokens of a code's bucket now, in thousand-millionths, filled at PER_S up to BURST (R610). -/
def bucketNow (code : Nat) (s : State) : Nat :=
  let cap := 1000000000 * getF F.evrRateBurst s
  match tget? s.evr.buckets code with
  | none => cap
  | some b => min cap (b.tok + getF F.evrRatePerS s * (s.now - b.at_))

/-- Leave a code's bucket with `tok` tokens and a pending count. -/
def putBucket (code tok pend since : Nat) (s : State) : State :=
  { s with evr.buckets := tset s.evr.buckets code { tok := tok, at_ := s.now, pending := pend, since := since } }

/-- A code's pending count and when its first suppression came. -/
def pendOf (code : Nat) (s : State) : Nat × Nat :=
  match tget? s.evr.buckets code with
  | none => (0, s.now)
  | some b => (b.pending, b.since)

/-- Record an event of Class 0 or 1 when its bucket holds a token; otherwise count it (R610). Answers whether it was
recorded. -/
def evrTry (r : Rec) (s : State) : Bool × State :=
  let tok := bucketNow r.code s
  let p := pendOf r.code s
  if 1000000000 ≤ tok then
    let s := if p.1 = 0 then s else evrWrite (mkRec 0x0003 0 63 0 0xFF 0 r.code p.1) s
    (true, evrWrite r (putBucket r.code (tok - 1000000000) 0 s.now s))
  else
    let s := putBucket r.code tok (p.1 + 1) (if p.1 = 0 then s.now else p.2) s
    (false, count .evr 0x02 1 (incSatF F.evrSupprSuppr 1 s))

/-- Record an event of Class 0 or 1; a suppressed one also reports SUPPRESSING, itself limited (R610, R622). -/
def evrLow (r : Rec) (s : State) : State :=
  if r.code < 0x10 then evrWrite r s
  else
    match evrTry r s with
    | (true, t) => t
    | (false, t) =>
      let t := withWin 0 (fun u => setF (H.errStat .evr) (bset (getF (H.errStat .evr) u) E.evrSuppressing) u) t
      if bit (getF (H.errMask .evr) t) E.evrSuppressing then t
      else
        let t := setF F.fcoLatchLoLatchLo (bset (getF F.fcoLatchLoLatchLo t) 2) t
        (evrTry (mkRec 0x1041 0 2 0 0xFF 0 (getF (H.errStat .evr) t) 0) t).2

/-- Record an event: Class 2 and above, sub-records and codes below 0x10 are never suppressed (R610). -/
def evrEvent (r : Rec) (s : State) : State :=
  if 2 ≤ r.cls || r.sub then evrWrite r s else evrLow r s

/-- A Class 0 Notice of FCO that the spec gives no code (R52, R60): a record with one of the codes reserved for sealed
microcode events, a free choice, with SOURCE 63 (R608). [DESIGN CHOICE: log entry 14] -/
def fcoNotice (s : State) : State :=
  let d := drawNat s
  evrEvent (mkRec (0x0100 + d.1 % 0x80) 0 63 0 0xFF 0 0 0) (count .fco 0x01 1 d.2)

/-! Reporting an error to FCO (R594–R597, R607). -/

/-- The class of an error: its default, one step higher under PROMOTE, never from or to Class 4, and at most Class 2 in
the Memory and Control Planes (R58, R597). -/
def errCls (b : Block) (n : Nat) (s : State) : Nat :=
  let d := (errClass? b n).getD 0
  if d < 3 && bit (getF (H.classMap b) s) n then
    match planeOf b with
    | .memory | .control => min 2 (d + 1)
    | _ => d + 1
  else d

/-- The ERR_STAT bit sets (R57). -/
def setErr (b : Block) (n : Nat) (s : State) : State :=
  withWin (windowOf b) (fun t => setF (H.errStat b) (bset (getF (H.errStat b) t) n) t) s

/-- The FCO_LATCH bit sets (R594). -/
def latch (n : Nat) (s : State) : State :=
  if n < 32 then setF F.fcoLatchLoLatchLo (bset (getF F.fcoLatchLoLatchLo s) n) s
  else setF F.fcoLatchHiLatchHi (bset (getF F.fcoLatchHiLatchHi s) (n - 32)) s

/-- FCO takes a pulse of class `c` from latch bit `n`: the latch, its counters and MAX_CLASS (R594, R622). -/
def pulse (n c : Nat) (s : State) : State :=
  let s := if c < 4 then count .fco (c + 1) 1 (latch n s) else latch n s
  if getF F.fcoStatMaxClass s < c then setF F.fcoStatMaxClass c s else s

/-- Report an error whose default class is 0 (at most 1 when promoted): recorded, no reaction (R594, R596, R601). P2 is
Holkai's, a free value (R607). [DESIGN CHOICE: log entry 10] -/
def note (b : Block) (n lane : Nat) (s : State) : State :=
  let s := setErr b n s
  if bit (getF (H.errMask b) s) n then s
  else
    let c := errCls b n s
    let s := pulse (latchBit b) c s
    let d := drawNat s
    evrEvent (mkRec (0x1000 + 32 * latchBit b + n) c (latchBit b) (inst b) lane 0 (getF (H.errStat b) s) d.1) d.2

/-! Management completions (R81–R87). -/

/-- Status codes (R87). -/
def stSuccess : Nat := 0
def stInvalidOpcode : Nat := 1
def stInvalidField : Nat := 2
def stBodyVersion : Nat := 3
def stBusError : Nat := 4
def stResource : Nat := 5
def stTxnBusy : Nat := 6
def stTimePast : Nat := 7
def stAborted : Nat := 8
def stNotOwner : Nat := 9
def stDegraded : Nat := 0xA
def stAuthFailed : Nat := 0xB
def stTxnEmpty : Nat := 0xC

/-- Completion indices of a queue: PHASE starts at 1 (R83). -/
def mqOf (q : Nat) (s : State) : MgmtQ := tget s.mgmt.queues q { cqTail := 0, phase := true }

/-- IDLE: no entry of the queue is fetched and uncompleted (R78). -/
def mqIdle (q : Nat) (s : State) : State :=
  flagF (F.mqStatIdle q) (s.mgmt.cmds.all fun c => c.q != q) s

/-- The operations of a disabled endpoint run to their end unposted: their outcomes are recorded (R82). -/
def mgmtUnpost (q tag opcode status : Nat) (s : State) : State :=
  evrEvent (mkRec 0x0201 0 12 0 0xFF 0 (tag + 65536 * q) (opcode + 65536 * status)) s

/-- Complete one control block: post its entry, or record it when its completion queue is disabled (R81, R83, R86). A
control block completes once: without an uncompleted one of that queue and tag nothing happens. -/
def mgmtPost1 (q tag status result : Nat) (s : State) : State :=
  match s.mgmt.cmds.find? (fun c => c.q == q && c.tag == tag) with
  | none => s
  | some c =>
    let s := { s with mgmt.cmds := s.mgmt.cmds.filter fun c => !(c.q == q && c.tag == tag) }
    let s := mqIdle q s
    if c.unposted then mgmtUnpost q tag c.opcode status s
    else if onF (F.mqCfgCqEn q) s then
      let m := mqOf q s
      let last := m.cqTail = getF (F.mqCfgCqSize q) s
      let m' : MgmtQ := { cqTail := if last then 0 else m.cqTail + 1, phase := if last then !m.phase else m.phase }
      let s := { s with mgmt.queues := tset s.mgmt.queues q m' }
      emit (.mgeMsix (getF (F.mqCfgVector q) s))
        (emit (.mgmtCpl q tag status (getF (F.mqStatSqHead q) s) result m.phase) s)
    else evrEvent (mkRec 0x0200 0 12 0 0xFF 0 (tag + 65536 * q) c.opcode) s

/-- A control block may start: without FENCE, or after every earlier entry of its queue has completed (R83). -/
def mgmtFree (c : MgmtCmd) (s : State) : Bool :=
  !c.fence || ((s.mgmt.cmds.takeWhile fun d => !(d.q == c.q && d.tag == c.tag)).all fun d => d.q != c.q)

/-- Complete the control blocks of a queue that fail a check of their descriptor, in order, once they may start. -/
def mgmtRejects (q : Nat) (s : State) : State :=
  forEach (s.mgmt.cmds.filter fun c => c.q == q) (fun c t =>
    match c.reject with
    | some st => if mgmtFree c t then mgmtPost1 q c.tag st 0 t else t
    | none => t) s

/-- Complete a control block, and those of its queue that waited behind it only to be rejected. -/
def mgmtPost (q tag status result : Nat) (s : State) : State := mgmtRejects q (mgmtPost1 q tag status result s)

/-- The control block of a queue and tag that has been fetched with this opcode, has not begun, and whose FENCE holds
nothing back (R83). -/
def mgmtReady (q tag opcode : Nat) (s : State) : Bool :=
  match s.mgmt.cmds.find? (fun c => c.q == q && c.tag == tag) with
  | none => false
  | some c => c.opcode == opcode && !c.started && c.reject.isNone && mgmtFree c s

/-- Mark a control block begun (R83). -/
def mgmtBegin (q tag : Nat) (s : State) : State :=
  { s with mgmt.cmds := modFirst (fun c => c.q == q && c.tag == tag) (fun c => { c with started := true }) s.mgmt.cmds }

/-- Run a control block: when it is ready (R83), mark it begun and do `f`. -/
def mgmtRun (q tag opcode : Nat) (f : State → State) (s : State) : State :=
  when_ (mgmtReady q tag opcode s) (fun t => f (mgmtBegin q tag t)) s

/-- Do the first check that fails, answering its status, or `f`. -/
def checks (q tag : Nat) : List (Bool × Nat) → (State → State) → State → State
  | [], f, s => f s
  | (bad, st) :: r, f, s => if bad then mgmtPost q tag st 0 s else checks q tag r f s

/-! The pair, as the data path sees it. -/

/-- The peer takes part in the pair: writes wait for its acknowledgement (R22); not while it is absent, Severed or not
yet current (R23, R576, R585). -/
def peerIn (s : State) : Bool := onF F.mirPairStatMirrorCurrent s && !onF F.mirPairStatSevered s

/-- A Troys link is up (R174). -/
def troysUp (s : State) : Bool := onF (F.tlLinkStatUp 0) s || onF (F.tlLinkStatUp 1) s

/-- MIR mirrors changes of the own half: MIRROR_EN, with a peer that takes part (R563, R576). -/
def mirroring (s : State) : Bool := onF F.mirCtrlMirrorEn s && s.pair.joined && !onF F.mirPairStatSevered s

/-- The channel that carries a packet (R557). -/
def troysCh : TroysOut → Nat
  | .mirror _ | .desc _ => 0
  | .clause _ | .stripeRec _ _ | .region | .slotRelease _ => 1
  | .forward _ | .forwardData _ _ _ | .forwardReport _ _ => 2
  | .digest _ _ _ _ _ _ => 4
  | .copySlot _ | .copyDesc _ | .copyStripe _ _ | .copyClause _ | .copyRegion => 5
  | _ => 3

/-- Payload bytes of a packet: those the spec lays out; 64 where it gives no layout, a choice of the model.
[DESIGN CHOICE: log entry 76] -/
def troysLen : TroysOut → Nat
  | .mirror _ | .copySlot _ => 4096
  | .desc _ | .copyDesc _ | .clause _ | .copyClause _ => 32
  | .stripeRec _ _ | .copyStripe _ _ => 256
  | .forwardData _ _ d => (d.length + 15) / 16 * 16
  | .root _ => 512
  | .join => 128
  | .ack _ _ | .nak _ _ _ => 0
  | _ => 64

def chanOf (ch : Nat) (s : State) : Chan := tget s.pair.chans ch { next := 1, taken := 0, credit := none }
def putChan (ch : Nat) (c : Chan) (s : State) : State := { s with pair.chans := tset s.pair.chans ch c }

/-- Put a packet on a link: its 32-byte header and its payload (R556, R593). -/
def onLink (l : Nat) (o : TroysOut) (s : State) : State :=
  emit (.troys o) (count (.tl l) 0x03 (32 + troysLen o) (count (.tl l) 0x01 1 s))

/-- The link a packet goes out on: the links that are up take turns by its CSEQ, a choice of the model (R558).
[DESIGN CHOICE: log entry 76] -/
def linkFor (n : Nat) (s : State) : Option Nat :=
  match onF (F.tlLinkStatUp 0) s, onF (F.tlLinkStatUp 1) s with
  | true, true => some (n % 2)
  | true, false => some 0
  | false, true => some 1
  | false, false => none

/-- Unacknowledged bytes of a channel on the links. -/
def inFlight (ch : Nat) (s : State) : Nat := ((s.pair.sent.filter fun x => x.ch == ch && x.link < 2).map (·.len)).sum

/-- Transmit packets that wait, in order, while credit lasts and a link is up (R558). -/
def pumpPkts : List Sent → State → State
  | [], s => s
  | x :: r, s =>
    match linkFor x.cseq s with
    | none => s
    | some l =>
      if (chanOf x.ch s).credit.any fun c => decide (c < inFlight x.ch s + x.len) then s
      else
        let s := { s with pair.sent := modFirst (fun y => y.ch == x.ch && y.cseq == x.cseq) (fun y => { y with link := l }) s.pair.sent }
        pumpPkts r (onLink l x.what (if x.ch = 0 then count .mir 0x01 x.len s else s))
/-- [DESIGN CHOICE: log entry 76] -/
def pumpCh (ch : Nat) (s : State) : State := pumpPkts (s.pair.sent.filter fun x => x.ch == ch && x.link == 2) s

/-- Send a packet: it takes its channel's next CSEQ and is kept until it is acknowledged (R557, R558).
[DESIGN CHOICE: log entry 76] -/
def sendPkt (o : TroysOut) (s : State) : State :=
  let ch := troysCh o
  let c := chanOf ch s
  let s := putChan ch { c with next := c.next + 1 } s
  pumpCh ch { s with pair.sent := s.pair.sent ++ [{ ch := ch, cseq := c.next, link := 2, len := troysLen o, what := o }] }

/-- Send to a peer that has joined; while the head is Severed, and until what queued then is delivered, CONTROL messages queue
(R566, R576). -/
def sendTroys (o : TroysOut) (s : State) : State :=
  if !s.pair.joined then s
  else if troysCh o = 3 && (onF F.mirPairStatSevered s || !s.pair.queued.isEmpty) then { s with pair.queued := s.pair.queued ++ [o] }
  else sendPkt o s

/-- Mirror a change of the own half (R563). -/
def mirrorOut (o : TroysOut) (s : State) : State := if mirroring s then sendPkt o s else s

end Sys2Proof.Machine
end

