-- ==== Sys2Proof/Machine/Clock.lean ====
section
/-! DEFINITION. What passes by itself: one 8 ns tick of the local clock, EPH time and the cycle counters (R508, R510,
R695). -/

namespace Sys2Proof.Machine

/-- The blocks whose clock runs at 1.6 GHz (R695). -/
def slowClock (b : Block) : Bool :=
  match b with
  | .dge | .fiu | .cmp | .cry | .ftu | .mca | .par | .ldc => true
  | _ => false

/-- Block clock cycles in the tick that starts at `t` ns: 16 at 2.0 GHz, 12 or 13 at 1.6 GHz (R695). -/
def cyclesAt (b : Block) (t : Nat) : Nat :=
  if slowClock b then (t + 8) * 8 / 5 - t * 8 / 5 else 16

/-- Every block with a page of its own. -/
def allBlocks : List Block :=
  blocksOf .control ++ blocksOf .host ++ blocksOf .reduction ++ blocksOf .media ++ blocksOf .pair ++ blocksOf .memory ++
    (List.range 6).map Block.wsp

/-- A page counter that counts cycles counts this tick's, except while the block is clock- or power-gated (R695).
[DESIGN CHOICE: log entry 2] -/
def tickCounter (b : Block) (s : State) : State :=
  if getF (H.pwrState b) s = 0 then count b 0 (cyclesAt b s.now) s else s

/-- EPH time moves by 8 ns while it is set; a slew takes or adds one step of 8 ns in every 16 µs, which is 500 µs a second
(R508, R510, R512). [DESIGN CHOICE: log entry 2; DEDUCED: log entry 65] -/
def tickTime (s : State) : State :=
  if timeUnset s then s
  else
    let turn := s.now / 8 % 2000 = 0
    if turn && decide (8 ≤ s.eph.slew) then { s with eph.slew := s.eph.slew - 8 }
    else if turn && decide (s.eph.slew ≤ -8) then { s with eph.time := s.eph.time + 16, eph.slew := s.eph.slew + 8 }
    else { s with eph.time := s.eph.time + 8 }

/-- One 8 ns tick. [DESIGN CHOICE: log entry 2] -/
def tick (s : State) : State :=
  let s := tickTime (forEach allBlocks tickCounter s)
  { s with now := s.now + 8 }

end Sys2Proof.Machine
end

