-- ==== Sys2Proof/Machine/MapOps.lean ====
section
/-! DEFINITION. Shared operations on unit addresses, the map, reference counts, the fingerprint table, bands and the
clause journal (R276–R289, R390–R408, R415, R431, R532). -/

namespace Sys2Proof.Machine

/-! Unit addresses (R390). -/

/-- A UADDR from its fields: band, offset and length in units of 16 bytes, group member. -/
def uaddrOf (band off len member : Nat) : Nat :=
  2 ^ 40 * (band % 2 ^ 24) + 2 ^ 12 * (off % 2 ^ 28) + 4 * (len % 2 ^ 10) + member % 4
def uBand (u : Nat) : Nat := u / 2 ^ 40
def uOff (u : Nat) : Nat := u / 2 ^ 12 % 2 ^ 28
def uLen (u : Nat) : Nat := u / 4 % 2 ^ 10
def uMember (u : Nat) : Nat := u % 4
/-- The address with MEMBER 0: the stored unit itself. -/
def uBase (u : Nat) : Nat := u / 4 * 4

/-- The map entry value of a lost unit (R394). -/
def lostEntry : Nat := 0x1000

/-! Map entries (R394, R395). -/

def mapOf (epoch nsid : Nat) (s : State) : Tbl Nat :=
  match s.ftu.maps.find? (fun m => m.epoch == epoch && m.nsid == nsid) with
  | some m => m.entries
  | none => []

/-- The entry of a unit; 0, unmapped, where unlisted. -/
def mapGet (epoch nsid unit : Nat) (s : State) : Nat := tget (mapOf epoch nsid s) unit 0

/-- Replace the whole map of an epoch. -/
def setMap (epoch nsid : Nat) (e : Tbl Nat) (s : State) : State :=
  let rest := s.ftu.maps.filter fun m => !(m.epoch == epoch && m.nsid == nsid)
  { s with ftu.maps := if e.isEmpty then rest else rest ++ [{ epoch := epoch, nsid := nsid, entries := e }] }

def mapPut (epoch nsid unit v : Nat) (s : State) : State :=
  setMap epoch nsid (tput (mapOf epoch nsid s) unit v 0) s

/-- The present address of a unit: that of its forward entry, when it has one (R428). -/
def resolve (u : Nat) (s : State) : Nat := ((s.ftu.fwd.find? fun f => f.old == u).map (·.new)).getD u

/-- Some map, of any epoch, has an entry that leads to an address that meets `p` (R282, R428, R532). -/
def namedBy (p : Nat → Bool) (s : State) : Bool := s.ftu.maps.any fun m => m.entries.any fun e => p (resolve e.2 s)
def unitNamed (u : Nat) (s : State) : Bool := namedBy (fun v => v == u) s

/-- Mapped logical units of a namespace (R226, R261). -/
def nuse (nsid : Nat) (s : State) : Nat := (mapOf 0 nsid s).length

/-! Map pages (R396, R397, R409). -/

/-- The directory state of a page; absent where unlisted. -/
def pageOf (epoch nsid page : Nat) (s : State) : Option MapPage :=
  s.ftu.pages.find? fun p => p.epoch == epoch && p.nsid == nsid && p.page == page

/-- Put a page's record; every map that shares the page sees the same state (R528). -/
def putPage (x : MapPage) (s : State) : State :=
  let rest := s.ftu.pages.filter fun p => !(p.epoch == x.epoch && p.nsid == x.nsid && p.page == x.page)
  { s with ftu.pages := rest.map (fun p => if p.pid == x.pid then { x with epoch := p.epoch, nsid := p.nsid } else p) ++ [x] }

/-- A page of one map with an identity of its own. -/
def freshPage (epoch nsid page cseq : Nat) (s : State) : State :=
  putPage { epoch := epoch, nsid := nsid, page := page, pid := s.ftu.nextPid, resident := true, dirty := true, loading := false,
            writing := false, zero := false, flash := 0, wrote := 0, again := none, dirtyCseq := cseq, used := s.now }
    { s with ftu.nextPid := s.ftu.nextPid + 1 }

/-- A clause changed a unit: its page is dirty from that clause on; a page with no copy anywhere becomes resident, one
whose copy lies on flash must be loaded (R397, R402, R409). -/
def dirtyPage (epoch nsid unit cseq : Nat) (s : State) : State :=
  match pageOf epoch nsid (unit / 512) s with
  | none => freshPage epoch nsid (unit / 512) cseq s
  | some p =>
    if p.writing then putPage { p with again := some (p.again.getD cseq) } s
    else putPage { p with dirty := true, dirtyCseq := if p.dirty then p.dirtyCseq else cseq, resident := p.resident || p.zero,
                          zero := false, loading := p.loading || !(p.resident || p.zero) } s

/-! The map cache (R399, R402). -/

/-- Set and bank of a line; the hash is not part of the architecture. -/
def mcaSetNo (epoch nsid line : Nat) : Nat := Config.mcaSet epoch nsid line % 49152
def mcaBank (epoch nsid line : Nat) : Nat := mcaSetNo epoch nsid line % 32

def isLine (epoch nsid line : Nat) (l : McaLine) : Bool := l.epoch == epoch && l.nsid == nsid && l.line == line
def mcaLine (epoch nsid line : Nat) (s : State) : Option McaLine := s.mca.lines.find? (isLine epoch nsid line)
def dropLine (epoch nsid line : Nat) (s : State) : State :=
  { s with mca.lines := s.mca.lines.filter fun l => !isLine epoch nsid line l }

/-- A line leaves the cache; a dirty one is written back (R402). [DEDUCED: log entry 57] -/
def evictLine (l : McaLine) (s : State) : State :=
  let s := dropLine l.epoch l.nsid l.line s
  if l.dirty.isSome then count .mca 0x08 1 s else s

/-- A line leaves its set: into its bank's victim buffer, the buffer's oldest line leaving a full one (R399, R402).
[DEDUCED: log entry 53] -/
def toVictim (l : McaLine) (s : State) : State :=
  if !onF F.mcaCfgVictimEn s then evictLine l s
  else
    let b := mcaBank l.epoch l.nsid l.line
    let vs := s.mca.lines.filter fun v => v.victim && mcaBank v.epoch v.nsid v.line == b
    let s := match vs with
      | v :: _ => if 32 ≤ vs.length then evictLine v s else s
      | [] => s
    let s := dropLine l.epoch l.nsid l.line s
    { s with mca.lines := s.mca.lines ++ [{ l with victim := true }] }

/-- Install a line in its set: a free way of a powered group, else in place of a line that a prefetch installed and no
lookup hit, else of one that pseudo-LRU picks, a free choice (R399, R401, R403).
[DESIGN CHOICE: log entry 10; DEDUCED: log entry 53] -/
def mcaInstall (l : McaLine) (s : State) : State :=
  let n := mcaSetNo l.epoch l.nsid l.line
  let inSet := s.mca.lines.filter fun x => !x.victim && mcaSetNo x.epoch x.nsid x.line == n
  let ways := (List.range 16).filter fun w => !s.mca.off.contains (w / 4)
  let put := fun (w : Nat) (t : State) => { t with mca.lines := t.mca.lines ++ [{ l with way := w, victim := false }] }
  match ways.find? fun w => inSet.all fun x => x.way != w with
  | some w => put w s
  | none => match inSet.find? (·.pref) with
    | some x => put x.way (toVictim x s)
    | none =>
      let d := drawNat s
      match inSet[d.1 % inSet.length]? with
      | some x => put x.way (toVictim x d.2)
      | none => d.2

/-- A clause updates a unit's entry (R402, R407): the line is written in the cache, fetched first when it is absent; a page
that is not resident gets the clause when it is loaded (R412). -/
def dirtyLine (epoch nsid unit cseq : Nat) (s : State) : State :=
  let k := some (epoch, nsid, unit / 8)
  let s := if s.mca.last == k then s else count .ftu 0x02 1 { s with mca.last := k }
  if !onF F.mcaCtrlCacheEn s then s
  else match mcaLine epoch nsid (unit / 8) s with
  | some _ => { s with mca.lines := modFirst (isLine epoch nsid (unit / 8)) (fun l => { l with dirty := some (l.dirty.getD cseq) }) s.mca.lines }
  | none =>
    if (pageOf epoch nsid (unit / 512) s).any (·.resident) then
      mcaInstall { epoch := epoch, nsid := nsid, line := unit / 8, dirty := some cseq, way := 0, victim := false, pref := false } s
    else s

/-! Bands and reference counts (R282–R286, R415). -/

def bandOf (b : Nat) (s : State) : Option Band := s.ftu.bands.find? fun x => x.no == b
def modBand (b : Nat) (f : Band → Band) (s : State) : State :=
  { s with ftu.bands := modFirst (fun x => x.no == b) f s.ftu.bands }

/-- The FPT index of the entry that names a unit address. -/
def fptOf (u : Nat) (s : State) : Option Nat :=
  (s.fiu.fpt.find? fun p => p.2.uaddr == u && p.2.st == .live).map (·.1)
def modFpt (i : Nat) (f : FptEntry → FptEntry) (s : State) : State := { s with fiu.fpt := tmod s.fiu.fpt i f }

/-- An FPT entry goes Dead: its tier 1 entry is removed in the background, and without one it is freed (R271, R285). -/
def fptDead (i : Nat) (s : State) : State :=
  match tget? s.fiu.fpt i with
  | none => s
  | some e =>
    if e.indexed then { modFpt i (fun e => { e with st := .dead }) s with fiu.rem := s.fiu.rem ++ [i] }
    else { s with fiu.fpt := terase s.fiu.fpt i }

/-- A unit is live (R425): a map entry leads to it, its record counts references, or duplicates name its FPT entry. -/
def liveUnit (u : Nat) (s : State) : Bool :=
  unitNamed u s || ((tget? s.fiu.sut u).any fun r => 0 < r.count) ||
  ((fptOf u s).bind fun i => tget? s.fiu.fpt i).any fun e => 0 < e.pendref

/-- Some member of the stored unit is live. -/
def liveStored (u : Nat) (s : State) : Bool := (List.range 4).any fun k => liveUnit (uBase u + k) s

/-- Add a stored unit's bytes to its band's LIVE, and take them off (R415). -/
def addLive (u : Nat) (s : State) : State := modBand (uBand u) (fun b => { b with live := b.live + uLen u * 16 }) s
def subLive (u : Nat) (s : State) : State := modBand (uBand u) (fun b => { b with live := b.live - uLen u * 16 }) s

/-- A unit lost a reference: it is garbage unless it is still live (R285, R425, R532). -/
def garbage (u : Nat) (s : State) : State :=
  if liveUnit u s then s
  else
    let s := { s with fiu.sut := terase s.fiu.sut u }
    let s := match fptOf u s with
      | some i => fptDead i s
      | none => s
    if liveStored u s then s else subLive u s

/-- A map entry that named OLD no longer does: its forward entry's REMAIN falls; at 0 the entry is freed, FWD_ENTRIES of
its band falls, and a Forwarded band without any becomes Unused (R416, R428). -/
def fwdDec (old : Nat) (s : State) : State :=
  match s.ftu.fwd.find? (fun f => f.old == old) with
  | none => s
  | some f =>
    if 1 < f.remain then
      { s with ftu.fwd := modFirst (fun g => g.old == old) (fun g => { g with remain := g.remain - 1 }) s.ftu.fwd }
    else
      let s := modBand (uBand old) (fun b => { b with fwd := b.fwd - 1 })
        { s with ftu.fwd := s.ftu.fwd.filter fun g => g.old != old }
      { s with ftu.bands := s.ftu.bands.filter fun b => !(b.no == uBand old && b.st == .forwarded && b.fwd == 0) }

/-- The unit lies in a band that the peer owns: its counts are the peer's, and changes are sent to it (R589). -/
def peerBand (u : Nat) (s : State) : Bool := (bandOf (uBand u) s).any fun b => !b.mine

/-- A map entry of the current map stopped naming a unit, by its own or its former address (R284, R428, R589).
[DEDUCED: log entry 37] -/
def refDrop (v : Nat) (s : State) : State :=
  if uBand v = 0 then s
  else
    let u := resolve v s
    let s := fwdDec v s
    if peerBand u s then sendTroys (.refcount u false) s
    else match tget? s.fiu.sut u with
    | none => garbage u s
    | some r => garbage u { s with fiu.sut := tset s.fiu.sut u { r with count := r.count - 1 } }

/-! Shared map pages (R528, R532). -/

/-- The identity of a page; none where no map page is held. [DEDUCED: log entry 64] -/
def pidOf (epoch nsid page : Nat) (s : State) : Option Nat := (pageOf epoch nsid page s).map (·.pid)

/-- The maps that share a page, with the map named. [DEDUCED: log entry 64] -/
def sharers (epoch nsid page : Nat) (s : State) : List (Nat × Nat) :=
  match pidOf epoch nsid page s with
  | none => [(epoch, nsid)]
  | some k => (s.ftu.pages.filter fun p => p.pid == k).map fun p => (p.epoch, p.nsid)

/-- Entries that lead to addresses that meet `p`, an entry of a shared page once (R532). [DEDUCED: log entry 37] -/
def namesOf (p : Nat → Bool) (s : State) : List (Option Nat × Nat) :=
  (s.ftu.maps.flatMap fun m => (m.entries.filter fun e => p e.2).map fun e =>
    (pidOf m.epoch m.nsid (e.1 / 512) s, e.1)).eraseDups

/-- One more map entry names what entry value `v` names (R428, R532). [DEDUCED: log entry 37] -/
def entryCopied (v : Nat) (s : State) : State :=
  let u := resolve v s
  let s := { s with ftu.fwd := modAll (fun f => f.old == v) (fun f => { f with remain := f.remain + 1 }) s.ftu.fwd }
  match tget? s.fiu.sut u with
  | some r => { s with fiu.sut := tset s.fiu.sut u { r with count := r.count + 1 } }
  | none => s

/-- Some maps of a namespace take a copy of a page they share with others: the counts of the units it names rise (R528, R532).
[DEDUCED: log entries 37, 64] -/
def copyPage (es : List Nat) (nsid page cseq : Nat) (s : State) : State :=
  let k := s.ftu.nextPid
  let ents := tslice (mapOf (es.headD 0) nsid s) (page * 512) (page * 512 + 512)
  let s := { s with ftu.nextPid := k + 1, ftu.pages := s.ftu.pages.map fun p =>
    if p.nsid == nsid && p.page == page && es.contains p.epoch then
      { p with pid := k, resident := true, dirty := true, loading := false, writing := false, zero := false, flash := 0, wrote := 0,
               again := none, dirtyCseq := cseq, used := s.now }
    else p }
  forEach ents (fun e t => entryCopied e.2 t) s

/-- Maps `es` of a namespace are about to change an entry of a page: the pages they share with other maps are copied first,
once for those that share one (R528). -/
def ownPages (es : List Nat) (nsid page cseq : Nat) (s : State) : State :=
  forEach (es.map fun e => pidOf e nsid page s).eraseDups (fun k t =>
    let mem := es.filter fun e => pidOf e nsid page t == k
    match k with
    | none =>
      match mem with
      | [] => t
      | e :: r =>
        let t := freshPage e nsid page cseq t
        match pageOf e nsid page t with
        | some p => { t with ftu.pages := t.ftu.pages ++ r.map fun e => { p with epoch := e } }
        | none => t
    | some k =>
      if t.ftu.pages.any (fun p => p.pid == k && !(p.nsid == nsid && mem.contains p.epoch)) then copyPage mem nsid page cseq t
      else dirtyPage (mem.headD 0) nsid (page * 512) cseq t) s

/-- Set an entry in maps `es` of a namespace, with their pages and lines dirty, and drop the references their pages held
(R284, R407, R528). -/
def mapChange (es : List Nat) (nsid unit v cseq : Nat) (s : State) : State :=
  let s := ownPages es nsid (unit / 512) cseq s
  let ks := (es.map fun e => pidOf e nsid (unit / 512) s).eraseDups
  let olds := ks.filterMap fun k => (es.find? fun e => pidOf e nsid (unit / 512) s == k).map fun e => mapGet e nsid unit s
  let s := forEach es (fun e t => dirtyLine e nsid unit cseq (mapPut e nsid unit v t)) s
  forEach olds refDrop s

/-- Set an entry in a page without regard to SEQ: every map that shares the page sees it (R528).
[DEDUCED: log entry 64] -/
def mapInPlace (epoch nsid unit v cseq : Nat) (s : State) : State :=
  forEach (sharers epoch nsid (unit / 512) s) (fun m t => mapPut m.1 m.2 unit v t)
    (dirtyLine epoch nsid unit cseq (dirtyPage epoch nsid unit cseq s))

/-- Units of the members of a back-pointer, member k being the k-th unit that MASK names (R422). -/
def backUnits (b : BackPtr) : List Nat := ((List.range 4).filter fun k => bit b.mask k).map (b.unit + ·)

/-- The unit that a stored unit's address belongs to by its back-pointer: namespace and unit. -/
def backOf (u : Nat) (s : State) : Option (Nat × Nat) :=
  (tget? s.ftu.back (uBase u)).bind fun b => ((backUnits b)[uMember u]?).map fun x => (b.nsid, x)

/-- The first duplicate clause naming a unit makes its record; each further one adds 1 (R284, R589).
[DEDUCED: log entry 37] -/
def refAdd (u : Nat) (s : State) : State :=
  if peerBand u s then sendTroys (.refcount u true) s
  else match tget? s.fiu.sut u with
  | some r => { s with fiu.sut := tset s.fiu.sut u { r with count := r.count + 1 } }
  | none =>
    let c := (namesOf (fun v => resolve v s == u) s).length + 1
    { s with fiu.sut := tset s.fiu.sut u { count := c, fpt := fptOf u s } }

/-- A unit's FPT entry and its record follow it to a new address; when the unit is lost they end (R286, R460). -/
def moveRecord (old new : Nat) (s : State) : State :=
  let lost := uBand new = 0
  let s := match fptOf old s with
    | some i => if lost then fptDead i s else modFpt i (fun e => { e with uaddr := new }) s
    | none => s
  match tget? s.fiu.sut old with
  | some r => { s with fiu.sut := if lost then terase s.fiu.sut old else tset (terase s.fiu.sut old) new r }
  | none => s

/-- RELOCATE without FIX (R407, R428, R460): the entry follows if it names OLD; with SHARED a forward entry is made for
the entries left; LIVE follows the unit. [DEDUCED: log entry 64] -/
def relocateApply (nsid unit old new cseq : Nat) (shared : Bool) (s : State) : State :=
  let was := liveUnit old s
  let newWas := uBand new != 0 && liveStored new s
  let s := moveRecord old new s
  let hit := mapGet 0 nsid unit s == old
  let s := if hit then mapInPlace 0 nsid unit new cseq s else s
  let s := { s with ftu.fwd := modAll (fun f => f.new == old) (fun f => { f with new := new }) s.ftu.fwd }
  let left := (namesOf (fun v => v == old) s).length
  let s := if shared && 0 < left then
      modBand (uBand old) (fun b => { b with fwd := b.fwd + 1 })
        { s with ftu.fwd := s.ftu.fwd ++ [{ old := old, new := new, remain := left }] }
    else s
  let s := if was && !liveStored old s then subLive old s else s
  if uBand new = 0 then s
  else if !liveUnit new s then count .ftu 0x09 1 s
  else if newWas then s else addLive new s

/-! The clause journal (R405–R408). -/

/-- Clause types (R406). -/
def cMapSet : Nat := 1
/-- [DEDUCED: log entry 84] -/
def cMapDup : Nat := 2
/-- [DEDUCED: log entry 90] -/
def cUnmap : Nat := 3
def cRelocate : Nat := 4
/-- [DEDUCED: log entries 64, 90] -/
def cMerge : Nat := 5
def cBandOpen : Nat := 6
def cBandSeal : Nat := 7
def cErasePending : Nat := 8
def cEraseDone : Nat := 9
def cBlockRetire : Nat := 0xA
def cExtent : Nat := 0xB
def cCkpt : Nat := 0xC
def cCont : Nat := 0xF
/-- [DESIGN CHOICE: log entry 82] -/
def cSystem : Nat := 0x10

def mkClause (typ flags nsid p0 p1 p2 : Nat) : Clause :=
  { typ := typ, flags := flags, nsid := nsid, p0 := p0, p1 := p1, p2 := p2 }

/-- The ring has a free block, or room in its last (R405, R408). -/
def jrnlRoom (s : State) : Bool :=
  let used := (s.ftu.blocks.filter fun b => !b.spilled).length
  used < 163840 || (s.ftu.blocks.getLast?).any fun b => !b.sealed_ && b.last + 1 - b.first < 126

/-- A new clause block; the first of an empty ring takes its number from its CSEQ (R405). [DEDUCED: log entry 55] -/
def newBlock (no cseq : Nat) : JBlock :=
  { no := no, first := cseq, last := cseq, sealed_ := false, time := 0, copy := 0, spilled := false }

/-- Write a clause in the own half with the next CSEQ, in the open block or a new one; a full block is sealed. The peer
is sent the copy (R405, R406, R408). -/
def journal (c : Clause) (s : State) : State :=
  let n := s.ftu.csnext
  let blocks := match s.ftu.blocks.getLast? with
    | some b =>
      if b.sealed_ || 126 ≤ b.last + 1 - b.first then
        s.ftu.blocks ++ [newBlock (b.no + 1) n]
      else s.ftu.blocks.dropLast ++ [if n + 1 - b.first = 126 then { b with last := n, sealed_ := true, time := stamp s } else { b with last := n }]
    | none => [newBlock (n / 126) n]
  let s := { s with ftu.jrnl := s.ftu.jrnl ++ [{ cseq := n, clause := c, eff := (2, c.p0, c.p1) }], ftu.blocks := blocks,
                    ftu.csnext := n + 1, ftu.capply := n + 1,
                    ftu.cack := if peerIn s then s.ftu.cack else n + 1 }
  mirrorOut (.clause n) s

/-- Unit numbers of a run that maps `es` list (R431). -/
def mappedIn (es : List Nat) (nsid first n : Nat) (s : State) : List Nat :=
  ((es.flatMap fun e => mapOf e nsid s).filter fun e => decide (first ≤ e.1 ∧ e.1 < first + n)).map (·.1) |>.eraseDups

/-- The maps a clause of this SEQ applies to: the current one, and Pending epochs of its namespace whose CUT_SEQ lies above it
(R528). -/
def mapsFor (nsid seq : Nat) (s : State) : List Nat :=
  0 :: (s.eph.epochs.filter fun e => e.nsid == nsid && e.st == .pending && decide (seq < e.cutSeq)).map (·.no)

/-- The epoch at a position of a namespace's epoch list; 0, the current map, at position 0 (R531). -/
def epochAt (nsid pos : Nat) (s : State) : Nat :=
  if pos = 0 then 0 else ((s.eph.epochs.find? fun e => e.nsid == nsid && e.slot == pos).map (·.no)).getD 0

/-- Pages of a run left with every entry 0 are ZERO; their flash copy lives until the next checkpoint root (R431). -/
def zeroPages (es : List Nat) (nsid first n : Nat) (s : State) : State :=
  let gone := fun (p : MapPage) => es.contains p.epoch && p.nsid == nsid && decide (first < (p.page + 1) * 512 ∧ p.page * 512 < first + n) &&
    (mapOf p.epoch nsid s).all fun e => e.1 / 512 != p.page
  let ks := (s.ftu.pages.filter gone).map (·.pid)
  { s with ftu.pages := (s.ftu.pages.filter fun p => !(ks.contains p.pid && p.flash == 0 && !p.writing)).map fun p =>
      if ks.contains p.pid then { p with resident := false, dirty := false, loading := false, zero := true } else p }

/-- MAP_SET of one unit; the stored unit counts in LIVE once (R407, R415). -/
def setUnique (nsid unit v seq cseq : Nat) (s : State) : State :=
  let was := liveStored v s
  let s := mapChange (mapsFor nsid seq s) nsid unit v cseq s
  if was then s else addLive v s

/-- The effect of a clause on the map, the counts and the bands (R407). -/
def applyClause (cseq : Nat) (c : Clause) (s : State) : State :=
  let s := count .ftu 0x01 1 s
  match c.typ with
  | 1 =>
    if c.flags % 2 = 0 then setUnique c.nsid c.p0 c.p1 c.p2 cseq s
    else
      let ks := (List.range 4).filter fun k => bit c.flags (4 + k)
      forEach (ks.zip (List.range 4)) (fun k t => setUnique c.nsid (c.p0 + k.1) (c.p1 + k.2) c.p2 cseq t) s
  | 2 => match tget? s.fiu.fpt c.p1 with
    | some e =>
      let es := mapsFor c.nsid c.p2 s
      let s := ownPages es c.nsid (c.p0 / 512) cseq (modFpt c.p1 (fun e => { e with pendref := e.pendref - 1 }) s)
      let s := forEach (es.map fun x => pidOf x c.nsid (c.p0 / 512) s).eraseDups (fun _ t => refAdd e.uaddr t) s
      mapChange es c.nsid c.p0 e.uaddr cseq s
    | none => s
  | 3 =>
    let es := mapsFor c.nsid c.p2 s
    zeroPages es c.nsid c.p0 c.p1 (forEach (mappedIn es c.nsid c.p0 c.p1 s) (fun x t => mapChange es c.nsid x 0 cseq t) s)
  | 4 =>
    if bit c.flags 1 then
      let e := epochAt c.nsid (c.flags / 16 + 16 * (c.p0 / 2 ^ 52)) s
      let u := c.p0 % 2 ^ 52
      if mapGet e c.nsid u s = c.p1 then fwdDec c.p1 (mapInPlace e c.nsid u c.p2 cseq s) else s
    else relocateApply c.nsid c.p0 c.p1 c.p2 cseq (bit c.flags 0) s
  | 5 =>
    let keepLive := (bandOf (uBand c.p2) s).any fun b => (b.st == .open_ || b.st == .sealed_) && liveUnit c.p2 s
    if mapGet 0 c.nsid c.p0 s = c.p1 && keepLive then
      refDrop c.p1 (mapInPlace 0 c.nsid c.p0 c.p2 cseq (refAdd c.p2 s))
    else s
  | 9 => { s with ftu.bands := (modAll (fun b => b.no == c.p0) (fun b => { b with st := .forwarded }) s.ftu.bands).filter
                      fun b => b.no != c.p0 || 0 < b.fwd }
  | 0xA => { s with ftu.eblk := tset s.ftu.eblk (4294967296 * c.p0 + c.p1)
                      { erases := (tget? s.ftu.eblk (4294967296 * c.p0 + c.p1)).elim 0 (·.erases), st := 3, reason := c.p2 } }
  | 0xB => { s with ftu.extents := tset s.ftu.extents (65536 * c.p0 + c.p1) (c.p2 == s.pins.headSel) }
  | _ => s

/-- The effect record of a clause, from the state before and after it (R570): OUTCOME, UNIT and VALUE.
[DEDUCED: log entry 90] -/
def effectOf (c : Clause) (s t : State) : Nat × Nat × Nat :=
  let first := c.p0 + if c.typ = 1 && c.flags % 2 = 1 then ((List.range 4).find? fun k => bit c.flags (4 + k)).getD 0 else 0
  let now := mapGet 0 c.nsid first t
  match c.typ with
  | 1 | 2 => (0, first, now)
  | 3 => (0, c.p0, c.p1)
  | 4 =>
    if bit c.flags 1 then
      let e := epochAt c.nsid (c.flags / 16 + 16 * (c.p0 / 2 ^ 52)) s
      let u := c.p0 % 2 ^ 52
      (b2n (mapGet e c.nsid u s != c.p1), u, mapGet e c.nsid u t)
    else (b2n (mapGet 0 c.nsid c.p0 s != c.p1), c.p0, now)
  | 5 => (b2n (mapGet 0 c.nsid c.p0 s != c.p1 || now != c.p2), c.p0, now)
  | _ => (2, c.p0, c.p1)

/-- Journal a clause and apply it as soon as it is written in the own half (R408); its effect record is kept for the comparison
(R570). -/
def clause (c : Clause) (s : State) : State :=
  let n := s.ftu.csnext
  let t := applyClause n c (journal c s)
  { t with ftu.jrnl := modAll (fun j => j.cseq == n) (fun j => { j with eff := effectOf c s t }) t.ftu.jrnl }

/-- Unmap a run of units: one UNMAP clause (R431). -/
def unmapRun (nsid first n seq : Nat) (s : State) : State :=
  if n = 0 then s else clause (mkClause cUnmap 0 nsid first n seq) s

/-- Take the next head sequence number (R22). -/
def takeSeq (s : State) : Nat × State := (s.hqe.nextSeq, { s with hqe.nextSeq := s.hqe.nextSeq + 1 })

end Sys2Proof.Machine
end

