-- ==== Sys2Proof/Machine/HqeOps.lean ====
section
/-! DEFINITION. Shared operations on controllers, queues, outstanding commands, write-buffer slots and namespaces. -/

namespace Sys2Proof.Machine

/-! Controllers (R141, R195). -/

/-- The record of a controller; a disabled one where none is held. -/
def ctlOf (c : Ctl) (s : State) : Controller :=
  (s.hqe.ctls.find? fun k => k.id == c).getD
    { id := c, en := false, rdy := false, cfs := false, shst := .normal, qpMax := 0, feats := [], wce := true,
      ps := 0, lastOp := 0, aers := [], events := [], changed := [], tenant := 0, kato := 0, disc := false }

/-- Put a controller's record. -/
def putCtl (k : Controller) (s : State) : State :=
  { s with hqe.ctls := if s.hqe.ctls.any (fun d => d.id == k.id)
      then modAll (fun d => d.id == k.id) (fun _ => k) s.hqe.ctls else s.hqe.ctls ++ [k] }

/-- The tenant group of a controller (R195): HQE_FMAP for an HPE function. -/
def tenantOf (c : Ctl) (s : State) : Nat :=
  match c with
  | .hpe p f => bankF F.hqeFmapTenant (f + 512 * p) 0 s
  | .fab _ => (ctlOf c s).tenant

/-- Post an event: it completes a held Asynchronous Event Request, or waits (R204). The completion itself is posted by
`postCpl` below; here the request's handle is answered. -/
def takeAer (c : Ctl) (e : AsyncEv) (s : State) : Option Nat × State :=
  let k := ctlOf c s
  match k.aers with
  | h :: r => (some h, emit (.asyncEvent c e) (putCtl { k with aers := r } s))
  | [] => (none, putCtl { k with events := k.events ++ [e] } s)

/-! Queues and completions (R188–R193). -/

/-- A submission queue and a completion queue by controller and identifier. -/
def sqOf (c : Ctl) (qid : Nat) (s : State) : Option SubQ := s.hqe.sqs.find? fun q => q.ctl == c && q.qid == qid
def cqOf (c : Ctl) (qid : Nat) (s : State) : Option CplQ := s.hqe.cqs.find? fun q => q.ctl == c && q.qid == qid
def modSq (c : Ctl) (qid : Nat) (f : SubQ → SubQ) (s : State) : State :=
  { s with hqe.sqs := modFirst (fun q => q.ctl == c && q.qid == qid) f s.hqe.sqs }
def modCq (c : Ctl) (qid : Nat) (f : CplQ → CplQ) (s : State) : State :=
  { s with hqe.cqs := modFirst (fun q => q.ctl == c && q.qid == qid) f s.hqe.cqs }

/-- Entries used in a completion queue. -/
def cqUsed (q : CplQ) : Nat := (q.tail + q.size - q.head) % q.size

/-- Commands outstanding whose completions go to completion queue `cqid` of `c` (R190). -/
def cqOwed (c : Ctl) (cqid : Nat) (s : State) : Nat :=
  (s.hqe.cmds.filter fun m => m.ctl == some c && ((sqOf c m.qid s).any fun q => q.cqid == cqid)).length

/-- Interrupt coalescing of a controller: threshold and time of feature 0x08, and a vector's disable bit of feature
0x09 (R193, R206). -/
def coalesce (c : Ctl) (vector : Nat) (s : State) : Option Nat :=
  let k := ctlOf c s
  let v := tget k.feats 0x08 0
  if v / 256 = 0 || vector = 0 || tget k.feats (0x90000 + vector) 0 = 1 then none else some (v % 256)

/-- Signal a completion by MSI-X, or hold the message under coalescing; entries are never delayed (R120, R193). -/
def signalCq (c : Ctl) (q : CplQ) (s : State) : State :=
  if !q.irqEn then s
  else match coalesce c q.vector s with
    | none => emit (.msix c q.vector) s
    | some thr =>
      if thr < q.held + 1 then emit (.msix c q.vector) (modCq c q.qid (fun r => { r with held := 0 }) s)
      else modCq c q.qid (fun r => { r with held := r.held + 1 }) s

/-- Write a completion entry into the completion queue of submission queue `qid`, then signal it (R120). -/
def postCpl (c : Ctl) (qid cid : Nat) (st : NvmeSt) (s : State) : State :=
  let s := count .hqe 0x02 1 (emit (.nvmeCpl c qid cid st) s)
  match (sqOf c qid s).bind fun q => cqOf c q.cqid s with
  | none => s
  | some q =>
    let last := q.tail + 1 = q.size
    let s := modCq c q.qid (fun r => { r with tail := if last then 0 else r.tail + 1,
                                              phase := if last then !r.phase else r.phase }) s
    signalCq c q s

/-! Outstanding commands (R188, R248). -/

/-- The outstanding command of a handle. -/
def cmdOf (h : Nat) (s : State) : Option Cmd := s.hqe.cmds.find? fun c => c.h == h
def modCmd (h : Nat) (f : Cmd → Cmd) (s : State) : State :=
  { s with hqe.cmds := modFirst (fun c => c.h == h) f s.hqe.cmds }
def dropCmd (h : Nat) (s : State) : State := { s with hqe.cmds := s.hqe.cmds.filter fun c => c.h != h }

/-- A namespace and a group by number. -/
def nsOf (n : Nat) (s : State) : Option Namespace := s.hqe.ns.find? fun x => x.nsid == n
def modNs (n : Nat) (f : Namespace → Namespace) (s : State) : State :=
  { s with hqe.ns := modFirst (fun x => x.nsid == n) f s.hqe.ns }
def groupOf (g : Nat) (s : State) : Option AnaGroup := s.hqe.groups.find? fun x => x.id == g

/-- This head owns a namespace (R224). -/
def ownsNs (x : Namespace) (s : State) : Bool := (groupOf x.group s).any fun g => g.mine

/-! Write-buffer slots (R249–R256). -/

/-- Slots of a half: while the head is alone and the mirror half has returned, both halves' (R23, R249). -/
def ownSlots (s : State) : Nat := if s.wb.alone then 3670016 else 1835008

/-- Occupancy of the own half, as STG_WB_STAT shows it. Slots numbered past the half are a failed head's, taken over with its mirror
half (R582). -/
def ownUsed (s : State) : Nat := (s.wb.own.filter fun p => decide (p.1 < ownSlots s)).length

/-- A slot of a unit that the slot index names: not a shadow, not replaced, not being released (R253). -/
def indexed (nsid unit : Nat) (p : Nat × Slot) : Bool :=
  p.2.nsid == nsid && p.2.unit == unit && !p.2.shadow && !p.2.replaced && p.2.st != .releasing

/-- The own slot of a unit (R29). -/
def slotOf (nsid unit : Nat) (s : State) : Option (Nat × Slot) := s.wb.own.find? (indexed nsid unit)

/-- The mirror slot of a unit, until the mirror half returns to the own pool (R29, R582). [DEDUCED: log entry 81] -/
def mirSlotOf (nsid unit : Nat) (s : State) : Option (Nat × Slot) := s.wb.mir.find? (indexed nsid unit)

/-- A slot that reads may use: its data is whole (R251, R253). -/
def readable (x : Slot) : Bool := x.st != .landing

/-- The fields of a slot that its descriptor holds (R250). -/
def descOf (x : Slot) : Nat × Nat × Nat × SlotSt × Nat × Bool × Bool × Bool × Bool :=
  (x.nsid, x.unit, x.seq, x.st, x.mask, x.durable, x.fillDone, x.shadow, x.replaced)

/-- Change a slot; a change of its descriptor is mirrored (R563). -/
def modSlot (n : Nat) (f : Slot → Slot) (s : State) : State :=
  let t := { s with wb.own := tmod s.wb.own n f }
  if (tget? s.wb.own n).map descOf == (tget? t.wb.own n).map descOf then t else mirrorOut (.desc n) t

/-- Count a unit in or out of the presence filter (R256): saturating at 15, and a saturated counter stays. -/
def filterAdd (nsid unit : Nat) (s : State) : State :=
  forEach (Config.filterPos nsid unit)
    (fun p t => { t with wb.filter := tput t.wb.filter p (min 15 (tget t.wb.filter p 0 + 1)) 0 }) s
def filterSub (nsid unit : Nat) (s : State) : State :=
  forEach (Config.filterPos nsid unit)
    (fun p t => let v := tget t.wb.filter p 0
                { t with wb.filter := tput t.wb.filter p (if v = 15 then 15 else v - 1) 0 }) s

/-- A slot returns to Free (R251); HQE may fetch writes again (R255). With the last slot taken over from a failed head, the mirror half
returns to the own pool (R23, R582). -/
def freeSlot (n : Nat) (s : State) : State :=
  let s := mirrorOut (.desc n) { s with wb.own := terase s.wb.own n, hqe.wbHold := false }
  if 1835008 ≤ n && s.pair.role == .alone && s.wb.own.all fun p => decide (p.1 < 1835008) then { s with wb.alone := true } else s

/-- A slot enters Releasing, and goes Free when the peer acknowledges, or at once while the head runs alone (R251,
R252). -/
def releaseSlot (n : Nat) (s : State) : State :=
  match tget? s.wb.own n with
  | none => s
  | some x =>
    let s := if x.shadow || x.replaced then s else filterSub x.nsid x.unit s
    if peerIn s then mirrorOut (.slotRelease n) (modSlot n (fun y => { y with st := .releasing }) s) else freeSlot n s

/-- Unmapping whole units takes their slots with it, for slots of a lower SEQ: a filled one is released, one still landing
or on its way through destage ends without effect (R431). -/
def dropSlots (nsid first n seq : Nat) (s : State) : State :=
  forEach ((s.wb.own.filter fun p => p.2.nsid == nsid && decide (first ≤ p.2.unit ∧ p.2.unit < first + n) &&
      decide (p.2.seq < seq) && p.2.st != .releasing).map (·.1))
    (fun m t => match tget? t.wb.own m with
      | none => t
      | some x =>
        if x.st = .filled then releaseSlot m t
        else if x.replaced || x.shadow then modSlot m (fun y => { y with replaced := true }) t
        else modSlot m (fun y => { y with replaced := true }) (if x.st = .landing then t else filterSub nsid x.unit t)) s

/-- Unmap a run of whole units, with their slots (R431). -/
def unmapUnits (nsid first n seq : Nat) (s : State) : State := dropSlots nsid first n seq (unmapRun nsid first n seq s)

/-- A failed write's slot: freed on both heads without touching any former slot of its unit (R117, R251). -/
def failSlot (n : Nat) (s : State) : State := releaseSlot n (modSlot n (fun x => { x with shadow := true }) s)

/-- A landing slot whose data is whole and acknowledged becomes Filled; a shadow takes its former slot's place in the
slot index in the same step (R251, R253). -/
def fillSlot (n : Nat) (s : State) : State :=
  match tget? s.wb.own n with
  | none => s
  | some x =>
    if x.st != .landing || !x.landed || (!x.acked && peerIn s) then s
    else if x.replaced then releaseSlot n s
    else
      let fill := modSlot n (fun y => { y with st := .filled, shadow := false, acked := true, filledAt := s.now })
      match s.wb.own.find? (fun p => p.1 != n && indexed x.nsid x.unit p) with
      | none => filterAdd x.nsid x.unit (fill s)
      | some (m, y) =>
        let s := fill (modSlot m (fun z => { z with replaced := true }) s)
        if y.st == .filled then releaseSlot m s else s

/-- The data of a slot has landed: the copy goes to the peer, and without one the slot is filled (R21, R22). -/
def landSlot (n : Nat) (s : State) : State :=
  let s := modSlot n (fun x => { x with landed := true }) s
  fillSlot n (mirrorOut (.desc n) (mirrorOut (.mirror n) s))

/-- Units of a namespace (R229, R395). -/
def unitsOf (x : Namespace) : Nat := (x.nsze * (if x.lbaf = 0 then 512 else 4096) + 4095) / 4096

/-- Commands of namespace `n` taken in before head sequence number `since` are outstanding (R233, R235).
[DEDUCED: log entry 40] -/
def nsBusy (n since : Nat) (s : State) : Bool :=
  s.hqe.cmds.any fun c => c.sqe.nsid == n && (c.ctl.isNone || c.qid != 0) && decide (c.seq < since)

/-- A namespace leaves the pair: its units are unmapped and its record goes (R233, R431).
[DESIGN CHOICE: log entry 38] -/
def nsRemove (x : Namespace) (s : State) : State :=
  let t := takeSeq s
  let s := unmapUnits x.nsid 0 (unitsOf x) t.1 t.2
  { s with hqe.ns := s.hqe.ns.filter fun y => y.nsid != x.nsid,
           eph.epochs := modAll (fun e => e.no == x.cloneOf && x.cloneOf != 0) (fun e => { e with clones := e.clones - 1 })
             s.eph.epochs }

/-- NS_DELETE completes after the last fetched command of its namespace (R233). [DESIGN CHOICE: log entry 38] -/
def nsDeleteDone (n : Nat) (s : State) : State :=
  match nsOf n s with
  | none => s
  | some x => match x.deleting with
    | none => s
    | some (q, tag, since) => if nsBusy n since s then s else mgmtPost q tag stSuccess 0 (nsRemove x s)

/-- A cut's guard delays the completion of a command fetched after its firing (R526). [DEDUCED: log entry 66] -/
def guardHeld (c : Cmd) (s : State) : Bool :=
  (c.ctl.isNone || c.qid != 0) && s.eph.guards.any fun g => s.eph.epochs.any fun e =>
    e.no == g.1 && e.nsid == c.sqe.nsid && decide (e.cutSeq ≤ c.seq)

/-- A command that only its completion is left of. -/
def onlyDone (c : Cmd) (st : NvmeSt) : Cmd :=
  { c with phase := .running, todo := [], need := 0, waitLand := [], waitAck := [], waitDur := [], waitCseq := 0, waitSync := [],
           waitRead := [], waitPart := 0, st := st, guard := true }

/-- Bytes held in STG for transmission (R169). -/
def txTotal (s : State) : Nat := (s.fab.conns.map (·.unacked)).sum

/-- Hand bytes to a connection: they are held until acknowledged; past 24 MiB connections wait to send (R169). -/
def txHold (conn n : Nat) (s : State) : State :=
  let was := txTotal s
  let s := { s with fab.conns := modFirst (fun c => c.id == conn) (fun c => { c with unacked := c.unacked + n }) s.fab.conns }
  if was ≤ 25165824 && 25165824 < txTotal s then note .toe E.toeStgFull 0xFF s else s

/-- Post a command's completion where it arrived: to its queue, as the report to the head that forwarded it (R215), or as a
SYNC_ACK (R548). -/
def finishCmd (c : Cmd) (st : NvmeSt) (s : State) : State :=
  match c.ctl, c.repl with
  | some k, _ => postCpl k c.qid c.sqe.cid st s
  | none, some (n, ref) => txHold n 64 <| count .eph 0x04 1 (emit (.frame n 0x21 ref [])
      { s with repl.conns := modAll (fun r => r.conn == n) (fun r => { r with txSeq := r.txSeq + 1, lastTx := s.now }) s.repl.conns })
  | none, none => sendTroys (.forwardReport c.qid st) s

/-- End a command with a status; a guard delays its completion (R526). -/
def endCmd (h : Nat) (st : NvmeSt) (s : State) : State :=
  match cmdOf h s with
  | none => s
  | some c =>
    if guardHeld c s then modCmd h (fun c => onlyDone c st) s
    else nsDeleteDone c.sqe.nsid (finishCmd c st (dropCmd h s))

/-- A command that has nothing left to wait for. -/
def cmdReady (c : Cmd) : Bool :=
  c.phase == .running && c.todo.isEmpty && c.need == 0 && c.waitLand.isEmpty && c.waitAck.isEmpty &&
  c.waitDur.isEmpty && c.waitCseq == 0 && c.waitSync.isEmpty && c.waitRead.isEmpty && c.waitPart == 0 && !c.guard

/-- Complete a command once it waits for nothing (R22, R23, R210–R213, R526, R548). -/
def settle (h : Nat) (s : State) : State :=
  match cmdOf h s with
  | none => s
  | some c => if cmdReady c then endCmd h c.st s else s

/-- Settle every command. -/
def settleAll (s : State) : State := forEach (s.hqe.cmds.map (·.h)) settle s

/-- Admit a command: the record HQE keeps from the fetch to the completion (R188, R248). -/
def admitCmd (ctl : Option Ctl) (qid host : Nat) (e : Sqe) (s : State) : State :=
  { s with hqe.nextH := s.hqe.nextH + 1,
           hqe.cmds := s.hqe.cmds ++
             [{ h := s.hqe.nextH, ctl := ctl, qid := qid, sqe := e, host := host, cmp := [], phase := .fetched, seq := 0, todo := [], need := 0,
                waitLand := [], waitAck := [], waitDur := [], waitCseq := 0, waitSync := [], waitRead := [],
                waitPart := 0, guard := false, repl := none, st := .success }] }

/-- Answer an event, completing the request it takes (R204). -/
def postEvent (c : Ctl) (e : AsyncEv) (s : State) : State :=
  match takeAer c e s with
  | (some h, t) => endCmd h .success t
  | (none, t) => t

/-- Post an event on every enabled controller of a tenant group that shows a namespace (R223, R225). -/
def postTenant (tenant : Nat) (e : AsyncEv) (s : State) : State :=
  forEach (s.hqe.ctls.filter fun k => k.en && tenantOf k.id s == tenant) (fun k t => postEvent k.id e t) s

/-- The controllers a namespace is attached to learn of its change (R223). -/
def nsChanged (tenant nsid : Nat) (s : State) : State :=
  forEach (s.hqe.ctls.filter fun k => k.en && tenantOf k.id s == tenant)
    (fun k t => postEvent k.id .nsAttrChanged
      (let k' := ctlOf k.id t
       putCtl { k' with changed := if k'.changed.contains nsid then k'.changed else k'.changed ++ [nsid] } t)) s

/-- An ANA group changes state: every controller with one of its namespaces posts ANA Change (R225). -/
def anaChanged (g : Nat) (s : State) : State :=
  forEach ((s.hqe.ns.filter fun x => x.group == g).map (·.tenant)).eraseDups (fun n t => postTenant n .anaChange t) s

/-- Change a group's owner or Change state, and report it (R224, R225). -/
def setGroup (g : Nat) (mine change : Bool) (s : State) : State :=
  anaChanged g { s with hqe.groups := modFirst (fun x => x.id == g) (fun x => { x with mine := mine, change := change })
                          s.hqe.groups }

/-- Take every landing slot of a command out with it (R117): slots already whole and acknowledged stay (R137). -/
def failSlots (h : Nat) (s : State) : State :=
  forEach ((s.wb.own.filter fun p => p.2.cmd == h && p.2.st == .landing).map (·.1)) failSlot s

/-- End a command's host read requests with a tag standing (R126, R131). -/
def cancelReads (h : Nat) (st : TagSt) (s : State) : State :=
  { s with ports.reads := modAll (fun r => r.kind == .data h && r.st == .live) (fun r => { r with st := st })
             s.ports.reads }

/-- A command is failed by a data transfer error: its slots are freed, no block changes (R116, R117, R126). -/
def failCmd (h : Nat) (st : NvmeSt) (s : State) : State :=
  endCmd h st (cancelReads h .cancelled (failSlots h { s with wb.reads := s.wb.reads.filter fun r => r.for_ != .host h }))

/-- A command of a function or association being reset: no completion; a write whose data had fully landed and been
mirrored is stored, any other changes nothing (R137, R164). -/
def killCmd (c : Cmd) (s : State) : State :=
  let s := cancelReads c.h .resetCancelled s
  let s := { s with wb.reads := s.wb.reads.filter fun r => r.for_ != .host c.h }
  let s := if c.todo.isEmpty && c.waitLand.isEmpty && c.waitAck.isEmpty then s else failSlots c.h s
  nsDeleteDone c.sqe.nsid (dropCmd c.h s)

/-- End every command of a controller, and its queues and settings (R137, R216). -/
def resetCtl (c : Ctl) (s : State) : State :=
  let s := forEach (s.hqe.cmds.filter fun m => m.ctl == some c) killCmd s
  { s with hqe.sqs := s.hqe.sqs.filter fun q => q.ctl != c,
           hqe.cqs := s.hqe.cqs.filter fun q => q.ctl != c,
           hqe.ctls := s.hqe.ctls.filter fun k => k.id != c }

/-- A function of an HPE is reset (R137): its controller, and its submission fetches. -/
def resetFn (p f : Nat) (s : State) : State :=
  let s := resetCtl (.hpe p f) s
  { s with ports.reads := modAll (fun r => r.port == p && r.func == f && r.st != .quarantined)
             (fun r => { r with st := .resetCancelled }) s.ports.reads }

end Sys2Proof.Machine
end

