-- ==== Sys2Proof/Machine/CutOps.lean ====
section
/-! DEFINITION. Cuts and epochs, and what commands and connections do to replication streams (R524–R530, R539, R548, R549), with the
loss of a connection (R164, R175). -/

namespace Sys2Proof.Machine

/-! Cuts (R511, R524–R530, R535). -/

/-- EPH_TERR now: it grows in Holdover and Free-run (R511). -/
def terrNow (s : State) : Nat :=
  if timeUnset s then 0xFFFFFFFF
  else match s.eph.holdSince with
    | none => min 0xFFFFFFFF s.eph.terr
    | some t => min 0xFFFFFFFF (s.eph.terr + getF F.ephHoldHoldPpb s * (s.now - t) / 1000000000)

/-- EPH_TERR exceeds EPH_GUARD ÷ 2 (R526, R533). -/
def unsure (s : State) : Bool := decide (getF F.ephGuardGuard s < 2 * terrNow s)

/-- The SYSTEM clause of an epoch or entry record (R406, R519, R530, R535). [DESIGN CHOICE: log entry 82] -/
def sysClause (nsid key v : Nat) (s : State) : State := clause (mkClause cSystem 1 nsid key v 0) s

/-- Cut one namespace at CUT_SEQ `seq`: an epoch number of the reserve, a place in its list, a map that shares every page of the
current one (R524–R530). The epoch's number, 0 where the cut is skipped. -/
def cutNs (x : Epoch) (nsid : Nat) (s : State) : Nat × State :=
  let mine := s.eph.epochs.filter fun e => e.nsid == nsid
  match s.eph.reserve with
  | [] => (0, note .eph E.ephEpochLimit 0xFF s)
  | n :: r =>
    if 4096 ≤ mine.length || 1048575 ≤ s.eph.epochs.length then (0, note .eph E.ephEpochLimit 0xFF s)
    else
      let slot := (leastFree (mine.map (·.slot)) 4096 1).getD 1
      let s := sysClause nsid n x.cutSeq { s with eph.reserve := r }
      let s := setMap n nsid (mapOf 0 nsid s) s
      let shared := (s.ftu.pages.filter fun p => p.epoch == 0 && p.nsid == nsid).map fun p => { p with epoch := n }
      let s := { s with ftu.pages := s.ftu.pages ++ shared, eph.epochs := s.eph.epochs ++ [{ x with no := n, nsid := nsid, slot := slot }],
                        eph.guards := s.eph.guards ++ [(n, s.eph.time + getF F.ephGuardGuard s)] }
      (n, count .eph 0x03 1 s)

/-- Cut namespaces at one CUT_SEQ (R525): each with its epoch, 0 where it was skipped. [DEDUCED: log entry 120] -/
def takeCut (nsids : List Nat) (groupId sched retain : Nat) (internal received late : Bool) (mgmt : Option (Nat × Nat)) (s : State) :
    List (Nat × Nat) × State :=
  let t := takeSeq s
  let x : Epoch := { no := 0, nsid := 0, slot := 0, cutSeq := t.1, instant := s.eph.time, groupId := groupId, st := .pending,
                     internal := internal, received := received, retain := retain, late := late, unsure := unsure s, sched := sched,
                     clones := 0, mgmt := mgmt }
  nsids.foldl (fun a n => let r := cutNs x n a.2; (a.1 ++ [(n, r.1)], r.2)) ([], t.2)

/-- A stream holds the epoch (R530). -/
def heldEpoch (n : Nat) (s : State) : Bool :=
  s.repl.streams.any fun x => x.base.any (fun b => b.2 == n) || x.cut.any fun c => c.2.any fun b => b.2 == n

/-- An epoch enters Deleting, journalled; its pages go in the background (R536). -/
def dropEpoch (n : Nat) (s : State) : State :=
  match s.eph.epochs.find? fun e => e.no == n with
  | none => s
  | some e => sysClause e.nsid n 0 { s with eph.epochs := modAll (fun e => e.no == n) (fun e => { e with st := .deleting }) s.eph.epochs }

/-- A Pending epoch's cut lies above this SEQ of a namespace (R527). [DEDUCED: log entry 120] -/
def preCut (nsid seq : Nat) (s : State) : Bool :=
  s.eph.epochs.any fun e => e.nsid == nsid && e.st == .pending && decide (seq < e.cutSeq)

/-- A change of these units waits: a slot of one holds a version that a Pending epoch needs (R527). -/
def cutHeld (nsid : Nat) (p : Nat → Bool) (s : State) : Bool :=
  s.wb.own.any fun x => x.2.nsid == nsid && p x.2.unit && preCut nsid x.2.seq s

/-! Streams (R539, R540, R548, R549). -/

def streamOf (slot : Nat) (s : State) : Option Stream := s.repl.streams.find? fun x => x.slot == slot
def modStream (slot : Nat) (f : Stream → Stream) (s : State) : State :=
  { s with repl.streams := modFirst (fun x => x.slot == slot) f s.repl.streams }

/-- A stream changes state (R540, R553). -/
def setStream (slot : Nat) (st : StreamSt) (s : State) : State :=
  if (streamOf slot s).any fun x => x.st != st then setInt .eph I.ephStreamChange (modStream slot (fun x => { x with st := st }) s) else s

/-- Connections of a stream that are up, in order. -/
def connsUp (slot : Nat) (s : State) : List Nat := (s.repl.conns.filter fun r => r.slot == slot && r.up).map (·.conn)

/-- The connection that carries a namespace's frames (R548). [DEDUCED: log entry 73] -/
def connFor (slot nsid : Nat) (s : State) : Option Nat := let l := connsUp slot s; l[nsid % l.length]?

/-- Send a frame with so many payload bytes (R544, R545). -/
def sendFrame (conn typ ref : Nat) (what : List Nat) (bytes : Nat) (s : State) : State :=
  let up := fun (r : ReplConn) => { r with txSeq := if typ = 1 || typ = 2 then r.txSeq else r.txSeq + 1, lastTx := s.now }
  let slots := (s.repl.conns.filter fun r => r.conn == conn).map (·.slot)
  let s := forEach slots (fun k t => modStream k (fun x => { x with sent := x.sent + bytes }) t) s
  txHold conn (64 + bytes) <| count .eph 0x04 1 (emit (.frame conn typ ref what) { s with repl.conns := modAll (fun r => r.conn == conn) up s.repl.conns })

/-- Payload bytes of a DATA record of `n` units; compressed, its size is the encoder's, a free value (R546).
[DESIGN CHOICE: log entry 10] -/
def recBytes (x : Stream) (n : Nat) (s : State) : Nat × State :=
  if x.body.compress then let d := drawNat s; (32 + d.1 % (4096 * n + 1) / 16 * 16, d.2) else (32 + 4096 * n, s)

/-- Split a list into pieces of `n`. -/
def pieces {α : Type} (n : Nat) (l : List α) : List (List α) :=
  (List.range ((l.length + n - 1) / n)).map fun k => (l.drop (n * k)).take n

/-! Transfers (R541–R543). -/

/-- New unit read. -/
def newRead (f : ReadFor) (nsid unit u : Nat) (st : ReadStage) (s : State) : State :=
  { s with wb.nextR := s.wb.nextR + 1, wb.reads := s.wb.reads ++
      [{ id := s.wb.nextR, for_ := f, nsid := nsid, unit := unit, stage := st, uaddr := u, ovMask := 0, ovData := [],
         body := [], cws := [], gone := [], late := [], tries := [] }] }

/-- NS index of a namespace of a stream (R545). [DEDUCED: log entry 70] -/
def nsIndex (x : Stream) (nsid : Nat) : Nat := (x.body.ns.map (·.1)).idxOf nsid

/-- A transfer stops where it is (R543). [DEDUCED: log entry 73] -/
def stopXfer (slot : Nat) (s : State) : State :=
  modStream slot (fun x => { x with sending := false, batches := [], fpq := [] })
    { s with wb.reads := s.wb.reads.filter fun r => r.for_ != .stream slot }

/-- Once every read is back: the collected fingerprints go out, and with no batch unanswered CUT_END does (R542, R543). -/
def xferPump (slot : Nat) (s : State) : State :=
  match streamOf slot s, (connsUp slot s).head? with
  | some x, some n =>
    let at_ := x.cut.elim 0 (·.1)
    if !x.sending || s.wb.reads.any fun r => r.for_ == .stream slot then s
    else if !x.fpq.isEmpty then
      forEach (pieces 4096 x.fpq) (fun b t =>
        let t := sendFrame n 0x11 at_ (b.flatMap fun p => [p.1, p.2]) (48 * b.length) t
        let q := ((t.repl.conns.find? fun r => r.conn == n).map (·.txSeq)).getD 0
        modStream slot (fun x => { x with batches := x.batches ++ [(q, b)] }) t) (modStream slot (fun x => { x with fpq := [] }) s)
    else if x.batches.isEmpty then
      sendFrame n 0x15 at_ [x.nData, x.nDup, x.nUnmap] 24 (modStream slot (fun x => { x with sending := false }) s)
    else s
  | _, _ => s

/-- Send units as data: flags [0] says LOST (R541, R546). -/
def sendUnits (slot : Nat) (lost : Bool) (l : List (Nat × Nat)) (s : State) : State :=
  match streamOf slot s, (connsUp slot s).head? with
  | some x, some n =>
    let r : Nat × State := if lost then (32 * l.length, s) else recBytes x l.length s
    let s := sendFrame n 0x13 (x.cut.elim 0 (·.1)) (b2n lost :: l.flatMap fun p => [nsIndex x p.1, p.2]) r.1 r.2
    count .eph 0x06 l.length (modStream slot (fun x => { x with nData := x.nData + l.length }) s)
  | _, _ => s

/-- A changed unit has been read for a transfer: its fingerprint is sent first, or the unit itself; one that cannot be read is
Lost (R541, R542). -/
def xferUnit (slot nsid unit : Nat) (lost : Bool) (s : State) : State :=
  match streamOf slot s, (s.repl.conns.find? fun r => r.slot == slot && r.up) with
  | some x, some r =>
    if !x.sending then s
    else if !lost && x.body.fpFirst && r.fpOk.contains nsid then xferPump slot (modStream slot (fun x => { x with fpq := x.fpq ++ [(nsid, unit)] }) s)
    else xferPump slot (sendUnits slot lost [(nsid, unit)] s)
  | _, _ => s

/-- The cut of a stream can be sent: each of its epochs is Ready (R541). -/
def cutReady (x : Stream) (s : State) : Bool :=
  x.cut.any fun c => c.2.all fun b => s.eph.epochs.any fun e => e.no == b.2 && e.st == .ready

/-- One namespace's part of the difference: emptied units as UNMAP, Lost ones as such, changed ones read (R541, R549). -/
def sendNs (slot n : Nat) (x : Stream) (nsid epoch : Nat) (s : State) : State :=
  let new := mapOf epoch nsid s
  let old := ((x.base.find? fun b => b.1 == nsid).map fun b => mapOf b.2 nsid s).getD []
  let extra := (x.changed.filter fun c => c.1 == nsid).map (·.2)
  let gone := (old.map (·.1) ++ extra).eraseDups.filter fun u => (tget? new u).isNone
  let diff := new.filter fun e => tget? old e.1 != some e.2 || extra.contains e.1
  let s := if gone.isEmpty then s
    else modStream slot (fun x => { x with nUnmap := x.nUnmap + gone.length })
      (sendFrame n 0x14 (x.cut.elim 0 (·.1)) (gone.flatMap fun u => [nsIndex x nsid, u]) (24 * gone.length) s)
  forEach diff (fun e t => if e.2 = lostEntry then sendUnits slot true [(nsid, e.1)] t else newRead (.stream slot) nsid e.1 e.2 .map t) s

/-- Send the difference of the cut from its base, from CUT_BEGIN (R541, R543). -/
def sendCut (slot : Nat) (s : State) : State :=
  match streamOf slot s, (connsUp slot s).head? with
  | some x, some n =>
    match x.cut with
    | none => s
    | some c =>
      if !cutReady x s || x.st == .broken || x.st == .setup then s
      else
        let s := modStream slot (fun x => { x with sending := true, nData := 0, nDup := 0, nUnmap := 0 }) (stopXfer slot s)
        let s := sendFrame n 0x10 c.1 [x.baseAt] 8 s
        xferPump slot (forEach c.2 (fun b t => sendNs slot n x b.1 b.2 t) s)
  | _, _ => s

/-- A stream that is not strict fractures (R549): a fracture epoch, waiting completions on the local rule, the fracture set. -/
def fracture (slot : Nat) (s : State) : State :=
  match streamOf slot s with
  | none => s
  | some x =>
    if x.body.target || !x.body.sync || x.st != .active || x.body.strict || !x.mine then s
    else
      let ns := x.body.ns.map (·.1)
      let s := forEach (x.base.map (·.2)) dropEpoch s
      let r := takeCut ns 0 0xFFFF 0 true false false none s
      let got := r.1.filter fun e => e.2 != 0
      let ch := ((r.2.wb.own.filter fun p => ns.contains p.2.nsid && p.2.st != .releasing).map fun p => (p.2.nsid, p.2.unit)).eraseDups
      let s := modStream slot (fun x => { x with base := got, baseAt := if got.isEmpty then 0 else s.eph.time, cut := none, changed := ch, acks := [] }) r.2
      let s := setStream slot .fractured (note .eph E.ephReplFractured 0xFF s)
      settleAll { s with hqe.cmds := s.hqe.cmds.map fun c => { c with waitSync := c.waitSync.filter (· != slot) } }

/-- The stream whose SYNC_WRITEs a changing command to a namespace takes part in (R548, R549). -/
def syncStream (nsid : Nat) (s : State) : Option Stream :=
  s.repl.streams.find? fun x => !x.body.target && x.body.sync && x.mine && x.body.ns.any (fun p => p.1 == nsid) &&
    (x.st == .active || (x.cut.isSome && (x.st == .fractured || x.st == .initial)))

/-- A changing command begins: its completion waits for SYNC_ACK once its frames go out (R548). -/
def syncBegin (h nsid : Nat) (s : State) : State :=
  match syncStream nsid s with
  | none => s
  | some x => modCmd h (fun c => { c with waitSync := [x.slot] }) s

/-- The units that a changing command carries. -/
def cmdUnits (c : Cmd) (s : State) : List Nat :=
  let lb := (nsOf c.sqe.nsid s).elim 4096 fun x => if x.lbaf = 0 then 512 else 4096
  let run := fun (a n : Nat) => if n = 0 then [] else (List.range ((a * lb + n * lb - 1) / 4096 - a * lb / 4096 + 1)).map (a * lb / 4096 + ·)
  if c.sqe.opc = 0 then [] else if c.sqe.opc = 9 then (c.sqe.ranges.flatMap fun r => run r.1 r.2).eraseDups else run c.sqe.slba c.sqe.nlb

/-- Send a command's SYNC_WRITE frames; during catch-up nothing waits for the answer (R548, R549). -/
def syncSend (h : Nat) (s : State) : State :=
  match cmdOf h s with
  | none => s
  | some c => forEach c.waitSync (fun k t =>
      match streamOf k t with
      | none => t
      | some x =>
        if x.acks.any fun a => a.2.1 == h then t
        else match connFor k c.sqe.nsid t with
          | none => t
          | some n =>
            let us := cmdUnits c t
            let t := forEach (if us.isEmpty then [[]] else pieces 256 us) (fun l u =>
              let r : Nat × State := if l.isEmpty then (0, u) else recBytes x l.length u
              sendFrame n 0x20 c.seq l r.1 r.2) t
            let t := modStream k (fun x => { x with acks := if x.st == .active then x.acks ++ [(c.seq, h, t.now)] else x.acks }) t
            if x.st == .active then t else modCmd h (fun c => { c with waitSync := c.waitSync.filter (· != k) }) t) s

/-- A cut whose transfer cannot go on, for changes after it could not be sent, is given up: the next catch-up takes a new one
(R549). -/
def dropCut (slot : Nat) (x : Stream) (s : State) : State :=
  let s := forEach ((x.cut.elim [] (·.2)).map (·.2)) dropEpoch (modStream slot (fun x => { x with cut := none }) s)
  settleAll { s with hqe.cmds := s.hqe.cmds.map fun c => { c with waitSync := c.waitSync.filter (· != slot) } }

/-- A connection of a stream was lost: a transfer in progress is interrupted, and starts again on another connection; without any the
stream fractures, and a catch-up is over (R543, R549). [DEDUCED: log entry 73] -/
def streamLost (slot : Nat) (s : State) : State :=
  match streamOf slot s with
  | none => s
  | some x =>
    let s := stopXfer slot s
    if !(connsUp slot s).isEmpty then (if x.body.target then s else sendCut slot s)
    else if x.body.target then s
    else if x.st == .active then fracture slot s
    else if x.body.sync && x.cut.isSome then dropCut slot x s
    else s

/-! Connections (R159, R164). -/

/-- The connections of a fabric association. -/
def connsOf (i : Nat) (s : State) : List Conn := s.fab.conns.filter fun c => c.ctl == some i

/-- Close a connection (R164, R166–R168). -/
def closeConn (n : Nat) (s : State) : State :=
  if s.fab.conns.any (fun c => c.id == n) then
    let slots := ((s.repl.conns.filter fun r => r.conn == n).map (·.slot)).eraseDups
    let s := count .toe 0x02 1 { s with fab.conns := s.fab.conns.filter (fun c => c.id != n),
                                        repl.conns := s.repl.conns.filter fun r => r.conn != n }
    forEach slots streamLost s
  else s

/-- The association of fabric controller `i` ends: its connections close, its number and queue pairs are freed, its
commands end as in a reset (R164). -/
def endAssoc (i : Nat) (s : State) : State :=
  resetCtl (.fab i) (forEach ((connsOf i s).map (·.id)) closeConn s)

/-- A connection is lost: it closes, and any association it belongs to ends (R164, R175). [DEDUCED: log entry 73] -/
def loseConn (n : Nat) (s : State) : State :=
  match s.fab.conns.find? (fun c => c.id == n) with
  | none => s
  | some c => match c.ctl with
    | some i => closeConn n (endAssoc i s)
    | none => closeConn n s

end Sys2Proof.Machine
end

