-- ==== Sys2Proof/Machine/PeerOps.lean ====
section
/-! DEFINITION. Shared operations of the pair below the resets: durability, the mode, completing on the local rule, severance, and a
Troys link that goes down (R22, R23, R36, R174, R211, R408, R558, R576). -/

namespace Sys2Proof.Machine

/-! Durability (R211, R213). -/

/-- The stripe a unit address lies in, from the band's data chunks (R392). -/
def stripeOf (u : Nat) (s : State) : Option (Nat × Nat) :=
  (bandOf (uBand u) s).map fun b => (b.no, if b.d = 0 then 0 else uOff u * 16 / (65536 * b.d))

/-- Every chunk of the stripe has been programmed, a degraded stripe's surviving ones (R211). -/
def chunksDone (x : Stripe) : Bool := x.chunks.all fun k => k == .programmed || (x.degraded && k == .failed)

/-- The stripe of a unit address is programmed. -/
def programmed (u : Nat) (s : State) : Bool :=
  match stripeOf u s with
  | none => true
  | some (b, k) => s.par.stripes.all fun x => !(x.band == b && x.no == k) || chunksDone x

/-- Some clause of the unit is not yet acknowledged (R211, R408). -/
def clausePending (nsid unit : Nat) (s : State) : Bool :=
  s.ftu.jrnl.any fun j => decide (s.ftu.cack ≤ j.cseq) && j.clause.nsid == nsid &&
    ((j.clause.typ == cMapSet && decide (j.clause.p0 ≤ unit ∧ unit < j.clause.p0 + 4)) ||
     (j.clause.typ == cMapDup && j.clause.p0 == unit))

/-- A unit's version `seq` meets R211: its slot is gone, what the map names is programmed, its clause acknowledged.
[DEDUCED: log entry 41] -/
def unitDurable (d : Nat × Nat × Nat) (s : State) : Bool :=
  !(s.wb.own.any fun p => p.2.nsid == d.1 && p.2.unit == d.2.1 && p.2.seq == d.2.2 && p.2.st != .releasing && !p.2.replaced) &&
  programmed (mapGet 0 d.1 d.2.1 s) s && !clausePending d.1 d.2.1 s

/-- Take what has become durable off every command, and settle (R211–R213). [DEDUCED: log entry 41] -/
def durCheck (s : State) : State :=
  settleAll { s with hqe.cmds := s.hqe.cmds.map fun c => { c with waitDur := c.waitDur.filter fun d => !unitDurable d s } }

/-! The mode (R33–R37). -/

/-- A MODE_RESTORE that waits completes (R590). -/
def restoreDone (st : Nat) (s : State) : State :=
  match s.pair.restore with
  | none => s
  | some (q, tag) => mgmtPost q tag st 0 { s with pair.restore := none }

/-- CONDITIONS_UNMET (R591). -/
def stUnmet : Nat := 0x0122

/-- Change MODE, and report the change (R568, R590). -/
def setMode (m : Nat) (s : State) : State :=
  let s := if m = 1 then restoreDone stSuccess s else s
  if getF F.mirPairStatMode s = m then s else setInt .mir I.mirModeChange (setF F.mirPairStatMode m s)

/-- The standby stops applying clauses and frees its shadow map; a MODE_RESTORE that waits cannot succeed (R36, R590).
[DEDUCED: log entry 78] -/
def dropShadow (s : State) : State :=
  let s := restoreDone (if troysUp s then stUnmet else stDegraded) s
  setF F.mirPairStatCaughtUp 0 { s with pair.shadow := false, pair.caughtUp := false, pair.peerCaughtUp := false }

/-! Acknowledgement and its absence. -/

/-- Clauses up to this CSEQ are journalled: slots whose clause it reaches are released, and commands that waited go on (R27, R211,
R408). -/
def clausesAcked (n : Nat) (s : State) : State :=
  let go := s.wb.relWait.filter fun p => decide (p.2 < n)
  let s := { s with ftu.cack := max s.ftu.cack n, wb.relWait := s.wb.relWait.filter fun p => !decide (p.2 < n),
                    hqe.cmds := s.hqe.cmds.map fun c => if c.waitCseq ≤ n then { c with waitCseq := 0 } else c }
  durCheck (forEach (go.map (·.1)) releaseSlot s)

/-- Nothing waits for the peer any more: landed slots are Filled, releases are done, clauses are journalled (R23, R251, R252, R408). -/
def onOwn (s : State) : State :=
  let s := setF F.mirPairStatMirrorCurrent 0 { s with hqe.cmds := s.hqe.cmds.map fun c => { c with waitAck := [] } }
  let s := forEach ((s.wb.own.filter fun p => p.2.st == .landing && p.2.landed).map (·.1)) fillSlot s
  let s := forEach ((s.wb.own.filter fun p => p.2.st == .releasing).map (·.1)) freeSlot s
  clausesAcked s.ftu.csnext s

/-- The peer is gone: it takes no part, its packets and a resynchronisation are abandoned, and writes complete on residency (R23,
R578, R585). -/
def peerGone (s : State) : State :=
  let s := if s.pair.resync.isSome || s.pair.role == .joining then note .mir E.mirResyncFail 0xFF s else s
  dropShadow (onOwn { s with pair.joined := false, pair.resync := none, pair.sent := [], pair.chans := [], pair.queued := [],
                             pair.ownWins := [], pair.peerWins := [], pair.lastDig := none })

/-! Severance (R576). -/

/-- The heartbeat shows the peer in state 2, 3 or 6. -/
def peerBeats (s : State) : Bool := onF F.hbuStatRxOk s && [2, 3, 6].contains (getF F.hbuStatPeerState s)

/-- Commands waiting for the peer complete with Asymmetric Access Inaccessible (R576). [DEDUCED: log entry 80] -/
def fwdFail (s : State) : State :=
  let fs := s.pair.fwd
  let s := if fs.isEmpty then s else note .hqe E.hqeFwdFail 0xFF { s with pair.fwd := [] }
  forEach fs (fun f t => endCmd f.h .anaInaccessible t) s

/-- The head becomes Severed when both links are down while the heartbeat shows its peer alive (R576).
[DEDUCED: log entry 78] -/
def sever (s : State) : State :=
  if troysUp s || !peerBeats s || !s.pair.joined || onF F.mirPairStatSevered s then s
  else
    let s := note .mir E.mirSevered 0xFF (setF F.mirPairStatSevered 1 s)
    let s := if s.pair.resync.isSome then note .mir E.mirResyncFail 0xFF { s with pair.resync := none } else s
    fwdFail (setMode 2 (dropShadow (onOwn s)))

/-! A link goes down (R174, R558). -/

/-- The groups of the peer become Inaccessible, or accessible again: their ANA state changes (R174, R225).
[DEDUCED: log entry 80] -/
def peerAna (s : State) : State := forEach ((s.hqe.groups.filter fun g => !g.mine).map (·.id)) anaChanged s

/-- Packets of a link, or those from a refused CSEQ on, go out again: they wait and are transmitted in order (R558). -/
def resend (p : Sent → Bool) (s : State) : State :=
  let again := s.pair.sent.filter fun x => p x && x.link < 2
  let s := { s with pair.sent := modAll (fun x => p x && x.link < 2) (fun x => { x with link := 2 }) s.pair.sent }
  let s := forEach again (fun x t => match linkFor x.cseq t with
    | none => t
    | some l => count (.tl l) 0x05 1 (if x.link = l then t else incSatF (F.tlRetxResent l) 1 t)) s
  forEach (List.range 6) pumpCh s

/-- A Troys link leaves DL_Active: its unacknowledged packets go out on the other link (R558, R592, R593).
[DESIGN CHOICE: log entry 79] -/
def tlDown (n : Nat) (s : State) : State :=
  if !onF (F.tlLinkStatUp n) s then s
  else
    let s := setF (F.tlLinkStatUp n) 0 (setF (F.tlLinkStatSpeed n) 0 (setF (F.tlLinkStatWidth n) 0 (setF (F.tlLinkStatFlit n) 0 s)))
    let s := setInt (.tl n) I.tlLinkDown (note (.tl n) E.tlLinkLost 0xFF (incSatF (F.tlLinkStatDowns n) 1 s))
    let s := resend (fun x => x.link == n) s
    if troysUp s then s else sever (peerAna s)

end Sys2Proof.Machine
end

