-- ==== Sys2Proof/Machine/Resets.lean ====
section
/-! DEFINITION. What a reset does to each block: ports, links, stores and work in progress (R46, R57, R61, R69, R74,
R136, R142, R175, R182, R274, R404), and the hand-over of R17. -/

namespace Sys2Proof.Machine

/-! Lanes (R17, R351, R599, R607, R630). -/

/-- Key of a lane: the block and the LANE field of R607 (in CMP, expand lane l is 0x80 + l). -/
def laneKey (b : Block) (l : Nat) : Nat := base b / 4096 * 512 + l

/-- The enable field of a lane, its bit, and the LANE of bit 0 of that field with the number of its kind. -/
def laneField (b : Block) (l : Nat) : Option (Fld × Nat × Nat × Nat) :=
  match b with
  | .cmp => if l < 24 then some (F.cmpLaneEnCompOn, l, 0, 24)
            else if 0x80 ≤ l ∧ l < 0xA0 then some (F.cmpXlaneEnExpOn, l - 0x80, 0x80, 32) else none
  | .cry => if l < 16 then some (F.cryLaneEnLaneOn, l, 0, 16) else none
  | .dge => if l < 16 then some (F.dgeLaneEnLaneOn, l, 0, 16) else none
  | .fiu => if l < 16 then some (F.fiuBankEnBankOn, l, 0, 16) else none
  | .ldc => if l < 32 then some (F.ldcLaneEnLaneOn, l, 0, 32) else none
  | _ => none

/-- The lane exists; control cores count as lanes of CPC (R696). -/
def isLane (b : Block) (l : Nat) : Bool := (laneField b l).isSome || (b == .cpc && l < 32)

/-- The lanes of the same kind as `l`, by LANE. -/
def kindOf (b : Block) (l : Nat) : List Nat :=
  match laneField b l with
  | some (_, _, z, n) => (List.range n).map (z + ·)
  | none => if b = .cpc then List.range 32 else []

/-- The lane is enabled and not powered off under R599. -/
def laneAlive (b : Block) (l : Nat) (s : State) : Bool :=
  !s.fco.laneOff.contains (laneKey b l) &&
  match laneField b l with
  | some (f, i, _, _) => bit (getF f s) i
  | none => b == .cpc

/-- The head state lets the lane be powered: H1 the lowest-numbered half of the kind, H2 one lane of it; banks and cores stay (R633). -/
def laneAllowed (b : Block) (l : Nat) (s : State) : Bool :=
  getF F.pwcStatHstate s == 0 || b == .fiu || b == .cpc ||
    (((kindOf b l).filter fun k => laneAlive b k s).take (if getF F.pwcStatHstate s = 1 then (kindOf b l).length / 2 else 1)).contains l

/-- The lane is powered: enabled and neither gated nor powered off. -/
def lanePowered (b : Block) (l : Nat) (s : State) : Bool :=
  laneAlive b l s && !s.pwc.gated.contains (laneKey b l) && laneAllowed b l s

/-- A lane is powered and not in reset. -/
def laneReady (b : Block) (l : Nat) (s : State) : Bool := lanePowered b l s && !s.fco.laneRst.contains (laneKey b l)

/-- A lane can take work: one that hardware has gated wakes for it (R631). -/
def laneUsable (b : Block) (l : Nat) (s : State) : Bool :=
  laneAlive b l s && laneAllowed b l s && !s.fco.laneRst.contains (laneKey b l)

/-- Work arrives for one of these lanes: powered ones first, else the lowest gated one wakes (R631). -/
def wakeLane (b : Block) (ls : List Nat) (s : State) : State :=
  if ls.any fun l => laneReady b l s then s
  else match ls.find? fun l => laneUsable b l s with
    | none => s
    | some l => count .pwc 0x02 1 { s with pwc.gated := s.pwc.gated.filter (· != laneKey b l) }

/-! Links (R136–R148). -/

/-- An HPE link leaves DL_Active. -/
def hpeLinkGone (p : Nat) (s : State) : State :=
  if onF (F.hpeLinkStatUp p) s then
    let s := incSatF (F.hpeLinkStatDowns p) 1 s
    let s := setF (F.hpeLinkStatUp p) 0 (setF (F.hpeLinkStatSpeed p) 0 (setF (F.hpeLinkStatWidth p) 0 s))
    let s := setF (F.hpeLinkStatFlit p) 0 (setF (F.hpeLinkStatL0p p) 0 (setF (F.hpeLinkStatL1 p) 0 s))
    setInt (.hpe p) I.hpeLinkDown s
  else s

/-- The functions of a port that hold a controller or a read request. -/
def fnsOf (p : Nat) (s : State) : List Nat :=
  ((s.hqe.ctls.filterMap fun k => match k.id with
    | .hpe q f => if q = p then some f else none
    | .fab _ => none) ++ (s.ports.reads.filterMap fun r => if r.port = p then some r.func else none)).eraseDups

def portOf (p : Nat) (s : State) : Port := tget s.ports.port p { totalVfs := 256, training := false, flr := [] }

/-- A conventional reset of a port: every function, its settings and VF Enable; TotalVFs is sampled (R104, R136,
R137). -/
def portReset (p : Nat) (s : State) : State :=
  let s := forEach (fnsOf p s) (fun f t => resetFn p f t) s
  let s := hpeLinkGone p s
  let s := setF (F.hpeSriovNumVfs p) 0 (setF (F.hpeSriovVfEnabled p) 0 s)
  { s with ports.fns := tcut s.ports.fns (p * 512) (p * 512 + 512),
           ports.port := tset s.ports.port p
             { totalVfs := getF (F.hpeSriovTotalVfs p) s, training := false, flr := [] } }

/-- Every management queue is disabled; operations already fetched run to their end unposted (R82, R142). -/
def mqDisable (s : State) : State :=
  let s := forEach (List.range 16)
    (fun q t => setF (F.mqCfgSqEn q) 0 (setF (F.mqCfgCqEn q) 0 t)) s
  { s with mgmt.cmds := s.mgmt.cmds.map fun c => { c with unposted := true } }

/-- A conventional reset of MGE (R142). -/
def mgeReset (s : State) : State :=
  let s := mqDisable s
  if onF F.mgeLinkStatUp s then
    setInt .mge I.mgeLinkDown (setF F.mgeLinkStatUp 0 (setF F.mgeLinkStatSpeed 0 (setF F.mgeLinkStatWidth 0
      (incSatF F.mgeLinkStatDowns 1 s))))
  else s

/-- The better of two ports' Announce data: quality, then PORT_PREF, then port number (R182). -/
def annBetter (s : State) (a b : Announce) : Bool :=
  decide (a.quality < b.quality) || (a.quality == b.quality &&
    (decide (getF (F.fabPtpPortPref a.port) s < getF (F.fabPtpPortPref b.port) s) ||
      (getF (F.fabPtpPortPref a.port) s == getF (F.fabPtpPortPref b.port) s && decide (a.port < b.port))))

/-- The port that best time transmitter selection takes, over ports with PTP_EN whose link is up (R182). -/
def ptpBest (s : State) : Option Nat :=
  ((s.fab.announce.filter fun a => onF (F.fabPtpPtpEn a.port) s && onF (F.fabLinkStatUp a.port) s).foldl
    (fun (m : Option Announce) a => match m with
      | none => some a
      | some b => if annBetter s a b then some a else some b) none).map (·.port)

/-- Select the time transmitter anew: SELECTED of each port and its events; a port that lost selection sets PTP_LOST
(R182, R185). -/
def ptpSelect (s : State) : State :=
  let best := ptpBest s
  let s := match best with
    | some p => setF F.ephStatPort p s
    | none => setF F.ephStatPort 15 s
  forEach (List.range 4) (fun p t =>
    let was := onF (F.fabPtpStatSelected p) t
    let now := best == some p
    if was == now then t
    else
      let t := setInt (.fab p) I.fabPtpSelect (flagF (F.fabPtpStatSelected p) now t)
      if was then note (.fab p) E.fabPtpLost 0xFF t else t) s

/-- A fabric port's link goes down: associations with a connection on it end, other connections on it close, and the
time selection is made anew (R175, R176, R182). -/
def fabDown (n : Nat) (s : State) : State :=
  let was := onF (F.fabLinkStatUp n) s
  let s := setF (F.fabLinkStatUp n) 0 (setF (F.fabLinkStatSpeed n) 0 (setF (F.fabLinkStatAnDone n) 0 s))
  let s := if was then setInt (.fab n) I.fabLinkDown (incSatF (F.fabLinkStatDowns n) 1 s) else s
  let s := forEach ((s.fab.conns.filter fun c => c.port == n).map (·.id)) loseConn s
  let s := { s with fab.paused := terase s.fab.paused n,
                    fab.announce := s.fab.announce.filter fun a => a.port != n }
  ptpSelect (setF (F.fabPtpStatAnnounceOk n) 0 s)

/-! Stores (R46, R274, R404). -/

/-- A bank's SRAM is invalid and reloads from the DRAM copy; its searches go to tier 2 meanwhile (R274).
[DEDUCED: log entry 101] -/
def bankReset (b : Nat) (s : State) : State :=
  let s := { s with fiu.tier1 := s.fiu.tier1.filter fun p => p.1 % 16 != b }
  setF F.fiuBankStatReady (bclr (getF F.fiuBankStatReady s) b)
    (setF F.fiuBankStatLoading (bset (getF F.fiuBankStatLoading s) b) s)

/-- MCA_LOW: the lowest CSEQ of a dirty line, or the next CSEQ (R402). -/
def mcaLow (s : State) : Nat := s.mca.lines.foldl (fun m l => min m (l.dirty.getD m)) s.ftu.csnext

/-- MCA loses every line; FTU replays the clauses from MCA_LOW (R404). -/
def mcaReset (s : State) : State := { s with mca.lines := [], mca.misses := [], mca.replay := some (mcaLow s) }

/-- The keys of a table are cleared: slots with a stored copy wait for its restore, others are Empty; a purge goes on (R46,
R341, R342). -/
def keysCleared (t : Tbl KeySlot) : Tbl KeySlot :=
  (t.filter fun p => p.2.stored.isSome).map fun p =>
    (p.1, { p.2 with st := if p.2.st = .purging then .purging else .restorePending, key := [] })

/-! Digest contexts (R357–R374). -/

def ctxOf (n : Nat) (s : State) : Option DgeCtx := tget? s.dge.ctx n
def modCtx (n : Nat) (f : DgeCtx → DgeCtx) (s : State) : State := { s with dge.ctx := tmod s.dge.ctx n f }

/-- Clear a context: it is Free; a nonzero reason is kept for the next job that names it (R362, R370, R372, R373). -/
def ctxDrop (n why : Nat) (s : State) : State :=
  { s with dge.ctx := terase s.dge.ctx n, dge.wait := s.dge.wait.filter (· != n),
           dge.cleared := if why = 0 then s.dge.cleared else tset s.dge.cleared n why }

/-- Write a job's completion record (R365). -/
def dgeRec (ring : Nat) (d : DgeDesc) (n status flags bytes : Nat) (s : State) : State :=
  emit (.dgeRecord ring d.tag status flags n (tget s.dge.gens n 0) (min bytes 0xFFFFFFFF)) (count .dge 0x03 1 s)

/-- Clear a context for an alarm: a job it holds completes with ALARM, and a message in progress leaves ALARM to the next job
that names it (R373, R386). [DEDUCED: log entry 51] -/
def ctxAlarm (n : Nat) (s : State) : State :=
  match ctxOf n s with
  | none => s
  | some c => match c.job with
    | some d => dgeRec (c.owner - 1) d n 3 0 0 (ctxDrop n 0 s)
    | none => ctxDrop n 3 s

/-- Units before their chunk's acceptance restart at stage 1 from their slots; one that holds a Pending FPT entry is stored
again without stages 2 and 3 (R262, R351). [DEDUCED: log entry 117] -/
def restartUnits (p : DestUnit → Bool) (s : State) : State :=
  let n := (s.wb.units.filter p).length
  incSatF F.stgFilterReclaimed n
    { s with wb.units := modAll p (fun u =>
        let moved := match u.src with
          | .gc _ _ => true
          | .slot _ => false
        if u.own.isSome || moved then
          { u with stage := .compress, grp := none, mode := 0, body := [], mem := 0 }
        else { u with stage := .fingerprint, zero := false, fp := [], dup := none, grp := none }) s.wb.units }

/-- A bit of SEC_ALARM sets (R387). [DEDUCED: log entry 51] -/
def secAlarm (n : Nat) (s : State) : State :=
  setInt .sec I.secAlarm (setF F.secAlarmSource (bset (getF F.secAlarmSource s) n) s)

/-- An alarm (R373): every context is cleared, and destage units in DGE return to stage 1. [DEDUCED: log entry 51] -/
def dgeAlarm (s : State) : State :=
  let s := forEach (s.dge.ctx.map (·.1)) ctxAlarm s
  secAlarm 3 (note .dge E.dgeAlarmClear 0xFF (restartUnits (fun u => u.stage == .fingerprint) s))

/-- A module link leaves DL_Active (R473, R507). [DEDUCED: log entry 60] -/
def mptGone (m : Nat) (s : State) : State :=
  if !onF (F.mptLinkStatUp m) s then s
  else
    let s := setF (F.mptLinkStatUp m) 0 (setF (F.mptLinkStatSpeed m) 0 (setF (F.mptLinkStatWidth m) 0 (setF (F.mptLinkStatFlit m) 0 s)))
    let s := { s with par.members := tmod s.par.members m fun x => { x with downAt := some s.now } }
    setInt (.mpt m) I.mptLinkDown (note (.mpt m) E.mptLinkLost 0xFF (incSatF (F.mptLinkStatDowns m) 1 s))

/-- What a Class 2 reset, or its plane's reset, does to a block beside the common part. [DEDUCED: log entry 51] -/
def resetEffects (b : Block) (s : State) : State :=
  match b with
  | .hpe p => portReset p s
  | .mge => mgeReset s
  | .fab n => fabDown n s
  | .toe => forEach (s.fab.conns.map (·.id)) loseConn s
  | .dge => dgeAlarm s
  | .fiu => forEach (List.range 16) bankReset s
  | .cmp => restartUnits (fun u => u.stage == .compress || u.stage == .groupWait) { s with cmp.groups := [] }
  | .cry => restartUnits (fun u => u.stage == .encrypt) { s with cry.data := keysCleared s.cry.data }
  | .mca => mcaReset s
  | .par => { s with par.stripes := s.par.stripes.map fun x => if x.parity && !x.isGc && !x.isMeta then x else { x with held := false } }
  | .mpt m => mptGone m s
  | .tl n => tlDown n s
  | .hbu => setF F.hbuStatRxOk 0 s
  | _ => s

/-! Transactions under resets (R69, R74). -/

/-- INT_STAT.TXN_DONE of every member's page set (R75). -/
def txnDone (ms : List Block) (s : State) : State := forEach ms.eraseDups (fun b t => setInt b 2 t) s

/-- Abort transaction `n`: every armed page keeps its captured values as shadow values, the schedule goes, and its
control block completes with ABORTED at this instant (R74, R75, R90). [DEDUCED: log entry 16] -/
def txnAbort (n : Nat) (s : State) : State :=
  let caps := s.regs.caps.filter fun c => c.txn == n
  let s := txnDone (caps.map (·.blk)) (forEach caps uncapture s)
  match s.txn.sched.find? (fun t => t.id == n) with
  | none => s
  | some t => mgmtPost t.q t.tag stAborted s.eph.time
      { s with txn.sched := s.txn.sched.filter (fun u => u.id != n),
               eph.entries := s.eph.entries.filter fun e => !(e.kind == .txn && e.ref == n) }

/-- Transactions with a page of this block armed. -/
def txnsOn (b : Block) (s : State) : List Nat :=
  ((s.regs.caps.filter fun c => c.blk == b && c.txn != 0).map (·.txn)).eraseDups

/-- The common part of a block's reset: its transactions abort, its captured commits are lost, armed injections are
cancelled, and it is in STATE 5 (R57, R69, R74, R621). -/
def enterReset (b : Block) (s : State) : State :=
  let s := forEach (txnsOn b s) txnAbort s
  let s := { s with regs.caps := s.regs.caps.filter (fun c => c.blk != b),
                    regs.armed := s.regs.armed.filter fun a => a.blk != b }
  setF (H.rstBusy b) 1 (setState b 5 s)

/-- A Class 2 reset of a block (R57, R596). [DEDUCED: log entry 16] -/
def blockReset (b : Block) (s : State) : State := resetEffects b (enterReset b s)

/-! Plane resets (R17, R61, R600). -/

/-- The head can hand over: a peer Serving with MIRROR_CURRENT, and not Severed (R600). -/
def canHandOver (s : State) : Bool :=
  peerIn s && getF F.mirPairStatPeerState s = 2

/-- Hand every group this head owns to the peer through ANA; the head is standby from then on (R17). -/
def handOver (s : State) : State :=
  let gs := (s.hqe.groups.filter fun g => g.mine).map (·.id)
  let s := sendTroys (.handover gs (s.hqe.nextSeq - 1)) s
  let s := forEach gs (fun g t => setGroup g false false t) s
  { s with pair.role := .standby }

/-- The reaction of Class 3: the plane's blocks are reset and keep their committed register values; the Host, Media and
Pair Planes hand over first, or hold commands when they cannot; before a Pair Plane reset the head's ports stop and the
peer takes its groups by Eclipse (R17, R61, R584, R600). -/
def planeReset (p : Plane) (s : State) : State :=
  let s := match p with
    | .host | .media => if canHandOver s then handOver s else { s with hqe.planeHold := true }
    | .pair =>
      if canHandOver s then
        let s := forEach (s.hqe.groups.filter fun g => g.mine) (fun g t => setGroup g.id false false t) s
        forEach (List.range 4) portReset { s with pair.role := .standby }
      else { s with hqe.planeHold := true }
    | .reduction => { s with hqe.planeHold := true, cry.dedup := keysCleared s.cry.dedup }
    | _ => s
  forEach (blocksOf p) (fun b t =>
    forEach (List.range (pages b)) (fun pg u => restorePage b pg u) (blockReset b t)) s

end Sys2Proof.Machine
end

