-- ==== Sys2Proof/Machine/Flags.lean ====
section
/-! DEFINITION. Errors: classification, incidents, merging and escalation, the reactions of Classes 2 to 4 and the Grave
state (R594–R618). The counterpart of taking an exception in a block. -/

namespace Sys2Proof.Machine

/-- An error as FCO takes it: its source block (none for a head-level source), latch bit, instance, lane (0xFF none),
record code and P1, and the cause of a Grave incident that it fixes by itself (R607, R618). -/
structure ErrSrc where
  blk   : Option Block
  source : Nat
  inst  : Nat
  lane  : Nat
  code  : Nat
  p1    : Nat
  own   : Option Nat
  inj   : Bool
  deriving DecidableEq, Repr

/-- The scope of an error's own reaction by its class (R596, R603). -/
def scopeOf (x : ErrSrc) (c : Nat) : Scope :=
  if 4 ≤ c then .head
  else match x.blk with
    | none => .head
    | some b =>
      if c = 3 then .plane (planeOf b)
      else if isLane b x.lane then .lane b x.lane else .engine b

/-- The error comes from inside an open incident's scope: the lane or an error of its engine that belongs to no lane,
the engine with its lanes, the plane, the core that runs the handler, or a block doing work the reaction ordered
(R603). -/
def inScope (i : Incident) (x : ErrSrc) : Bool :=
  (x.blk == some .cpc && x.lane == i.handler) ||
  match i.scope with
  | .lane b l => (x.blk == some b && (x.lane == l || !isLane b x.lane)) || (b == .ldc && x.blk == some .par)
  | .engine b => x.blk == some b || (b == .mca && x.blk == some .ftu)
  | .plane p => x.blk.any fun b => planeOf b == p
  | .head => true

/-- Rank of a scope: a wider one covers a narrower one (R604). [DEDUCED: log entry 125] -/
def scopeRank : Scope → Nat
  | .lane _ _ => 0
  | .engine _ => 1
  | .plane _ => 2
  | .head => 3

/-- The record of an error (R606, R607), without a LANE for an STG buffer's; P2 is Holkai's, a free value.
[DESIGN CHOICE: log entry 10] -/
def errRec (x : ErrSrc) (cls inc : Nat) (sub raised : Bool) (s : State) : State :=
  let d := drawNat s
  evrEvent { mkRec x.code cls x.source x.inst (if x.source = 40 then 0xFF else x.lane) inc x.p1 d.1 with inj := x.inj, sub := sub, raised := raised } d.2

/-- The Grave state (R614): FAULT_N low, heartbeat and outputs stopped, commands and management queues stopped, injection
disabled, the dump attempted (R615), and the GRAVE record. -/
def enterGrave (cause source inc : Nat) (s : State) : State :=
  if graved s then s
  else
    let t := stamp s
    let s := { s with fco.grave := some { cause := cause, source := source, incident := inc, time := t },
                      pins := { s.pins with faultN := false, idle := true },
                      pwc.dumping := true, pwc.dumpAt := t, bld.dumpOpen := true }
    let s := setF F.fcoStatGrave 1 (setF F.fcoGraveCause cause (setF F.fcoGraveSource source
      (setF F.fcoGraveIncident inc (set64 F.fcoGraveTLoTime F.fcoGraveTHiTime t s))))
    let s := setF F.fcoInjCtlInjEn 0 s
    let s := mqDisable { s with fco.armAt := none }
    evrEvent (mkRec 0x0002 4 source 0 0xFF inc (cause % 256 + 256 * source) inc) s

/-- Start the reaction of an incident's scope (R596). [DEDUCED: log entry 125] -/
def react (sc : Scope) (s : State) : State :=
  match sc with
  | .lane b l => { s with fco.laneRst := if s.fco.laneRst.contains (laneKey b l) then s.fco.laneRst
                                          else s.fco.laneRst ++ [laneKey b l] }
  | .engine b => blockReset b s
  | .plane p => planeReset p s
  | .head => s

/-- A lane's own Class 2 effect beside the reset: a bank reloads, a lane's units restart (R262, R274, R351). -/
def laneEffects (b : Block) (l : Nat) (s : State) : State :=
  match b with
  | .fiu => bankReset l s
  | .cmp => if l < 0x80 then restartUnits (fun u => u.stage == .compress) s else s
  | .cry => restartUnits (fun u => u.stage == .encrypt) s
  | .dge => forEach ((s.dge.ctx.filter fun c => c.2.lane == some l).map (·.1)) ctxAlarm
      (restartUnits (fun u => u.stage == .fingerprint) s)
  | _ => s

/-- Times of the Class 2 incidents of an instance or lane within the last second, this one included (R599). -/
def recent (key : Nat) (s : State) : List Nat :=
  ((tget s.fco.hist key []).filter fun t => s.now - t ≤ 1000000000) ++ [s.now]

/-- The key under which Class 2 incidents are counted: the lane, or the instance (R599). -/
def histKey (x : ErrSrc) : Nat :=
  match x.blk with
  | some b => if isLane b x.lane then laneKey b x.lane else laneKey b 0xFF
  | none => x.source * 512 + x.lane

/-- Power a lane off until cold reset: READY reads 0, LANE_OFF sets where the engine has it, a record (R599, R608). -/
def laneOff (b : Block) (l code : Nat) (x : ErrSrc) (s : State) : State :=
  let s := { s with fco.laneOff := if s.fco.laneOff.contains (laneKey b l) then s.fco.laneOff
                                    else s.fco.laneOff ++ [laneKey b l] }
  let s := match b with
    | .cmp => setInt .cmp I.cmpLaneOff s
    | .dge => setInt .dge I.dgeLaneOff s
    | _ => s
  evrEvent (mkRec 0x0006 0 x.source x.inst l 0 code 0) s

/-- Give an incident its class, announcing Class 3 (R604, R622). -/
def announce3 (c : Nat) (s : State) : State := if c = 3 then setInt .fco I.fcoClass3 s else s

/-- DIVERGED: for this cause the Pair Plane is not reset (R572). [DEDUCED: log entry 125] -/
def noReset (x : ErrSrc) : Bool := x.blk == some .ocu && x.code == 0x1000 + 32 * 36 + E.ocuDiverged

/-- Open an incident (R601, R602): its number and slot, its record, and the reaction; a third Class 2 incident within a
second escalates (R599), a 17th incident is Grave (R602). [DESIGN CHOICE: log entry 10; DEDUCED: log entry 125] -/
def openIncident (x : ErrSrc) (c : Nat) (s : State) : State :=
  let key := histKey x
  let times := recent key s
  let lane := x.blk.any fun b => isLane b x.lane
  let third := c = 2 && 3 ≤ times.length
  let s := if c = 2 then { s with fco.hist := tset s.fco.hist key times } else s
  let repeat_ := third && !lane && x.blk.any fun b => planeOf b == .memory || planeOf b == .control
  let cls := if repeat_ then 4 else if third && !lane then 3 else c
  let full17 := cls < 4 && 16 ≤ s.fco.incs.length
  let final := if full17 then 4 else cls
  let n := getF F.fcoStatNextInc s
  let d := drawNat s
  let s := d.2
  let slot := (leastFree (s.fco.incs.map (·.slot)) 17 0).getD 16
  let i : Incident := { slot := slot, number := n, cls := final, source := x.source, blk := x.blk, lane := x.lane,
                        inst := x.inst, scope := scopeOf x final, subs := 0, openedAt := s.now, handler := d.1 % 32 }
  let s := { s with fco.incs := s.fco.incs ++ [i] }
  let s := setF F.fcoStatNextInc (if n = 65535 then 1 else n + 1) s
  let s := count .fco 0x05 1 (setInt .fco I.fcoIncOpen s)
  let s := announce3 final (errRec x final n false false s)
  if final = 4 then
    let cause := if full17 then 5 else if repeat_ then 3 else if x.inj then 9 else x.own.getD 1
    enterGrave cause x.source n s
  else
    let s := if noReset x then s else react i.scope s
    match i.scope with
    | .lane b l =>
      let s := laneEffects b l s
      if third then
        let s := laneOff b l x.code x s
        if (kindOf b l).any fun k => laneAlive b k s then s else enterGrave 4 x.source n s
      else s
    | _ => s

/-- Merge an error into an open incident (R603, R604): a higher class takes over the reaction, an equal class with a
wider scope widens it, anything else is only recorded. [DEDUCED: log entry 125] -/
def mergeIncident (i : Incident) (x : ErrSrc) (c : Nat) (s : State) : State :=
  let sc := scopeOf x c
  let sc := if c = 3 then match i.blk with
      | some b => Scope.plane (planeOf b)
      | none => sc
    else sc
  let higher := i.cls < c
  let wider := i.cls = c && scopeRank i.scope < scopeRank sc
  let j : Incident := { i with subs := i.subs + 1, cls := if higher then c else i.cls,
                               scope := if higher || wider then sc else i.scope }
  let s := { s with fco.incs := modFirst (fun k => k.number == i.number) (fun _ => j) s.fco.incs }
  let s := count .fco 0x06 1 s
  let s := errRec x c i.number true (higher || wider) s
  if higher && c = 4 then
    enterGrave (if x.inj then 9 else x.own.getD 2) x.source i.number s
  else if higher || wider then announce3 (if higher then c else 0) (if noReset x then s else react sc s)
  else s

/-- FCO handles one pulse of class `c` (R594, R596, R601, R605). -/
def report (x : ErrSrc) (c : Nat) (s : State) : State :=
  let s := pulse x.source c s
  if c < 2 then errRec x c 0 false false s
  else if graved s then errRec x c 0 false false s
  else match s.fco.incs.find? fun i => inScope i x with
    | some i => mergeIncident i x c s
    | none => openIncident x c s

/-- The causes that an error keeps for itself (R618). -/
def ownCause (b : Block) (n : Nat) : Option Nat :=
  match b with
  | .ocu => if n = E.ocuSelfCheck then some 7 else none
  | .mir => if n = E.mirFenceLost then some 8 else none
  | _ => none

/-- What an error destroys beside its class's reaction: an uncorrectable key state table of DGE is cleared (R386). -/
def errEffects (b : Block) (n : Nat) (s : State) : State :=
  if b = .dge && n = E.dgeKeystateEcc then { s with cry.dedup := keysCleared s.cry.dedup } else s

/-- A block error occurs: ERR_STAT sets, and the pulse reaches FCO unless it is masked and below Class 2; Class 4 is
unaffected by the mask (R57, R58, R594). A reserved bit has no error. -/
def raiseInj (inj : Bool) (b : Block) (n lane : Nat) (s : State) : State :=
  match errClass? b n with
  | none => s
  | some _ =>
    let c := errCls b n s
    let s := errEffects b n (setErr b n s)
    if bit (getF (H.errMask b) s) n && c < 2 then s
    else report { blk := some b, source := latchBit b, inst := inst b, lane := lane,
                  code := 0x1000 + 32 * latchBit b + n, p1 := getF (H.errStat b) s, own := ownCause b n, inj := inj } c s

def raise (b : Block) (n lane : Nat) (s : State) : State := raiseInj false b n lane s

/-- A head-level source reports: it has no page and no mask (R594, R598, R607). -/
def raiseHead (source inst lane p1 c : Nat) (blk : Option Block) (s : State) : State :=
  report { blk := blk, source := source, inst := inst, lane := lane, code := 0x1000 + 32 * source, p1 := p1,
           own := none, inj := false } c s

/-- Raise an error when `c` holds. -/
def raiseIf (c : Bool) (b : Block) (n lane : Nat) (s : State) : State := if c then raise b n lane s else s

end Sys2Proof.Machine
end

