-- ==== Sys2Proof/Machine/PairOps.lean ====
section
/-! DEFINITION. Shared operations of the pair: the resident map footprint and the mode (R33–R39, R568). -/

namespace Sys2Proof.Machine

/-- The head's resident map footprint: 4,096 bytes for each resident map page, a shared one once, and 32 for each directory entry of the
namespaces it owns and of their epochs (R397). [DESIGN CHOICE: log entry 119] -/
def footBytes (s : State) : Nat :=
  4096 * ((s.ftu.pages.filter fun p => p.resident && (nsOf p.nsid s).any fun x => ownsNs x s).map (·.pid)).eraseDups.length +
  32 * ((s.hqe.ns.filter fun x => ownsNs x s).map fun x =>
    (unitsOf x + 511) / 512 * (1 + (s.eph.epochs.filter fun e => e.nsid == x.nsid).length)).sum

/-- The own footprint rounded up to a whole GiB (R568). [DESIGN CHOICE: log entry 119] -/
def footGib (s : State) : Nat := (footBytes s + 2 ^ 30 - 1) / 2 ^ 30

/-- Members of the pair in service or leaving it (R33, R454). -/
def moduleCount (s : State) : Nat :=
  (s.par.members.filter fun m => m.2.st == .present || m.2.st == .retiring).length

/-- DRAM of the head in GiB (R640). -/
def dramGib (s : State) : Nat := 12 * (s.bld.hir.elim 0 fun h => h.dimmGib)

/-- The conditions of R33 other than arbitration, with a footprint limit in GiB. -/
def modeConds (lim : Nat) (s : State) : Bool :=
  decide (footGib s ≤ lim) && decide (getF F.mirFootPeerGib s ≤ lim) && decide (moduleCount s ≤ 16) &&
  decide (Config.otherDram + footGib s + getF F.mirFootPeerGib s ≤ dramGib s)

/-- Evaluate the mode (R33–R37): at pair formation the limit is 768 GiB; a pair that fell out returns below 736 GiB, once
both standbys have caught up. -/
def modeEval (forming : Bool) (s : State) : State :=
  if !s.pair.joined then dropShadow (setMode 0 s)
  else
    let building := forming || s.pair.shadow
    if modeConds (if building then 768 else 736) s && !s.pair.arbDrop then
      let s := { s with pair.shadow := true }
      setMode (if s.pair.caughtUp && s.pair.peerCaughtUp then 1 else 2) s
    else setMode 2 (dropShadow (if getF F.mirPairStatMode s = 2 then s else sendTroys (.modeChange 2) s))

end Sys2Proof.Machine
end

