-- ==== Sys2Proof/Machine/PortOps.lean ====
section
/-! DEFINITION. Shared operations of the host ports and host data transfers: functions and tags, read requests, and the
landing of received data (R110–R131, R137). -/

namespace Sys2Proof.Machine

/-- A write of a field that has a command of its own: discarded with a Notice while the block is power-gated or in reset
(R60). [DEDUCED: log entry 13] -/
def regWrite (b : Block) (f : State → State) (s : State) : State :=
  if getF (H.pwrState b) s = 2 || getF (H.state b) s = 5 then fcoNotice s else f s

/-! Functions (R112, R115, R122, R125, R130). -/

/-- Settings of a function; after a reset Max_Read_Request_Size is 512, payload 128, tags 8-bit (PCIe; log entry 20).
[PRESUMED: log entry 20] -/
def fnCfg (p f : Nat) (s : State) : FnCfg :=
  tget s.ports.fns (p * 512 + f) { maxRead := 512, maxPayload := 128, tagBits := 8, ctoDisable := false, memEnable := false }

/-- Put a port's record. -/
def putPort (p : Nat) (x : Port) (s : State) : State := { s with ports.port := tset s.ports.port p x }

/-- The function is present: the physical one, or a virtual one up to NumVFs with VF Enable set (R104, R122). -/
def fnPresent (p f : Nat) (s : State) : Bool :=
  f == 0 || (onF (F.hpeSriovVfEnabled p) s && f ≤ getF (F.hpeSriovNumVfs p) s)

/-- Virtual function `f` is blocked (R111). -/
def vfBlocked (p f : Nat) (s : State) : Bool := f != 0 && onF (F.hpeVfQpBlock p (f - 1)) s

/-- Tags a function may use (R115). -/
def tagSpace (c : FnCfg) : Nat := if c.tagBits = 8 then 256 else if c.tagBits = 10 then 768 else 2048

/-- A function serves memory requests: present, Memory Space Enable set, not blocked, not in an FLR (R111, R122,
R138). -/
def fnServes (p f : Nat) (s : State) : Bool :=
  fnPresent p f s && !vfBlocked p f s && (fnCfg p f s).memEnable && !(portOf p s).flr.contains f

/-- The controller's function takes host accesses; a fabric controller always does. -/
def ctlServes (c : Ctl) (s : State) : Bool :=
  match c with
  | .hpe p f => fnServes p f s
  | .fab _ => true

/-- An Unsupported Request: answered or discarded, logged through AER, UR_SENT set (R122). -/
def urEffect (b : Block) (posted : Bool) (s : State) : State :=
  let s := if posted then s else emit (.pcieUr b) s
  note b E.hpeUrSent 0xFF (emit (.aer b E.hpeUrSent) s)

/-- Split one buffer into read requests: at most `m` bytes, none across a 4 KiB boundary, ascending (R112). Entries are
address, length and place. -/
def splitBuf (m : Nat) : Nat → Nat → Nat → Nat → List (Nat × Nat × Nat)
  | 0, _, _, _ => []
  | fuel + 1, addr, len, off =>
    if len = 0 then []
    else
      let n := max 1 (min len (min m (4096 - addr % 4096)))
      (addr, n, off) :: splitBuf m fuel (addr + n) (len - n) (off + n)

/-- Split the buffers of a transfer. -/
def splitBufs (m : Nat) : List (Nat × Nat) → Nat → List (Nat × Nat × Nat)
  | [], _ => []
  | (a, l) :: r, off => splitBuf m l a l off ++ splitBufs m r (off + l)

/-- A free tag of a function, when the port and the function may issue one more request (R115).
[DEDUCED: log entry 21] -/
def freeTag (p f : Nat) (s : State) : Option Nat :=
  let port := s.ports.reads.filter fun r => r.port == p
  if 2048 ≤ (port.filter fun r => r.st != .quarantined).length then none
  else leastFree ((port.filter fun r => r.func == f).map (·.tag)) (tagSpace (fnCfg p f s)) 0

/-- Issue one read request. [DEDUCED: log entry 21] -/
def issueRead (p f tag addr len off : Nat) (k : ReadKind) (s : State) : State :=
  count (.hpe p) 0x02 1 (count (.hpe p) 0x03 1 (emit (.hostRead p f tag)
    { s with ports.reads := s.ports.reads ++
        [{ port := p, func := f, tag := tag, addr := addr, len := len, got := 0, off := off, kind := k, st := .live }] }))

/-- Issue a command's remaining read requests while tags are free. -/
def issueReads (h : Nat) (s : State) : State :=
  match cmdOf h s with
  | none => s
  | some c => match c.ctl with
    | some (.hpe p f) =>
      forEach c.todo (fun x t =>
        match freeTag p f t with
        | none => t
        | some tag =>
          issueRead p f tag x.1 x.2.1 x.2.2 (.data h) (modCmd h (fun d => { d with todo := d.todo.erase x }) t)) s
    | _ => s

/-- Issue what waits for a tag. -/
def issueAll (s : State) : State := forEach (s.hqe.cmds.map (·.h)) issueReads s

/-- Bytes of a logical block of a namespace (R222). -/
def lbSize (n : Nat) (s : State) : Nat :=
  match nsOf n s with
  | some x => if x.lbaf = 0 then 512 else 4096
  | none => 4096

/-- Bytes of a command's data received without a gap: the lowest place not yet filled (R114). -/
def received (c : Cmd) (s : State) : Nat :=
  let reads := (s.ports.reads.filter fun r => r.kind == .data c.h && r.st == .live).map fun r => r.off + r.got
  let gaps := reads ++ c.todo.map fun x => x.2.2
  gaps.foldl min (if gaps.isEmpty then c.sqe.len - c.need else c.sqe.len)

/-- Land the slots of a command whose data is there, in ascending order (R114); then its SYNC_WRITE goes (R548). -/
def landPrefix (h : Nat) (s : State) : State :=
  match cmdOf h s with
  | none => s
  | some c =>
    let got := received c s
    let start := c.sqe.slba * lbSize c.sqe.nsid s
    let s := forEach c.waitLand (fun n t =>
      match tget? t.wb.own n with
      | none => t
      | some x =>
        if min c.sqe.len ((x.unit + 1) * 4096 - start) ≤ got then
          modCmd h (fun d => { d with waitLand := d.waitLand.filter (· != n) }) (landSlot n t)
        else t) s
    if (cmdOf h s).any fun c => c.waitLand.isEmpty then syncSend h s else s

/-- Send a forwarded command to the peer, with the host data it fetched; it stays in the forwarding store until its completion is
reported (R28, R564). -/
def forwardSend (h : Nat) (s : State) : State :=
  let tag := s.pair.nextFwd
  sendTroys (.forward tag) (count .mir 0x02 1 (count .hqe 0x08 1
    { s with pair.fwd := s.pair.fwd ++ [{ tag := tag, h := h }], pair.nextFwd := tag + 1 }))

/-- Start the transfer of a command's data from the host: read requests on an HPE, data PDUs or RDMA reads on a fabric
connection; a forwarded command brings its data with it (R28, R112, R156). -/
def fetchData (c : Cmd) (s : State) : State :=
  match c.ctl with
  | none => landPrefix c.h s
  | some (.hpe p f) =>
    issueReads c.h (modCmd c.h (fun d => { d with need := c.sqe.len, todo := splitBufs (fnCfg p f s).maxRead c.sqe.bufs 0 }) s)
  | some (.fab _) => modCmd c.h (fun d => { d with need := c.sqe.len }) s

/-- `n` more bytes of a command's data have arrived. -/
def dataArrived (h n : Nat) (s : State) : State :=
  let s := modCmd h (fun c => { c with need := c.need - n }) s
  if (cmdOf h s).any fun c => c.phase == .forwarded && c.need == 0 && c.todo.isEmpty then forwardSend h s
  else settle h (landPrefix h s)

/-! Read requests by tag (R114, R126–R131). -/

/-- The entry of a tag. -/
def readOf (p f tag : Nat) (s : State) : Option ReadReq :=
  s.ports.reads.find? fun r => r.port == p && r.func == f && r.tag == tag

/-- Change or drop the entry of a tag. -/
def modRead (p f tag : Nat) (g : ReadReq → ReadReq) (s : State) : State :=
  { s with ports.reads := modFirst (fun r => r.port == p && r.func == f && r.tag == tag) g s.ports.reads }
def dropRead (p f tag : Nat) (s : State) : State :=
  { s with ports.reads := s.ports.reads.filter fun r => !(r.port == p && r.func == f && r.tag == tag) }

/-- A LATE_CPL record: tag, function, port and address (R607, R608). -/
def lateCpl (source : Nat) (r : ReadReq) (s : State) : State :=
  evrEvent (mkRec 0x0210 0 source r.port 0xFF 0 (r.tag + 65536 * r.func + 67108864 * r.port) (r.addr % 4294967296)) s

/-- A submission fetch failed: fetching from the queue stops, CSTS.CFS sets, SQ_FETCH_FAIL (R127).
[DEDUCED: log entry 22] -/
def fetchFailed (p f qid : Nat) (s : State) : State :=
  let c := Ctl.hpe p f
  let s := modSq c qid (fun q => { q with stopped := true }) s
  note (.hpe p) E.hpeSqFetchFail 0xFF
    (if s.hqe.ctls.any (fun k => k.id == c) then putCtl { ctlOf c s with cfs := true } s else s)

/-- A read request failed: the command it served ends with Data Transfer Error, or its fetch failed (R116, R126,
R127). [DEDUCED: log entry 22] -/
def readFailed (r : ReadReq) (s : State) : State :=
  match r.kind with
  | .data h => failCmd h .dataTransferError s
  | .sqFetch qid => fetchFailed r.port r.func qid s

end Sys2Proof.Machine
end

