-- ==== Sys2Proof/Machine/AdminOps.lean ====
section
/-! DEFINITION. Shared operations of HQE: tenant budgets, taking a command in, and NVMe power states (R188–R220). -/

namespace Sys2Proof.Machine

/-! Tenant budgets (R195–R201). -/

/-- Ceilings of a group: commands per second in units of 1,000, bytes per second in units of 10 MB, and BURST (R196). -/
def ceilIops (g : Nat) (s : State) : Nat := bankF F.hqeQosCeilCeilIops g 0 s
def ceilBw (g : Nat) (s : State) : Nat := bankF F.hqeQosCeilCeilBw g 0 s
def burstOf (g : Nat) (s : State) : Nat := bankF F.hqeQosCfgBurst g 10 s

/-- The most a bucket holds, in millionths of a token: ceiling times BURST times 10 µs (R196). -/
def capCmds (g : Nat) (s : State) : Int := ceilIops g s * 10000 * burstOf g s
def capBytes (g : Nat) (s : State) : Int := ceilBw g s * 100000000 * burstOf g s

/-- A group's buckets; full where none is kept yet. [DEDUCED: log entry 26] -/
def bucketOf (g : Nat) (s : State) : Bucket :=
  tget s.hqe.buckets g { cmds := capCmds g s, bytes := capBytes g s, throttled := false, throttles := 0 }

/-- Either kept bucket holds 0 or less (R198). [DEDUCED: log entry 26] -/
def dry (g : Nat) (b : Bucket) (s : State) : Bool :=
  (ceilIops g s != 0 && b.cmds ≤ 0) || (ceilBw g s != 0 && b.bytes ≤ 0)

/-- Put a group's buckets; entering throttling counts and sets THROTTLE (R198, R247). -/
def putBkt (g : Nat) (b : Bucket) (s : State) : State :=
  let now := dry g b s
  let enter := now && !b.throttled
  let b := { b with throttled := now, throttles := if enter then min 65535 (b.throttles + 1) else b.throttles }
  let s := { s with hqe.buckets := tset s.hqe.buckets g b }
  if enter then setInt .hqe I.hqeThrottle s else s

/-- Charge a command of `bytes` host data bytes to its group (R197). -/
def charge (g bytes : Nat) (s : State) : State :=
  let b := bucketOf g s
  putBkt g { b with cmds := if ceilIops g s = 0 then b.cmds else b.cmds - 1000000,
                    bytes := if ceilBw g s = 0 then b.bytes else b.bytes - 1000000 * bytes } s

/-- A group is throttled (R198). -/
def throttled (g : Nat) (s : State) : Bool := dry g (bucketOf g s) s

/-- Add one microsecond's tokens to one group (R196). [DEDUCED: log entry 26] -/
def refill (g : Nat) (s : State) : State :=
  let b := bucketOf g s
  putBkt g { b with cmds := if ceilIops g s = 0 then 0 else min (capCmds g s) (b.cmds + 1000 * ceilIops g s),
                    bytes := if ceilBw g s = 0 then 0 else min (capBytes g s) (b.bytes + 10000000 * ceilBw g s) } s

/-! NVMe power states (R218–R220). -/

/-- The power level that the controllers ask for: that of the lowest-numbered state any of them holds (R219). -/
def psWanted (s : State) : Nat :=
  let l := (s.hqe.ctls.filter fun k => k.en && !k.disc).map (·.ps)
  if l.isEmpty then 0 else l.foldl min 2

/-- Start a transition to the wanted level when none is under way (R219, R220). -/
def psEval (s : State) : State :=
  let w := psWanted s
  let l := getF F.hqePsStatLevel s
  if s.hqe.psTo.isSome || w = l then s
  else flagF F.hqePsStatEntering (l < w) (flagF F.hqePsStatExiting (w < l) { s with hqe.psTo := some w })

/-- A command arrives: an entry into a lower state is abandoned and the head exits to the level it had; the command's
controller leaves PS2 for an I/O command (R219, R220). [DEDUCED: log entry 27] -/
def psWake (c : Ctl) (io : Bool) (s : State) : State :=
  let k := ctlOf c s
  let s := if io && k.en && k.ps = 2 then putCtl { k with ps := k.lastOp } s else s
  let s := if onF F.hqePsStatEntering s then
      count .hqe 0x0A 1 (flagF F.hqePsStatEntering false (flagF F.hqePsStatExiting true
        { s with hqe.psTo := some (getF F.hqePsStatLevel s) }))
    else s
  psEval s

/-! Taking a command in (R188–R191, R197, R204, R205, R255). -/

/-- HQE takes commands: running, not held by FETCH_HOLD, a plane, a transaction, a stop or a dump, and below the
outstanding limit (R56, R73, R191, R246, R600, R635, R639). [DEDUCED: log entry 27] -/
def hqeOpen (s : State) : Bool :=
  running .hqe s && !onF F.hqeCtrlFetchHold s && !s.hqe.planeHold && s.txn.holding.isNone && !s.pwc.stopping &&
  !s.pwc.dumping && decide (s.hqe.cmds.length < 1048576)

/-- Opcodes offered, by queue kind (R204, R205). [DEDUCED: log entry 29] -/
def opOffered (c : Ctl) (qid opc : Nat) : Bool :=
  if qid = 0 then
    [0x02, 0x06, 0x08, 0x09, 0x0A, 0x0C, 0x80, 0x84].contains opc ||
    (match c with
     | .hpe _ _ => [0x00, 0x01, 0x04, 0x05].contains opc
     | .fab _ => [0x18, 0x7F].contains opc)
  else [0x00, 0x01, 0x02, 0x05, 0x08, 0x09, 0x0C, 0x0D, 0x0E, 0x11, 0x15].contains opc

/-- Byte charge of a command (R197). -/
def byteCharge (qid : Nat) (e : Sqe) : Nat :=
  if qid = 0 || e.opc = 0x00 || e.opc = 0x08 || e.opc = 0x09 then 0 else e.len

/-- The full buffer holds this entry back (R255). -/
def heldByWb (qid : Nat) (e : Sqe) (s : State) : Bool := qid != 0 && s.hqe.wbHold && [0x01, 0x05, 0x08].contains e.opc

/-- The forwarding store is full for this entry (R28, R564). -/
def heldByFwd (qid : Nat) (e : Sqe) (s : State) : Bool :=
  qid != 0 && 262144 ≤ s.pair.fwd.length && (nsOf e.nsid s).any fun x => !ownsNs x s

/-- Count a command by its kind (R247). -/
def countCmd (qid : Nat) (e : Sqe) (s : State) : State :=
  let s := count .hqe 0x01 1 s
  if qid = 0 then (if e.opc = 0x08 then count .hqe 0x07 1 s else s)
  else if e.opc = 0x02 then count .hqe 0x03 1 s
  else if e.opc = 0x01 then (if e.fua then count .hqe 0x05 1 else id) (count .hqe 0x04 1 s)
  else if e.opc = 0x00 then count .hqe 0x06 1 s
  else s

/-- The outstanding count passes its marks (R191, R247). -/
def outstMarks (s : State) : State :=
  let n := s.hqe.cmds.length
  let s := if n = 943719 then setInt .hqe I.hqeOutstHigh s else s
  if n = 1048576 then note .hqe E.hqeOutstFull 0xFF s else s

/-- Take a submission entry in: charged, numbered, recorded; an opcode not offered or a fused command completes at once
(R22, R188, R197, R204, R205). -/
def deliver (c : Ctl) (qid : Nat) (e : Sqe) (s : State) : State :=
  let s := charge (tenantOf c s) (byteCharge qid e) s
  let s := psWake c (qid != 0) s
  let h := s.hqe.nextH
  let s := outstMarks (admitCmd (some c) qid 0 e (countCmd qid e s))
  let s := if qid = 0 then s
    else
      let t := takeSeq s
      modCmd h (fun d => { d with seq := t.1 }) t.2
  if !opOffered c qid e.opc then endCmd h .invalidOpcode s
  else if e.fused then endCmd h .invalidField s
  else s

/-! Admin commands. -/

/-- The admin command of a handle is there with this opcode, not begun, and the head is not leaving a power state
(R220). -/
def adminReady (h opc : Nat) (s : State) : Option Cmd :=
  if onF F.hqePsStatExiting s then none
  else (cmdOf h s).bind fun c => if c.phase == .fetched && c.qid == 0 && c.sqe.opc == opc then some c else none

/-- Run an admin command of a controller of this head. [DEDUCED: log entry 29] -/
def adminRun (h opc : Nat) (f : Ctl → Cmd → State → State) (s : State) : State :=
  match adminReady h opc s with
  | none => s
  | some c => match c.ctl with
    | none => s
    | some k => f k c s

/-- Complete with the first failing check's status, or do `f`. -/
def cmdChecks (h : Nat) : List (Bool × NvmeSt) → (State → State) → State → State
  | [], f, s => f s
  | (bad, st) :: r, f, s => if bad then endCmd h st s else cmdChecks h r f s

/-- Hold a command until its own event completes it. -/
def holdCmd (h : Nat) (s : State) : State := modCmd h (fun c => { c with phase := .running, waitPart := c.waitPart + 1 }) s

/-- Queue pairs of fabric I/O controllers in use (R161). -/
def fabQps (s : State) : Nat :=
  (s.hqe.sqs.filter fun q => match q.ctl with
    | .hpe _ _ => false
    | .fab _ => !(ctlOf q.ctl s).disc).length

/-- I/O queue pairs created, PCIe and fabric (R188, R246). -/
def qpUsed (s : State) : Nat := (s.hqe.sqs.filter fun q => q.qid != 0).length

/-- A new record of a controller just enabled (R107, R141, R206, R214). -/
def newCtl (c : Ctl) (qpMax tenant kato : Nat) (disc en : Bool) : Controller :=
  { id := c, en := en, rdy := false, cfs := false, shst := .normal, qpMax := qpMax, feats := [], wce := true, ps := 0,
    lastOp := 0, aers := [], events := [], changed := [], tenant := tenant, kato := kato, disc := disc }

/-- Create a submission queue, and a completion queue. -/
def addSq (c : Ctl) (qid size cqid prio : Nat) (s : State) : State :=
  { s with hqe.sqs := s.hqe.sqs ++ [{ ctl := c, qid := qid, size := size, head := 0, tail := 0, cqid := cqid,
                                       prio := prio, deleting := none, stopped := false }] }
def addCq (c : Ctl) (qid size vector : Nat) (ien : Bool) (s : State) : State :=
  { s with hqe.cqs := s.hqe.cqs ++ [{ ctl := c, qid := qid, size := size, head := 0, tail := 0, phase := true,
                                       vector := vector, irqEn := ien, held := 0 }] }

/-- CC.EN goes from 1 to 0 (R137, R214, R216): an HPE function's controller ends whole; a fabric controller keeps its
connections and queues. [DEDUCED: log entry 30] -/
def ctlDisable (c : Ctl) (keep : Nat) (s : State) : State :=
  match c with
  | .hpe p f => psEval (resetFn p f s)
  | .fab _ =>
    let k := ctlOf c s
    let s := forEach (s.hqe.cmds.filter fun m => m.ctl == some c && m.h != keep) killCmd s
    psEval (putCtl { newCtl c k.qpMax k.tenant k.kato k.disc false with changed := [] } s)

/-- CC.SHN requests a shutdown (R194). [DEDUCED: log entry 32] -/
def shutdownStart (c : Ctl) (s : State) : State :=
  let k := ctlOf c s
  if k.en && k.shst == .normal then putCtl { k with shst := .processing } s else s

end Sys2Proof.Machine
end

