-- ==== Sys2Proof/Machine/KeyOps.lean ====
section
/-! DEFINITION. Key slots and handles, and forwarding a command to the peer (R28, R237, R339–R350). -/

namespace Sys2Proof.Machine

/-! Keys (R339–R341). -/

/-- The key slots of a kind. -/
def keyTbl (kind : Nat) (s : State) : Tbl KeySlot :=
  if kind = 0 then s.cry.data else if kind = 1 then s.cry.dedup else s.cry.wrap
def setKeyTbl (kind : Nat) (t : Tbl KeySlot) (s : State) : State :=
  if kind = 0 then { s with cry.data := t } else if kind = 1 then { s with cry.dedup := t } else { s with cry.wrap := t }

/-- The slot's record; none for an Empty slot. -/
def keySlot (kind slot : Nat) (s : State) : Option KeySlot := tget? (keyTbl kind s) slot

/-- GEN of a slot: 0 before its first load (R340). -/
def keyGen (kind slot : Nat) (s : State) : Nat := tget s.cry.gens (65536 * kind + slot) 0

/-- A handle's fields and the handle of a slot (R340). -/
def hSlot (h : Nat) : Nat := h % 16384
def hKind (h : Nat) : Nat := h / 16384 % 4
def hGen (h : Nat) : Nat := h / 65536
def handleOf (kind slot gen : Nat) : Nat := slot + 16384 * kind + 65536 * gen

/-- The key of a loaded data key handle (R338, R341). -/
def dataKey (h : Nat) (s : State) : Option (List Byte) :=
  if hKind h = 0 && h != 0 && keyGen 0 (hSlot h) s == hGen h then
    match keySlot 0 (hSlot h) s with
    | some k => if k.st = .loaded then some k.key else none
    | none => none
  else none

/-- A data key handle names a slot that holds a key or its stored copy, and is not being purged (R349). -/
def keyNamed (h : Nat) (s : State) : Bool :=
  hKind h = 0 && h != 0 && keyGen 0 (hSlot h) s == hGen h && (keySlot 0 (hSlot h) s).any fun k => k.st != .purging

/-- HQE_NS_STAT.KEY_READY (R237). [DEDUCED: log entry 48] -/
def keyReady (x : Namespace) (s : State) : Bool := x.key != 0 && (dataKey x.key s).isSome

/-- The dedup key of a domain (R263, R264). -/
def domKey (d : Nat) (s : State) : Option (List Byte) :=
  match keySlot 1 d s with
  | some k => if k.st = .loaded then some k.key else none
  | none => none

/-- A purge begins: the slot enters Purging (R349). -/
def startPurge (kind slot : Nat) (mgmt : Option (Nat × Nat)) (fmt : Option Nat) (s : State) : State :=
  let s := setKeyTbl kind (tmod (keyTbl kind s) slot fun k => { k with st := .purging }) s
  { s with cry.purges := s.cry.purges ++ [{ kind := kind, slot := slot, mgmt := mgmt, fmt := fmt }] }

/-! Forwarding (R28, R174, R564). -/

/-- The head can forward: FWD_EN, a peer that has joined, a Troys link up (R174, R564, R566). [DEDUCED: log entry 80] -/
def canForward (s : State) : Bool := troysUp s && s.pair.joined && onF F.mirCtrlFwdEn s

/-- Forward a command to the peer, a Write or Compare once its host data is here; while the head cannot forward, the group is
Inaccessible (R174). [DESIGN CHOICE: log entry 34] -/
def forwardCmd (h : Nat) (s : State) : State :=
  if !canForward s then endCmd h .anaInaccessible s
  else
    let s := modCmd h (fun c => { c with phase := .forwarded }) s
    match cmdOf h s with
    | none => s
    | some c => if (c.sqe.opc == 1 || c.sqe.opc == 5) && c.sqe.len != 0 then fetchData c s else forwardSend h s

end Sys2Proof.Machine
end

