-- ==== Sys2Proof/Machine/DgeOps.lean ====
section
/-! DEFINITION. The digest engine's rings, contexts and lanes, and the measurement registers (R355–R379). -/

namespace Sys2Proof.Machine

/-! Measurement registers (R377–R379). -/

/-- The requester of a source code may extend the register now: 0 boot ROM, 1 resident loader, 2 microcode, 3 SEC (R378). -/
def mrOpen (source mr : Nat) (s : State) : Bool :=
  match mr with
  | 0 | 1 => source == 0 && !onF F.secStatBootDone s
  | 2 | 3 | 4 => source == 1 && !onF F.secStatBootDone s
  | 5 | 6 => source == 2
  | 7 => source == 2 || source == 3
  | _ => false

/-- Extend a register and append to the measurement log (R377, R379). [DESIGN CHOICE: log entry 50] -/
def mrExtend (source mr event : Nat) (digest : List Byte) (s : State) : State :=
  let v := Config.sha384 (s.sec.mr.getD mr zero48 ++ digest)
  let e : MrLog := { mr := mr, event := event, source := source, time := if timeUnset s then 0 else s.eph.time, digest := digest }
  let full := 512 ≤ s.sec.log.length
  let s := count .sec 0x01 1
    { s with sec.mr := s.sec.mr.set mr v, sec.mrCnt := s.sec.mrCnt.set mr (min 65535 (s.sec.mrCnt.getD mr 0 + 1)),
             sec.log := if full then s.sec.log else s.sec.log ++ [e] }
  if full && !onF F.secStatLogOverflow s then note .sec E.secLogFull 0xFF (setF F.secStatLogOverflow 1 s) else s

/-- An extend arrives at SEC: carried out, or refused with MR_DENIED (R378). -/
def mrTry (source mr event : Nat) (digest : List Byte) (s : State) : State :=
  if mrOpen source mr s then mrExtend source mr event digest s else note .sec E.secMrDenied 0xFF s

/-- The source of an extend by a job (R356, R378, R381): ring 1 is the boot ROM until it starts the loader.
[DESIGN CHOICE: log entry 50] -/
def mrSource (ring mr : Nat) : Nat := if ring = 1 then (if mr ≤ 1 then 0 else 1) else if ring = 2 then 3 else 2

/-- The log's event code of a job's extend (R379); microcode's events in MR7 are two, and the descriptor names neither: a
free choice. [DESIGN CHOICE: log entry 50] -/
def mrEvent (ring mr : Nat) (s : State) : Nat × State :=
  if mr = 7 && ring != 2 then
    let d := drawNat s
    (0x0031 + d.1 % 2, d.2)
  else ([0x0001, 0x0002, 0x0003, 0x0004, 0x0005, 0x0010, 0x0020, 0x0030].getD mr 0, s)

/-! Rings (R356–R364). -/

/-- Take a job's first step in its context: it waits for a lane (R358). -/
def ctxTake (n : Nat) (d : DgeDesc) (s : State) : State :=
  modCtx n (fun c => { c with st := .waiting, job := some d, since := s.now, susp := false }) { s with dge.wait := s.dge.wait ++ [n] }

/-- Open a context for a message: its GEN increases (R357, R359). -/
def ctxOpen (ring n : Nat) (d : DgeDesc) (s : State) : State :=
  let c : DgeCtx := { st := .waiting, owner := ring + 1, core := if ring = 0 then d.core else 0, alg := d.alg, msg := [], keyCopy := none,
                      keySlot := d.keySlot, keySrc := d.keySrc, lane := none, job := none, since := s.now, susp := false }
  ctxTake n d { s with dge.ctx := tset s.dge.ctx n c, dge.gens := tset s.dge.gens n ((tget s.dge.gens n 0 + 1) % 256),
                       dge.cleared := terase s.dge.cleared n }

/-- The lowest-numbered Free job context (R357, R359). -/
def ctxFree (s : State) : Option Nat := leastFree (s.dge.ctx.map (·.1)) 32 32

/-- The rules of R364 that a job breaks: those of ALG and KEY hold at FIRST, `alg` being its message's. -/
def jobInvalid (d : DgeDesc) (alg : Nat) : Bool :=
  d.rsv || decide (16777216 < d.declLen) || (d.declLen == 0 && !d.last) || ((d.compare || d.extend) && !d.last) ||
  (d.extend && (alg != 1 || decide (7 < d.mr))) ||
  (d.first && (decide (3 < d.alg) || decide (2 < d.keySrc) || (decide (2 ≤ d.alg) && d.keySrc == 0) || (decide (d.alg < 2) && d.keySrc != 0) ||
    (d.keySrc == 1 && d.alg != 2)))

/-- A job that continues no message it may continue: refused, or completed with why its context was cleared (R362, R364, R370,
R373). -/
def jobRefuse (ring : Nat) (d : DgeDesc) (s : State) : State :=
  let why := tget s.dge.cleared d.ctx 0
  if why != 0 && tget s.dge.gens d.ctx 0 == d.ctxGen then
    let s := if why = 5 then note .dge E.dgeKeyAbsent 0xFF s else s
    dgeRec ring d d.ctx why 0 0 { s with dge.cleared := terase s.dge.cleared d.ctx }
  else dgeRec ring d d.ctx 4 0 0 (note .dge E.dgeCtxInvalid 0xFF s)

/-- The context that a job without FIRST continues: of the same requester and GEN (R364). -/
def jobCtx (ring : Nat) (d : DgeDesc) (s : State) : Option DgeCtx :=
  (ctxOf d.ctx s).filter fun c => c.owner == ring + 1 && (ring != 0 || c.core == d.core) && tget s.dge.gens d.ctx 0 == d.ctxGen

/-- DGE looks at a job of a ring: it takes a context, completes, or waits in its ring (R359, R364). -/
def jobTry (ring : Nat) (d : DgeDesc) (s : State) : State :=
  if d.first then
    if jobInvalid d d.alg then dgeRec ring d d.ctx 7 0 0 s
    else match ctxFree s with
      | some n => ctxOpen ring n d s
      | none => { s with dge.first := s.dge.first ++ [(ring, d)] }
  else match jobCtx ring d s with
    | none => jobRefuse ring d s
    | some c =>
      if jobInvalid d c.alg then dgeRec ring d d.ctx 7 0 0 s
      else if c.st = .open_ then ctxTake d.ctx d s
      else { s with dge.first := s.dge.first ++ [(ring, d)] }

/-! Lanes (R360, R370). -/

/-- The key that a context's message uses; none when its state is empty (R365, R368, R369). -/
def ctxKey (c : DgeCtx) (s : State) : Option (List Byte) :=
  if c.keySrc = 0 then some [] else if c.keySrc = 1 then domKey c.keySlot s else tget? s.dge.jobKeys c.keySlot

/-- Lanes that a job context may take now: the powered ones first, each in ascending order (R631).
[DEDUCED: log entry 49] -/
def jobLanes (s : State) : List Nat :=
  let used := s.dge.ctx.filterMap fun c => c.2.lane
  let free := (List.range 16).filter fun l => laneUsable .dge l s && !used.contains l
  let free := free.filter (fun l => laneReady .dge l s) ++ free.filter fun l => !laneReady .dge l s
  if s.wb.units.any fun u => u.stage == .fingerprint then free.take (getF F.dgeCfgJobLanes s - used.length) else free

/-- A lane takes a Waiting context; at its first block the message copies its key state, and without one the job fails.
[DEDUCED: log entry 49] -/
def laneTake (n l : Nat) (s : State) : State :=
  let s := wakeLane .dge [l] { s with dge.wait := s.dge.wait.filter (· != n) }
  match ctxOf n s with
  | none => s
  | some c =>
    let run := fun (k : List Byte) => modCtx n (fun c => { c with st := .active, lane := some l, keyCopy := some k, since := s.now, susp := false }) s
    match c.keyCopy with
    | some k => run k
    | none => match ctxKey c s, c.job with
      | some k, _ => run k
      | none, some d => dgeRec (c.owner - 1) d n 5 0 0 (note .dge E.dgeKeyAbsent 0xFF (ctxDrop n 0 s))
      | none, none => s

/-- Give lanes to Waiting contexts, and contexts to waiting jobs, as far as both go (R359, R360).
[DEDUCED: log entry 49] -/
def dgePump : Nat → State → State
  | 0, s => s
  | f + 1, s =>
    match s.dge.wait, jobLanes s with
    | n :: _, l :: _ => dgePump f (laneTake n l s)
    | _, _ =>
      let go := fun (p : Nat × DgeDesc) =>
        if p.2.first then (ctxFree s).isSome else (jobCtx p.1 p.2 s).all fun c => c.st == .open_
      match s.dge.first.find? go with
      | none => s
      | some p => dgePump f (jobTry p.1 p.2 { s with dge.first := modDrop go s.dge.first })

/-- Bring the digest engine as far as it goes. -/
def dgeRun (s : State) : State :=
  if running .dge s then dgePump (2 * (s.dge.first.length + s.dge.wait.length) + 2) s else s

end Sys2Proof.Machine
end

