-- ==== Sys2Proof/Machine/Codec.lean ====
section
/-! DEFINITION. The bitstreams of compressed payloads: bit packing, the Lexical decoder, the Predicate encoder and
decoder (R314–R328). -/

namespace Sys2Proof.Machine

/-- The outcome of an expansion (R328). -/
inductive ExpRes where
  | ok (out : List Byte)
  | streamErr
  | overrun
  | short
  deriving DecidableEq, Repr

/-! Bit packing (R314). -/

/-- The bits of a byte string, bit 0 of byte 0 first. -/
def toBits (bs : List Byte) : List Bool := bs.flatMap fun b => (List.range 8).map fun i => b.toNat.testBit i

/-- Bytes from bits, the last one filled with zeros. -/
def ofBits : Nat → List Bool → List Byte
  | 0, _ => []
  | n + 1, l => BitVec.ofNat 8 ((List.range 8).foldl (fun a i => if l.getD i false then bset a i else a) 0) ::
      ofBits n (l.drop 8)
def packBits (l : List Bool) : List Byte := ofBits ((l.length + 7) / 8) l

/-- A fixed-width field, least significant bit first. -/
def putBits : Nat → Nat → List Bool
  | 0, _ => []
  | n + 1, v => (v % 2 == 1) :: putBits n (v / 2)

/-- Read a fixed-width field. -/
def takeBits : Nat → List Bool → Option (Nat × List Bool)
  | 0, l => some (0, l)
  | _ + 1, [] => none
  | n + 1, b :: l => (takeBits n l).map fun r => (b2n b + 2 * r.1, r.2)

/-! The Predicate stream (R322–R326). -/

/-- Input byte `j` places back: 0 before the start; `out` is what came before, newest first. -/
def backByte (out : List Nat) (j : Nat) : Nat := out.getD (j - 1) 0

/-- The prediction of a subtractive predictor (R323). -/
def predict (pred : Nat) (out : List Nat) : Nat :=
  match pred with
  | 0 => backByte out 1
  | 1 => backByte out 2
  | 2 => backByte out 4
  | 3 => backByte out 8
  | 4 => (2 * backByte out 1 + 256 - backByte out 2) % 256
  | _ => 0

/-- The coded value of a byte, and the byte of a coded value (R324). -/
def residue (pred x : Nat) (out : List Nat) : Nat :=
  if pred = 5 then x ^^^ backByte out 8
  else
    let r := (x + 256 - predict pred out) % 256
    if r < 128 then 2 * r else 2 * (256 - r) - 1
def unresidue (pred u : Nat) (out : List Nat) : Nat :=
  if pred = 5 then (u % 256) ^^^ backByte out 8
  else
    let r : Int := if u % 2 = 0 then (u / 2 : Nat) else 256 - ((u + 1) / 2 : Nat)
    (((predict pred out : Nat) + r) % 256).toNat

/-- The Golomb-Rice code of a residue (R325). -/
def riceCode (k u : Nat) : List Bool :=
  let q := u >>> k
  if q < 16 then List.replicate q true ++ false :: putBits k u else List.replicate 16 true ++ putBits 8 u

/-- The parameter and counter after a residue (R326). -/
def riceNext (k c u : Nat) : Nat × Nat :=
  if 2 ≤ u >>> k then (min (k + 1) 7, 0)
  else if 0 < k ∧ u < 1 <<< (k - 1) then (if c + 1 = 2 then (k - 1, 0) else (k, c + 1))
  else (k, 0)

/-- Count leading ones, at most `n`, eating the zero that ends a shorter run. -/
def takeOnes : Nat → List Bool → Option (Nat × List Bool)
  | 0, l => some (0, l)
  | _ + 1, [] => none
  | _ + 1, false :: l => some (0, l)
  | n + 1, true :: l => (takeOnes n l).map fun r => (r.1 + 1, r.2)

/-- Read a residue (R325). -/
def takeRice (k : Nat) (l : List Bool) : Option (Nat × List Bool) :=
  (takeOnes 16 l).bind fun q =>
    if q.1 = 16 then takeBits 8 q.2
    else (takeBits k q.2).map fun r => (q.1 * 2 ^ k + r.1, r.2)

/-- Decode the residues of a stripe; `out` newest first. -/
def predRun (pred : Nat) : Nat → Nat → Nat → List Nat → List Bool → Option (List Nat × List Bool)
  | 0, _, _, out, l => some (out, l)
  | n + 1, k, c, out, l =>
    (takeRice k l).bind fun r =>
      let kc := riceNext k c r.1
      predRun pred n kc.1 kc.2 (unresidue pred r.1 out :: out) r.2

/-- Decode one stripe of `n` bytes (R322). -/
def predStripe (n : Nat) (out : List Nat) (l : List Bool) : Option (List Nat × List Bool) :=
  (takeBits 3 l).bind fun p =>
    if p.1 = 7 then some (List.replicate n 0 ++ out, p.2)
    else (takeBits 3 p.2).bind fun k => predRun p.1 n k.1 0 out k.2

/-- Decode stripes until `size` bytes are there. -/
def predLoop : Nat → Nat → List Nat → List Bool → Option (List Nat)
  | 0, _, out, _ => some out
  | fuel + 1, left, out, l =>
    if left = 0 then some out
    else (predStripe (min 64 left) out l).bind fun r => predLoop fuel (left - min 64 left) r.1 r.2

/-- Expand a Predicate payload to the declared size (R326–R328). -/
def predDecode (size : Nat) (payload : List Byte) : ExpRes :=
  match predLoop ((size + 63) / 64) size [] (toBits payload) with
  | some out => .ok (out.reverse.map (BitVec.ofNat 8))
  | none => .streamErr

/-- Code the bytes of a stripe under a predictor and parameter. -/
def predCode (pred : Nat) : List Nat → Nat → Nat → List Nat → List Bool
  | [], _, _, _ => []
  | x :: r, k, c, out =>
    let u := residue pred x out
    let kc := riceNext k c u
    riceCode k u ++ predCode pred r kc.1 kc.2 (x :: out)

/-- The coding of a stripe with the fewest bits: ties to the lower predictor code, then the lower parameter (R308). -/
def predBest (xs out : List Nat) : List Bool :=
  let cands := ((List.range 7).flatMap fun p => (List.range 8).map fun k =>
      putBits 3 p ++ putBits 3 k ++ predCode p xs k 0 out) ++
    (if xs.all (· = 0) then [putBits 3 7] else [])
  cands.foldl (fun (m : List Bool) c => if m.isEmpty || c.length < m.length then c else m) []

/-- Encode stripes. -/
def predEncLoop : Nat → List Nat → List Nat → List Bool
  | 0, _, _ => []
  | n + 1, xs, out => if xs.isEmpty then [] else
      predBest (xs.take 64) out ++ predEncLoop n (xs.drop 64) ((xs.take 64).reverse ++ out)

/-- The Predicate payload of a byte string (R308, R322). -/
def predEncode (bs : List Byte) : List Byte :=
  packBits (predEncLoop ((bs.length + 63) / 64) (bs.map (·.toNat)) [])

/-! The Lexical stream (R315–R321). -/

/-- Code lengths of R318: `n` still to come, previous length `p`, those read newest first. -/
def lexLens : Nat → Nat → Nat → List Nat → List Bool → Option (List Nat × List Bool)
  | 0, n, _, acc, l => if n = 0 then some (acc.reverse, l) else none
  | fuel + 1, n, p, acc, l =>
    if n = 0 then some (acc.reverse, l)
    else match l with
      | false :: l => lexLens fuel (n - 1) p (p :: acc) l
      | true :: false :: b :: l =>
        let q := if b then p - 1 else p + 1
        if 15 < q || (b && p = 0) then none else lexLens fuel (n - 1) q (q :: acc) l
      | true :: true :: false :: l => (takeBits 4 l).bind fun r => lexLens fuel (n - 1) r.1 (r.1 :: acc) r.2
      | true :: true :: true :: false :: l => (takeBits 5 l).bind fun r =>
        if n < r.1 + 3 then none else lexLens fuel (n - (r.1 + 3)) p (List.replicate (r.1 + 3) p ++ acc) r.2
      | true :: true :: true :: true :: l => (takeBits 8 l).bind fun r =>
        if n < r.1 + 1 then none else lexLens fuel (n - (r.1 + 1)) 0 (List.replicate (r.1 + 1) 0 ++ acc) r.2
      | _ => none

/-- Number of symbols of a length. -/
def lenCount (lens : List Nat) (n : Nat) : Nat := if n = 0 then 0 else (lens.filter (· = n)).length

/-- First codeword of each length (R319). -/
def firstCode (lens : List Nat) : Nat → Nat
  | 0 => 0
  | n + 1 => (firstCode lens n + lenCount lens n) * 2

/-- The symbols of one length, in order. -/
def symsOf (lens : List Nat) (n : Nat) : List Nat := (List.range lens.length).filter fun i => lens.getD i 0 = n

/-- A canonical code: for each length, its first codeword and its symbols in order (R319). -/
def lexCode (lens : List Nat) : List (Nat × List Nat) :=
  (List.range 15).map fun i => (firstCode lens (i + 1), symsOf lens (i + 1))

/-- A set of lengths that R320 allows; all zero only for the distance code. -/
def lensOk (dist : Bool) (lens : List Nat) : Bool :=
  let sum := (lens.map fun n => if n = 0 then 0 else 2 ^ (15 - n)).sum
  sum == 2 ^ 15 || lens.filter (· != 0) == [1] || (dist && sum == 0)

/-- Read one codeword, its first bit the most significant (R314). -/
def lexSym : List (Nat × List Nat) → Nat → List Bool → Option (Nat × List Bool)
  | [], _, _ => none
  | _, _, [] => none
  | (first, syms) :: r, code, b :: l =>
    let c := code * 2 + b2n b
    if first ≤ c ∧ c < first + syms.length then some (syms.getD (c - first) 0, l) else lexSym r c l

/-- A bucket code's value with its extra bits (R316). -/
def bucketVal (c : Nat) (l : List Bool) : Option (Nat × List Bool) :=
  if c < 8 then some (c, l)
  else
    let e := c / 4 - 1
    (takeBits e l).map fun r => ((4 + c % 4) * 2 ^ e + r.1, r.2)

/-- Copy a match, byte by byte (R315); `out` newest first. -/
def copyBack (d : Nat) : Nat → List Nat → List Nat
  | 0, out => out
  | n + 1, out => copyBack d n (out.getD (d - 1) 0 :: out)

/-- The items of a stream (R321), with `size` bytes declared; `n` counts those produced. -/
def lexItems (lc dc : List (Nat × List Nat)) (size : Nat) : Nat → Nat → List Nat → List Bool → ExpRes
  | 0, _, _, _ => .streamErr
  | fuel + 1, n, out, l =>
    match lexSym lc 0 l with
    | none => .streamErr
    | some (s, l) =>
      if s < 256 then if n < size then lexItems lc dc size fuel (n + 1) (s :: out) l else .overrun
      else if s = 256 then
        if n = size then .ok (out.reverse.map (BitVec.ofNat 8)) else .short
      else match (bucketVal (s - 257) l).bind fun v => (lexSym dc 0 v.2).bind fun d => (bucketVal d.1 d.2).map fun w => (v.1 + 4, w.1 + 1, w.2) with
        | none => .streamErr
        | some (len, d, l) =>
          if n < d then .streamErr
          else if size < n + len then .overrun
          else lexItems lc dc size fuel (n + len) (copyBack d len out) l

/-- Expand a Lexical payload to the declared size (R317–R321, R327, R328). -/
def lexDecode (size : Nat) (payload : List Byte) : ExpRes :=
  match (takeBits 6 (toBits payload)).bind fun a => (takeBits 6 a.2).map fun b => (a.1 + 257, b.1 + 1, b.2) with
  | none => .streamErr
  | some (nl, nd, l) =>
    if 293 < nl || 52 < nd then .streamErr
    else match lexLens (nl + nd) (nl + nd) 8 [] l with
      | none => .streamErr
      | some (lens, l) =>
        let ll := lens.take nl
        let dl := lens.drop nl
        if !lensOk false ll || !lensOk true dl || ll.getD 256 0 = 0 then .streamErr
        else lexItems (lexCode ll) (lexCode dl) size (size + 1) 0 [] l

/-- Expand a payload by its MODE (R301, R305). -/
def expand (mode size : Nat) (payload : List Byte) : ExpRes :=
  if mode = 1 then lexDecode size payload
  else if mode = 2 then predDecode size payload
  else .ok payload

end Sys2Proof.Machine
end

