-- ==== Sys2Proof/Machine/Namespace.lean ====
section
/-! DEFINITION. Namespaces, ANA groups, format and sanitize (R221–R245). -/

namespace Sys2Proof.Machine

/-! Statuses of R232. -/

def stNsidInUse : Nat := 0x0100
def stNsNotFound : Nat := 0x0101
def stGroupNotFound : Nat := 0x0102
def stGroupNotEmpty : Nat := 0x0103
def stKeyNotLoaded : Nat := 0x0104
def stNsHasSnapshots : Nat := 0x0105
def stShrinkRefused : Nat := 0x0106
def stSanitizeActive : Nat := 0x0107
def stFormatActive : Nat := 0x0108
def stSharedUnits : Nat := 0x0109
def stGroupExists : Nat := 0x010A

/-! Progress records (R242–R245). -/

/-- A sanitize is in progress on the pair (R241). -/
def sanActive (s : State) : Bool := s.hqe.progress.any fun p => p.kind == 1 && p.state == 1

/-- Write the progress record of an operation with a new STATE (R242, R243). -/
def putProgress (kind action state nsid : Nat) (ause : Bool) (s : State) : State :=
  let same := fun (p : Progress) => p.kind == kind && p.nsid == nsid
  let gen := ((s.hqe.progress.find? same).map (·.gen)).getD 0
  { s with hqe.progress := s.hqe.progress.filter (fun p => !same p) ++
      [{ kind := kind, action := action, state := state, nsid := nsid, cursor := 0,
         progress := if state = 2 then 65535 else 0, ause := ause, gen := gen + 1 }] }

/-- Units of a namespace are shared with another: its domain holds other namespaces, it has snapshots or clones, or its
data key is another's too (R238, R350). -/
def sharedNs (x : Namespace) (s : State) : Bool :=
  (s.hqe.ns.any fun y => y.nsid != x.nsid && (y.domain == x.domain || (x.key != 0 && y.key == x.key))) ||
  s.eph.epochs.any fun e => e.nsid == x.nsid

/-! Format (R234–R238). -/

/-- The format is accepted: new commands for the namespace are turned away from here (R235). -/
def formatAccept (n lbaf ses : Nat) (cmd : Option Nat) (mgmt : Option (Nat × Nat)) (s : State) : State :=
  modNs n (fun x => { x with format := some { ses := ses, lbaf := lbaf, since := s.hqe.nextSeq, begun := false,
                                              cseq := 0, bands := [], cmd := cmd, mgmt := mgmt } }) s

/-- FORMAT (R228, R231, R232, R234, R235, R238). -/
def execFormat (q tag nsid lbaf ses : Nat) (s : State) : Res :=
  live s (mgmtRun q tag 0x0021 (fun s =>
    match nsOf nsid s with
    | none => mgmtPost q tag stNsNotFound 0 s
    | some x =>
      checks q tag
        [(x.deleting.isSome, stNsNotFound), (!ownsNs x s, stNotOwner), (decide (1 < lbaf) || decide (2 < ses), stInvalidField),
         (sanActive s, stSanitizeActive), (x.format.isSome, stFormatActive), (ses == 2 && sharedNs x s, stSharedUnits)]
        (formatAccept nsid lbaf ses none (some (q, tag))) s) s)

/-- FORMAT_NVM (R204, R234, R235, R238): a host command with the effect of FORMAT, on the head that owns the namespace.
[DESIGN CHOICE: log entry 34] -/
def execFormatNvm (h nsid lbaf ses : Nat) (s : State) : Res :=
  live s (adminRun h 0x80 (fun c _ s =>
    if sanActive s then endCmd h .sanitizeInProgress s
    else match nsOf nsid s with
      | none => endCmd h (if nsid = 0xFFFFFFFF then .invalidField else .invalidNamespace) s
      | some x =>
        cmdChecks h
          [(x.deleting.isSome || x.tenant != tenantOf c s, .invalidNamespace), (decide (1 < lbaf), .invalidFormat),
           (decide (2 < ses), .invalidField)]
          (fun s =>
            if !ownsNs x s then forwardCmd h s
            else cmdChecks h [(x.format.isSome, .formatInProgress), (ses == 2 && sharedNs x s, .invalidField)]
              (fun s => holdCmd h (formatAccept nsid lbaf ses (some h) none s)) s) s) s)

/-- NSZE after a change of the LBA format (R234). -/
def rescale (lbaf new nsze : Nat) : Nat := if lbaf = new then nsze else if new = 1 then (nsze + 7) / 8 else nsze * 8

/-- FORMAT_BEGIN (R235, R236, R431): once every command taken in before has completed, every mapping is invalidated; SES
1 sends the bands it emptied to collection, SES 2 purges the data key. [DEDUCED: log entry 36] -/
def execFormatBegin (nsid : Nat) (s : State) : Res :=
  live s (
    match nsOf nsid s with
    | none => s
    | some x => match x.format with
      | none => s
      | some f =>
        if f.begun || nsBusy nsid f.since s then s
        else
          let bands := (((mapOf 0 nsid s).map fun e => uBand e.2).eraseDups).filter (· != 0)
          let t := takeSeq s
          let s := unmapUnits nsid 0 (unitsOf x) t.1 t.2
          let f := { f with begun := true, cseq := s.ftu.csnext, bands := if f.ses = 1 then bands else [] }
          let s := modNs nsid (fun x => { x with format := some f, lbaf := f.lbaf,
                                                 nsze := rescale x.lbaf f.lbaf x.nsze }) s
          let s := if f.ses = 1 then
              forEach bands (fun b t =>
                modBand b (fun y => { y with reloc := true })
                  { t with ftu.relocQ := if t.ftu.relocQ.contains b then t.ftu.relocQ else t.ftu.relocQ ++ [b] }) s
            else s
          let s := if f.ses = 0 then s else putProgress 2 f.ses 1 nsid false s
          if f.ses = 2 && keyNamed x.key s then startPurge 0 (hSlot x.key) none (some nsid) s else s)

/-- FORMAT_COMPLETE (R236, R237, R247). -/
def execFormatComplete (nsid : Nat) (s : State) : Res :=
  live s (
    match nsOf nsid s with
    | none => s
    | some x => match x.format with
      | none => s
      | some f =>
        let left := s.ftu.bands.any fun b => f.bands.contains b.no
        let purging := s.cry.purges.any fun p => p.fmt == some nsid
        if !f.begun || s.ftu.cack < f.cseq || left || purging then s
        else
          let s := modNs nsid (fun x =>
            let x := { x with format := none }
            if f.ses = 2 then { x with key := x.nextKey, nextKey := 0 } else x) s
          let s := if f.ses = 0 then s else putProgress 2 f.ses 2 nsid false s
          let s := setInt .hqe I.hqeFmtDone s
          let s := match f.mgmt with
            | some (q, tag) => mgmtPost q tag stSuccess 0 s
            | none => s
          match f.cmd with
          | some h => endCmd h .success s
          | none => s)

/-! Sanitize (R239–R245). -/

/-- A sanitize starts (R241, R242). -/
def sanStart (action : Nat) (ause : Bool) (mgmt : Option (Nat × Nat)) (s : State) : State :=
  putProgress 1 action 1 0xFFFFFFFF ause { s with hqe.sanMgmt := mgmt, hqe.sanFail := none }

/-- A sanitize accepted here starts on both heads (R241). -/
def sanBegin (action : Nat) (ause : Bool) (mgmt : Option (Nat × Nat)) (s : State) : State :=
  sendTroys (.progress action 1) (sanStart action ause mgmt s)

/-- The failure state is left (R240, R245). [DEDUCED: log entry 35] -/
def sanExit (s : State) : State :=
  { s with hqe.sanFail := none, hqe.progress := s.hqe.progress.filter fun p => p.kind != 1 }

/-- SANITIZE (R231, R232, R240). -/
def execSanitize (q tag sanact : Nat) (ause : Bool) (s : State) : Res :=
  live s (mgmtRun q tag 0x0020 (fun s =>
    checks q tag
      [(!(sanact == 1 || sanact == 2 || sanact == 4), stInvalidField), (sanActive s, stSanitizeActive),
       (sanact == 1 && s.hqe.sanFail == some false, stInvalidField)]
      (fun s => if sanact = 1 then mgmtPost q tag stSuccess 0 (sanExit s) else sanBegin sanact ause (some (q, tag)) s) s) s)

/-- HOST_SANITIZE (R239, R240, R245): accepted only under HOST_SAN; it completes when the operation has started. -/
def execHostSanitize (h sanact : Nat) (ause : Bool) (s : State) : Res :=
  live s (adminRun h 0x84 (fun _ _ s =>
    cmdChecks h
      [(!onF F.hqeCtrlHostSan s, .invalidOpcode), (!(sanact == 1 || sanact == 2 || sanact == 4), .invalidField),
       (sanActive s, .sanitizeInProgress), (sanact == 1 && s.hqe.sanFail == some false, .sanitizeFailed)]
      (fun s => endCmd h .success (if sanact = 1 then sanExit s else sanBegin sanact ause none s)) s) s)

/-- What both sanitize actions erase of the map: every mapping, snapshots and clones (R240). -/
def sanMaps (s : State) : State :=
  { s with ftu.maps := [], ftu.pages := [], ftu.back := [], ftu.fwd := [], mca.lines := [], mca.misses := [],
           fiu.sut := [], eph.epochs := [], eph.cuts := [], eph.guards := [],
           hqe.ns := s.hqe.ns.filter fun x => x.cloneOf = 0 }

/-- Block erase: every erase block of the user and map areas, the fingerprint tables, the write buffer and the vault
images; replication states go too (R240). -/
def sanErase (s : State) : State :=
  let s := sanMaps s
  { s with ftu.bands := [], ftu.relocQ := [], ftu.gcs := [], par.stripes := [], par.lost := [],
           ftu.eblk := s.ftu.eblk.map fun p => (p.1, { p.2 with erases := p.2.erases + 1, st := if p.2.st = 2 then 2 else 0 }),
           fiu.tier1 := [], fiu.dcopy := [], fiu.ins := [], fiu.rem := [], fiu.fpt := [], fiu.log := [], fiu.hits := [],
           wb.own := [], wb.mir := [], wb.filter := [], wb.units := [], cmp.groups := [],
           bld.vault := [], bld.imgOwn := [], bld.imgMir := [], bld.retain := none,
           repl.streams := [], repl.conns := [] }

/-- Crypto erase: every data key and dedup key goes from slots and stored copies (R240, R350). -/
def sanCrypto (s : State) : State :=
  let s := forEach (s.cry.purges.filterMap (·.mgmt)) (fun p t => mgmtPost p.1 p.2 stSuccess 0 t) (sanMaps s)
  { s with cry.data := [], cry.dedup := [], cry.purges := [],
           hqe.ns := s.hqe.ns.map fun x => { x with key := 0, nextKey := 0 } }

/-- A sanitize ends on this head: its effect, the record, the events (R240, R241, R245). [DEDUCED: log entry 35] -/
def sanEnd (action : Nat) (ause ok : Bool) (s : State) : State :=
  let s := if !ok then { s with hqe.sanFail := some ause } else if action = 2 then sanErase s else sanCrypto s
  let s := putProgress 1 action (if ok then 2 else 3) 0xFFFFFFFF ause s
  forEach (s.hqe.ctls.filter fun k => k.en)
    (fun k t => postEvent k.id (if ok then .sanitizeCompleted else .sanitizeFailed) t) (setInt .hqe I.hqeSanDone s)

/-- SANITIZE_COMPLETE (R241, R242, R245): the head that drives it tells the peer; the status of a failed one is not stated.
[DEDUCED: log entry 35] -/
def execSanitizeComplete (ok : Bool) (s : State) : Res :=
  live s (
    match s.hqe.progress.find? (fun p => p.kind == 1 && p.state == 1) with
    | none => s
    | some p =>
      let s := sendTroys (.progress p.action (if ok then 2 else 3)) (sanEnd p.action p.ause ok s)
      match s.hqe.sanMgmt with
      | none => s
      | some (q, tag) =>
        let d := drawNat s
        mgmtPost q tag (if ok then stSuccess else d.1 % 65536) 0 { d.2 with hqe.sanMgmt := none })

/-! Namespaces and groups (R222, R228–R233). -/

/-- A handle is 0 or names a loaded data key (R229, R232). -/
def keyOk (h : Nat) (s : State) : Bool := h == 0 || (dataKey h s).isSome

/-- PAR_CLASS_CFG.EN of a layout class (R466). -/
def classOn (c : Nat) (s : State) : Bool := bankF F.parClassCfgEn c (if c = 0 then 1 else 0) s == 1

/-- An NSID is held here: by a namespace, or reserved for a request of the peer (R228). -/
def nsidTaken (n : Nat) (s : State) : Bool := (nsOf n s).isSome || s.hqe.reserving.contains (0, n)

/-- The lowest NSID free here and with the peer (R228). -/
def freeNsid (peerRefuses : List Nat) (s : State) : Option Nat :=
  leastFree (peerRefuses ++ s.hqe.ns.map (·.nsid) ++ (s.hqe.reserving.filter fun r => r.1 == 0).map (·.2)) 32768 1

/-- A namespace's NGUID when the control block gives none (R222). -/
def formNguid (n : Nat) (s : State) : Nat :=
  get64 F.hqePairIdLoPairLo F.hqePairIdHiPairHi s + 2 ^ 64 * 0x4B480000 + 2 ^ 96 * n

/-- The SYSTEM clause of a namespace table, binding or reservation record (R406). [DESIGN CHOICE: log entry 82] -/
def systemClause (nsid : Nat) (s : State) : State := clause (mkClause cSystem 0 nsid 0 0 0) s

/-- The empty reservation state. -/
def noResv : Resv := { regs := [], holder := none, rtype := 0, gen := 0, ptpl := false }

/-- Put a new namespace into the subsystem, journalled, and show it to its controllers (R222, R223). -/
def nsAdd (x : Namespace) (s : State) : State :=
  nsChanged x.tenant x.nsid (systemClause x.nsid { s with hqe.ns := s.hqe.ns ++ [x] })

/-- The namespace that a body describes (R222, R229). -/
def nsOfBody (n : Nat) (b : NsCreateBody) (s : State) : Namespace :=
  { nsid := n, group := b.group, tenant := b.tenant, nsze := b.nsze, lbaf := b.lbaf, cmpMode := b.cmpMode,
    cmpLevel := b.cmpLevel, grouping := b.grouping, domain := b.domain, layout := b.layout, key := b.key,
    nextKey := b.nextKey, nguid := if b.nguid = 0 then formNguid n s else b.nguid, resv := noResv, mixed := false,
    oldPct := 0, attrGen := 0, format := none, deleting := none, cloneOf := 0, protect := false }

/-- NS_CREATE (R228, R229, R232, R466, R531): `peerRefuses` are the NSIDs that the peer would refuse.
[DEDUCED: log entry 39] -/
def execNsCreate (q tag : Nat) (body : NsCreateBody) (peerRefuses : List Nat) (s : State) : Res :=
  live s (mgmtRun q tag 0x0010 (fun s =>
    let b := body
    let n := if b.nsid = 0 then freeNsid peerRefuses s else some b.nsid
    let bad := decide (32768 < b.nsid) || b.group == 0 || decide (1024 < b.group) || decide (4091 < b.tenant) || b.nsze == 0 ||
      decide (1 < b.lbaf) || decide (3 < b.cmpMode) || ((b.cmpMode == 1 || b.cmpMode == 3) && !(1 ≤ b.cmpLevel && b.cmpLevel ≤ 9)) ||
      decide (1 < b.grouping) || decide (16383 < b.domain) || decide (7 < b.layout) || !classOn b.layout s ||
      decide (2 ^ 52 < (b.nsze * (if b.lbaf = 0 then 512 else 4096) + 4095) / 4096)
    checks q tag
      [(bad, stInvalidField), ((groupOf b.group s).isNone, stGroupNotFound),
       ((groupOf b.group s).all fun g => !g.mine, stNotOwner), (sanActive s, stSanitizeActive), (!troysUp s, stDegraded),
       (b.nsid != 0 && (nsidTaken b.nsid s || peerRefuses.contains b.nsid), stNsidInUse), (n.isNone, stResource),
       (!(keyOk b.key s && keyOk b.nextKey s), stKeyNotLoaded)]
      (fun s =>
        let n := n.getD 0
        mgmtPost q tag stSuccess n (modeEval false (nsAdd (nsOfBody n b s) (sendTroys (.nsRequest 0 n) s)))) s) s)

/-- NS_DELETE (R231–R233, R235): the namespace leaves every controller at once; snapshots and clones go with it.
[DESIGN CHOICE: log entry 38] -/
def execNsDelete (q tag nsid : Nat) (withSnaps : Bool) (s : State) : Res :=
  live s (mgmtRun q tag 0x0011 (fun s =>
    match nsOf nsid s with
    | none => mgmtPost q tag stNsNotFound 0 s
    | some x =>
      let snaps := s.eph.epochs.filter fun e => e.nsid == nsid && !e.internal && e.st != .deleting
      checks q tag
        [(x.deleting.isSome, stNsNotFound), (!ownsNs x s, stNotOwner), (x.format.isSome, stFormatActive),
         (sanActive s, stSanitizeActive), (!snaps.isEmpty && !withSnaps, stNsHasSnapshots)]
        (fun s =>
          let clones := s.hqe.ns.filter fun y => snaps.any fun e => e.no == y.cloneOf
          let s := forEach clones nsRemove s
          let s := { s with eph.epochs := modAll (fun e => e.nsid == nsid) (fun e => { e with st := .deleting }) s.eph.epochs }
          let s := systemClause nsid (modNs nsid (fun x => { x with deleting := some (q, tag, s.hqe.nextSeq) }) s)
          nsDeleteDone nsid (nsChanged x.tenant nsid s)) s) s)

/-- The attributes an NS_MODIFY selects; it also ends the write protection of a replication target (R230, R237, R422,
R551). -/
def nsApply (b : NsModifyBody) (x : Namespace) : Namespace :=
  let attr := (bit b.valid 1 && (b.cmpMode != x.cmpMode || b.cmpLevel != x.cmpLevel)) ||
    (bit b.valid 2 && b.grouping != x.grouping)
  let x := if bit b.valid 0 then { x with nsze := b.nsze } else x
  let x := if bit b.valid 1 then { x with cmpMode := b.cmpMode, cmpLevel := b.cmpLevel } else x
  let x := if bit b.valid 2 then { x with grouping := b.grouping } else x
  let x := if bit b.valid 3 then { x with layout := b.layout } else x
  let x := if bit b.valid 4 then { x with tenant := b.tenant } else x
  let x := if bit b.valid 5 then
      if x.key = 0 && b.nextKey != 0 then { x with key := b.nextKey, nextKey := 0 } else { x with nextKey := b.nextKey }
    else x
  { x with attrGen := if attr then x.attrGen + 1 else x.attrGen, protect := false }

/-- Bind a host NQN, or remove its binding (R195, R230), on both heads. -/
def nqnBind (q tag : Nat) (b : NsModifyBody) (s : State) : State :=
  checks q tag [(b.action == 1 && decide (4091 < b.tenant), stInvalidField)]
    (fun s =>
      let rest := s.hqe.binds.filter fun p => p.1 != b.nqn
      let s := { s with hqe.binds := if b.action = 1 then rest ++ [(b.nqn, b.tenant)] else rest }
      mgmtPost q tag stSuccess 0 (sendTroys (.nsRequest 2 b.tenant) (systemClause 0 s))) s

/-- NS_MODIFY (R223, R230, R232, R235, R237, R531, R551). -/
def execNsModify (q tag : Nat) (body : NsModifyBody) (s : State) : Res :=
  live s (mgmtRun q tag 0x0012 (fun s =>
    let b := body
    if 2 < b.action then mgmtPost q tag stInvalidField 0 s
    else if 0 < b.action then nqnBind q tag b s
    else match nsOf b.nsid s with
      | none => mgmtPost q tag stNsNotFound 0 s
      | some x =>
        let bad := (bit b.valid 0 && decide (2 ^ 52 < unitsOf { x with nsze := b.nsze })) ||
          (bit b.valid 1 && (decide (3 < b.cmpMode) || ((b.cmpMode == 1 || b.cmpMode == 3) && !(1 ≤ b.cmpLevel && b.cmpLevel ≤ 9)))) ||
          (bit b.valid 2 && decide (1 < b.grouping)) || (bit b.valid 3 && decide (7 < b.layout)) ||
          (bit b.valid 4 && decide (4091 < b.tenant))
        checks q tag
          [(x.deleting.isSome, stNsNotFound), (!ownsNs x s, stNotOwner), (bad, stInvalidField),
           (x.format.isSome, stFormatActive), (sanActive s, stSanitizeActive),
           (bit b.valid 0 && decide (b.nsze < x.nsze), stShrinkRefused), (bit b.valid 5 && !keyOk b.nextKey s, stKeyNotLoaded)]
          (fun s =>
            let s := systemClause b.nsid (modNs b.nsid (nsApply b) s)
            let s := if bit b.valid 4 && b.tenant != x.tenant then nsChanged b.tenant b.nsid (nsChanged x.tenant b.nsid s)
              else s
            mgmtPost q tag stSuccess 0 s) s) s)

/-- ANA_GROUP_SET (R228, R231, R232). [DEDUCED: log entry 39] -/
def execAnaGroupSet (q tag group action : Nat) (peerRefuses : Bool) (s : State) : Res :=
  live s (mgmtRun q tag 0x0013 (fun s =>
    checks q tag
      [(group == 0 || decide (1024 < group) || decide (1 < action), stInvalidField),
       (action == 0 && (groupOf group s).isSome, stGroupExists),
       (action == 1 && (groupOf group s).isNone, stGroupNotFound),
       (action == 1 && (groupOf group s).any fun g => !g.mine, stNotOwner), (!troysUp s, stDegraded),
       (action == 0 && (peerRefuses || s.hqe.reserving.contains (1, group)), stGroupExists),
       (action == 1 && s.hqe.ns.any fun x => x.group == group, stGroupNotEmpty)]
      (fun s =>
        let s := { s with hqe.groups := if action = 0 then s.hqe.groups ++ [{ id := group, mine := true, change := false }]
                                        else s.hqe.groups.filter fun g => g.id != group }
        mgmtPost q tag stSuccess 0 (systemClause 0 (sendTroys (.nsRequest 1 group) s))) s) s)

end Sys2Proof.Machine
end

