-- ==== Sys2Proof/Machine/IoOps.lean ====
section
/-! DEFINITION. Shared operations of the I/O commands: the checks a command meets, write-buffer slots, unit reads and
unmapping (R22, R27–R32, R205–R215, R249–R256, R292, R431). -/

namespace Sys2Proof.Machine

/-! Ranges. -/

/-- Units that the bytes from `start` on touch. -/
def unitsIn (start len : Nat) : List Nat :=
  if len = 0 then [] else (List.range ((start + len - 1) / 4096 - start / 4096 + 1)).map (start / 4096 + ·)

/-- First and last-plus-one byte within unit `u` of the bytes from `start` on. -/
def partOf (start len u : Nat) : Nat × Nat := (max start (u * 4096) - u * 4096, min (start + len) ((u + 1) * 4096) - u * 4096)

/-- Byte range of a command. -/
def byteStart (c : Cmd) (s : State) : Nat := c.sqe.slba * lbSize c.sqe.nsid s
def byteLen (c : Cmd) (s : State) : Nat := c.sqe.nlb * lbSize c.sqe.nsid s

/-- Sectors wholly inside bytes `a` to `b` of a unit (R250). -/
def sectMask (a b : Nat) : Nat := ((List.range 8).filter fun k => decide (a ≤ 512 * k ∧ 512 * (k + 1) ≤ b)).foldl bset 0

/-- `new` laid over `old` from byte `a`. -/
def overlay (old : List Byte) (a : Nat) (new : List Byte) : List Byte := old.take a ++ new ++ old.drop (a + new.length)

/-- The sectors of `mask` from `new`, the others from `old` (R254, R292). -/
def mergeSect (mask : Nat) (new old : List Byte) : List Byte :=
  (List.range 8).flatMap fun k => ((if bit mask k then new else old).drop (512 * k)).take 512

def zeros (n : Nat) : List Byte := List.replicate n 0

/-! Reservations (R209). -/

/-- The host behind a command: the Host Identifier its controller was given, or a number of the controller's own; the
peer passes it on with a forwarded command. -/
def ctlNum (c : Ctl) : Nat :=
  match c with
  | .hpe p f => p * 1024 + f
  | .fab i => 32768 + i
def hostOf (c : Cmd) (s : State) : Nat :=
  match c.ctl with
  | some k =>
    let v := tget (ctlOf k s).feats 0x81 0
    if v = 0 then 2 ^ 128 + ctlNum k else v
  | none => c.host

def isReg (r : Resv) (h : Nat) : Bool := r.regs.any fun p => p.1 == h

/-- A host holds the reservation: types 5 and 6 are held by every registrant. -/
def isHolder (r : Resv) (h : Nat) : Bool := r.holder == some h || (5 ≤ r.rtype && r.holder.isSome && isReg r h)

/-- A command conflicts with the reservation (NVMe): a write needs the holder, or a registrant under types 3 to 6; a read
conflicts under types 2, 4 and 6 only. [PRESUMED: log entry 28] -/
def resvConflict (r : Resv) (h : Nat) (wr : Bool) : Bool :=
  if r.holder.isNone || isHolder r h || (3 ≤ r.rtype && isReg r h) then false
  else wr || r.rtype == 2 || r.rtype == 4 || r.rtype == 6

/-! Checks every I/O command meets (R174, R222–R226, R235, R237, R241, R245, R438, R551, R579). -/

/-- What a command needs: range and reservation checks as a read or a write, capacity, a data key. -/
structure Need where
  range : Bool
  resv  : Option Bool
  cap   : Bool
  key   : Bool

/-- The I/O command of a handle, not begun, with this opcode, while nothing holds commands (R73, R220, R600). -/
def ioReady (h opc : Nat) (s : State) : Option Cmd :=
  if onF F.hqePsStatExiting s || s.hqe.planeHold || s.txn.holding.isSome then none
  else (cmdOf h s).bind fun c =>
    if c.phase == .fetched && (c.ctl.isNone || c.qid != 0) && c.sqe.opc == opc then some c else none

/-- Run an I/O command here when this head owns its namespace, or hand it to the owner; a failed check completes it. -/
def ioRun (h opc : Nat) (n : Need) (f : Cmd → Namespace → State → State) (s : State) : State :=
  match ioReady h opc s with
  | none => s
  | some c =>
    if sanActive s then endCmd h .sanitizeInProgress s
    else if s.hqe.sanFail.isSome then endCmd h .sanitizeFailed s
    else match nsOf c.sqe.nsid s with
      | none => endCmd h .invalidNamespace s
      | some x =>
        if (x.deleting.any fun d => decide (d.2.2 ≤ c.seq)) || (c.ctl.any fun k => tenantOf k s != x.tenant) then
          endCmd h .invalidNamespace s
        else if x.format.any fun g => decide (g.since ≤ c.seq) then endCmd h .formatInProgress s
        else if (groupOf x.group s).any fun g => g.change then endCmd h .anaTransition s
        else if !ownsNs x s then
          if s.pair.ecl.isSome then modCmd h (fun c => { c with phase := .held }) s
          else if c.ctl.isNone then endCmd h .anaInaccessible s
          else forwardCmd h s
        else
          cmdChecks h
            [(decide (0x200000 < c.sqe.len), .invalidField),
             (n.range && decide (x.nsze < c.sqe.slba + c.sqe.nlb), .lbaOutOfRange),
             (n.resv.any fun w => resvConflict x.resv (hostOf c s) w, .reservationConflict),
             (n.resv == some true && x.protect, .namespaceWriteProtected),
             (n.key && !keyReady x s, .namespaceNotReady),
             (n.cap && (s.ftu.admitStop || s.par.blocked.contains x.layout), .capacityExceeded)]
            (f c x) s

/-- Begin a command. -/
def begin_ (h : Nat) (s : State) : State := modCmd h (fun c => { c with phase := .running }) s

/-! Slots of a write (R22, R249–R255). -/

/-- Free slots of the own half. -/
def freeSlots (s : State) : Nat := ownSlots s - ownUsed s

/-- Put a new slot into the own half; occupancy may pass its watermark, or the last slot go (R255, R297). -/
def putSlot (n : Nat) (x : Slot) (s : State) : State :=
  let used := ownUsed s
  let lim := getF F.stgDstCfgHighPct s * ownSlots s
  let s := mirrorOut (.desc n) { s with wb.own := tset s.wb.own n x }
  let s := if used * 100 ≤ lim && lim < (used + 1) * 100 then setInt .stg I.stgWbHigh s else s
  if ownUsed s = ownSlots s then note .stg E.stgWbFull 0xFF { s with hqe.wbHold := true } else s

/-- Take a slot for a part of a unit with its bytes, a shadow when the unit has a slot (R253); a second part of one
command in the same unit joins the first. [DESIGN CHOICE: log entry 46] -/
def takeSlot (h nsid unit seq a : Nat) (bytes : List Byte) (whole durable : Bool) (s : State) : Nat × State :=
  let m := if whole then 0xFF else sectMask a (a + bytes.length)
  match s.wb.own.find? fun p => p.2.cmd == h && p.2.nsid == nsid && p.2.unit == unit && p.2.st == .landing with
  | some (n, _) => (n, modSlot n (fun x => { x with mask := x.mask ||| m, data := overlay x.data a bytes }) s)
  | none =>
    let n := (leastFree (s.wb.own.map (·.1)) (ownSlots s) 0).getD 0
    let old := slotOf nsid unit s
    (n, putSlot n
      { nsid := nsid, unit := unit, seq := seq, st := .landing, mask := m ||| old.elim 0 fun p => p.2.mask,
        durable := durable, landed := false, acked := false, shadow := old.isSome, replaced := false, fillDone := false, cmd := h,
        filledAt := 0, data := overlay (old.elim (zeros 4096) fun p => p.2.data) a bytes } s)

/-- A write to one of these units is still landing: a later one waits for it (R253). -/
def landingIn (nsid : Nat) (us : List Nat) (s : State) : Bool :=
  s.wb.own.any fun p => p.2.nsid == nsid && p.2.st == .landing && us.contains p.2.unit

/-- Take the slots of a byte range and put them on the command's lists. -/
def takeRange (c : Cmd) (x : Namespace) (start : Nat) (data : List Byte) (durable : Bool) (s : State) : State :=
  forEach (unitsIn start data.length) (fun u t =>
    let p := partOf start data.length u
    let r := takeSlot c.h x.nsid u c.seq p.1 ((data.drop (u * 4096 + p.1 - start)).take (p.2 - p.1)) (x.lbaf != 0) durable t
    modCmd c.h (fun d => { d with waitLand := d.waitLand.filter (· != r.1) ++ [r.1],
                                  waitAck := if peerIn t then d.waitAck.filter (· != r.1) ++ [r.1] else d.waitAck,
                                  waitDur := if durable then d.waitDur ++ [(x.nsid, u, c.seq)] else d.waitDur }) r.2) s

/-- The buffers of a command arriving at an HPE function carry its length (R112). [PRESUMED: log entry 28] -/
def bufsOk (c : Cmd) : Bool :=
  match c.ctl with
  | some (.hpe _ _) => (c.sqe.bufs.map (·.2)).sum == c.sqe.len
  | _ => true

/-! Reads (R29–R32, R205, R292). -/

/-- The slot that answers for a unit: the own half's, then the mirror half's of an adopted namespace (R29, R582).
[DEDUCED: log entry 43] -/
def readSlot (nsid unit : Nat) (s : State) : Option Slot :=
  match (slotOf nsid unit s).filter fun p => readable p.2 with
  | some p => some p.2
  | none => ((mirSlotOf nsid unit s).filter fun p => readable p.2).map (·.2)

/-- A whole unit has been read for a command: Read sends its part to the host, Compare holds it against the data, Verify
transfers nothing (R205). [DEDUCED: log entry 43] -/
def unitData (h u : Nat) (bytes : List Byte) (s : State) : State :=
  match cmdOf h s with
  | none => s
  | some c =>
    let start := byteStart c s
    let p := partOf start (byteLen c s) u
    let got := (bytes.drop p.1).take (p.2 - p.1)
    if c.sqe.opc = 0x02 then
      let s := emit (.hostData h u got) s
      match c.ctl with
      | some (.fab i) => forEach ((s.fab.conns.filter fun k => k.ctl == some i && k.qid == c.qid).map (·.id)) (fun n t => txHold n got.length t) s
      | _ => s
    else if c.sqe.opc = 0x05 && (c.cmp.drop (u * 4096 + p.1 - start)).take (p.2 - p.1) != got then
      modCmd h (fun c => { c with st := .compareFailure }) s
    else s

/-- Start the read of one unit: from the write buffer when its slot holds every sector asked for, else through the map
(R29, R292). [DEDUCED: log entry 43] -/
def startUnit (c : Cmd) (u : Nat) (s : State) : State :=
  let n := c.sqe.nsid
  let p := partOf (byteStart c s) (byteLen c s) u
  let want := (List.range 8).filter fun k => decide (p.1 < 512 * (k + 1) ∧ 512 * k < p.2)
  let slot := readSlot n u s
  let s := match slot with
    | some _ => count .stg 0x04 1 s
    | none => if !(Config.filterPos n u).isEmpty && (Config.filterPos n u).all fun q => tget s.wb.filter q 0 != 0 then
        count .stg 0x06 1 s else s
  let mask := slot.elim 0 (·.mask)
  if want.all fun k => bit mask k then unitData c.h u (slot.elim [] (·.data)) s
  else
    let r : UnitRead := { id := s.wb.nextR, for_ := .host c.h, nsid := n, unit := u, stage := .map,
                          uaddr := mapGet 0 n u s, ovMask := mask, ovData := slot.elim [] (·.data), body := [], cws := [], gone := [], late := [], tries := [] }
    modCmd c.h (fun d => { d with waitRead := d.waitRead ++ [r.id] })
      { s with wb.reads := s.wb.reads ++ [r], wb.nextR := s.wb.nextR + 1 }

/-- Start the reads of a command's range. [DEDUCED: log entry 43] -/
def startReads (c : Cmd) (s : State) : State := forEach (unitsIn (byteStart c s) (byteLen c s)) (startUnit c) s

/-- The clause number below which the peer's acknowledgements are awaited; 0 when none is missing (R210, R211).
[DESIGN CHOICE: log entry 46] -/
def cseqWait (s : State) : Nat := if peerIn s && decide (s.ftu.cack < s.ftu.csnext) then s.ftu.csnext else 0

/-! Unmapping (R210, R431). -/

/-- Whole units of a byte range: first and count. [DESIGN CHOICE: log entry 46] -/
def wholeUnits (start len : Nat) : Nat × Nat :=
  let a := (start + 4095) / 4096
  let b := (start + len) / 4096
  (a, b - a)

/-- The partly covered ends of a byte range: start and length of each. [DESIGN CHOICE: log entry 46] -/
def partEnds (start len : Nat) : List (Nat × Nat) :=
  let e := start + len
  let a := (start + 4095) / 4096 * 4096
  let b := e / 4096 * 4096
  if e ≤ a then (if start % 4096 = 0 && len % 4096 = 0 then [] else [(start, len)])
  else (if start < a then [(start, a - start)] else []) ++ (if b < e then [(b, e - b)] else [])

/-- Unmap a byte range for a command: whole units by one clause, the partly covered ends written as zeros. -/
def unmapRange (c : Cmd) (x : Namespace) (start len : Nat) (s : State) : State :=
  let w := wholeUnits start len
  let s := if w.2 = 0 then s else unmapUnits x.nsid w.1 w.2 c.seq s
  let s := modCmd c.h (fun d => { d with waitCseq := max d.waitCseq (cseqWait s) }) s
  forEach (partEnds start len) (fun p t => takeRange c x p.1 (zeros p.2) false t) s

/-- The parts of a set of ranges can be unmapped now: journal room, slots for the ends, none of them landing, no version that a cut needs (R527). -/
def unmapReady (x : Namespace) (rs : List (Nat × Nat)) (s : State) : Bool :=
  let ends := rs.flatMap fun r => partEnds r.1 r.2
  jrnlRoom s && decide (ends.length ≤ freeSlots s) && !landingIn x.nsid (ends.map fun p => p.1 / 4096) s &&
  !cutHeld x.nsid (fun u => rs.any fun r => decide (r.1 < (u + 1) * 4096 ∧ u * 4096 < r.1 + r.2)) s

/-- Unmap the ranges of a command and let it complete (R210); with the journal full it waits (R408). -/
def unmapCmd (c : Cmd) (x : Namespace) (rs : List (Nat × Nat)) (s : State) : State :=
  if !jrnlRoom s then note .ftu E.ftuJrnlFull 0xFF s
  else if !unmapReady x rs s then s
  else
    let s := forEach rs (fun r t => unmapRange c x r.1 r.2 t) (syncBegin c.h x.nsid (begin_ c.h s))
    settle c.h (landPrefix c.h s)

/-! Flush (R28, R211–R213). -/

/-- What a Flush of a namespace waits for: its slots filled by completed writes, and units whose stripe or clause is not
yet durable (R213). [DEDUCED: log entry 42] -/
def flushList (n seq : Nat) (s : State) : List (Nat × Nat × Nat) :=
  ((s.wb.own.filter fun p => p.2.nsid == n && decide (p.2.seq < seq) && !p.2.replaced && p.2.st != .releasing &&
      p.2.st != .landing && (cmdOf p.2.cmd s).isNone).map fun p => (n, p.2.unit, p.2.seq)) ++
  ((mapOf 0 n s).filter fun e => !programmed e.2 s || clausePending n e.1 s).map fun e => (n, e.1, 0)

/-- Mark the slots that a pending Flush covers DURABLE (R250, R257). [DEDUCED: log entry 41] -/
def markDurable (ds : List (Nat × Nat × Nat)) (s : State) : State :=
  forEach ((s.wb.own.filter fun p => ds.contains (p.2.nsid, p.2.unit, p.2.seq)).map (·.1)) (fun n t => modSlot n (fun x => { x with durable := true }) t) s

/-- Put a namespace's covered writes on a Flush. [DEDUCED: log entry 42] -/
def flushNs (c : Cmd) (n : Nat) (s : State) : State :=
  let ds := flushList n c.seq s
  markDurable ds (modCmd c.h (fun d => { d with waitDur := d.waitDur ++ ds,
                                                waitCseq := cseqWait s }) s)

end Sys2Proof.Machine
end

