-- ==== Sys2Proof/Machine/MediaOps.lean ====
section
/-! DEFINITION. Shared operations of the Media Plane: members and erase blocks, stripe geometry, module commands, packing
into stripes, losses and the relocation queue (R390–R393, R415–R423, R430–R433, R437–R448, R459–R463, R475–R493). -/

namespace Sys2Proof.Machine

/-! Members and erase blocks (R418–R420, R454, R473, R497, R498). -/

def memOf (m : Nat) (s : State) : Member :=
  tget s.par.members m { st := .absent, serial := 0, timeouts := [], arounds := 0, declared := 0, downAt := none, fatal := false }
def putMem (m : Nat) (x : Member) (s : State) : State := { s with par.members := tset s.par.members m x }

/-- The member's identity record as held. -/
def recOf (m : Nat) (s : State) : Option ModRec := tget? s.mods.mir m

/-- Numbers of the members in service. -/
def inSvc (s : State) : List Nat := (s.par.members.filter fun m => m.2.st == .present).map (·.1)

/-- This head may send commands to the member: not Failed, its link up (R454, R473). -/
def reachable (m : Nat) (s : State) : Bool :=
  ((memOf m s).st == .present || (memOf m s).st == .retiring) && onF (F.mptLinkStatUp m) s

def blockCount (r : ModRec) : Nat := r.luns * r.blocksPerLun
def blockKey (m b : Nat) : Nat := 4294967296 * m + b

/-- This head owns an extent of a member: even extents belong to head 0 at first (R418). -/
def ownsExtent (m e : Nat) (s : State) : Bool :=
  (tget? s.ftu.extents (65536 * m + e)).getD (e % 2 == s.pins.headSel % 2)

/-- An erase block's table entry; where unlisted, System area, Peer's or Free with the record's wear (R418, R498). -/
def blkOf (m b : Nat) (s : State) : EBlk :=
  (tget? s.ftu.eblk (blockKey m b)).getD
    { erases := (recOf m s).elim 0 (·.wear), reason := 0,
      st := if decide (b < (recOf m s).elim 0 fun r => r.sysBlocks) then 4 else if ownsExtent m (b / 256) s then 0 else 5 }
def putBlk (m b : Nat) (e : EBlk) (s : State) : State := { s with ftu.eblk := tset s.ftu.eblk (blockKey m b) e }
def setBlk (m b st : Nat) (s : State) : State := putBlk m b { blkOf m b s with st := st } s

/-- Blocks this head owns on a member, and those of them that are Free (R418, R420). -/
def ownBlocks (m : Nat) (s : State) : List Nat :=
  (List.range ((recOf m s).elim 0 blockCount)).filter fun b => ownsExtent m (b / 256) s
def freeBlocks (m : Nat) (s : State) : List Nat := (ownBlocks m s).filter fun b => (blkOf m b s).st == 0

/-- The free fraction on a member and the head's, in tenths of a percent (R420). -/
def freePmOn (m : Nat) (s : State) : Nat :=
  if (ownBlocks m s).isEmpty then 0 else (freeBlocks m s).length * 1000 / (ownBlocks m s).length
def freePm (s : State) : Nat := ((inSvc s).map fun m => freePmOn m s).foldl min 1000

/-- Retire a block and journal it (R406, R419, R430, R498). -/
def retireBlk (m b reason : Nat) (s : State) : State :=
  if (blkOf m b s).st = 3 then s else clause (mkClause cBlockRetire 0 0 m b reason) s

/-- Background work of groups 4,092, 4,093 and 4,095 runs: not in H2 (R634). -/
def bgOk (s : State) : Bool := getF F.pwcStatHstate s != 2

/-! Geometry (R390–R393, R440). -/

def chunkLen : Nat := 65536
def bandW (b : Band) : Nat := b.d + b.p

/-- Program units of a member's erase block (R392). -/
def pus (m : Nat) (s : State) : Nat := max 1 ((recOf m s).elim 1 (·.pusPerBlock))

/-- Member position of data position `d`, and of parity chunk `j`, in stripe `n` (R440). -/
def rotP (b : Band) (n : Nat) : Nat := bandW b - 1 - n % bandW b
def dataPos (b : Band) (n d : Nat) : Nat := (rotP b n + b.p + d) % bandW b
def parPos (b : Band) (n j : Nat) : Nat := (rotP b n + j) % bandW b

/-- Module, erase block and program unit of the chunk of stripe `n` at a member position (R392). -/
def chunkAt (b : Band) (n pos : Nat) (s : State) : Option (Nat × Nat × Nat) :=
  (b.members[pos]?).bind fun x => (x.2[n / pus x.1 s]?).map fun blk => (x.1, blk, n % pus x.1 s)

/-- Stripes a band holds: K erase blocks of every member. -/
def bandCap (b : Band) (s : State) : Nat := ((b.members.map fun x => pus x.1 s * b.k)).foldl min (2048 * 8)

/-- Stripe of a unit address in its band, and the parts of its bytes: data position, first byte and last-plus-one. -/
def uStripe (b : Band) (u : Nat) : Nat := uOff u * 16 / (b.d * chunkLen)
def uParts (b : Band) (u : Nat) : List (Nat × Nat × Nat) :=
  let a := uOff u * 16 % (b.d * chunkLen)
  let e := a + uLen u * 16
  ((List.range b.d).filter fun d => decide (a < (d + 1) * chunkLen ∧ d * chunkLen < e)).map fun d =>
    (d, max a (d * chunkLen) - d * chunkLen, min e ((d + 1) * chunkLen) - d * chunkLen)

def stripeAt (b n : Nat) (s : State) : Option Stripe := s.par.stripes.find? fun x => x.band == b && x.no == n

/-- Write a stripe journal record; the peer receives every write of it (R446). -/
def putStripe (x : Stripe) (s : State) : State :=
  let same := fun (y : Stripe) => y.band == x.band && y.no == x.no
  let l := if s.par.stripes.any same then modFirst same (fun _ => x) s.par.stripes else s.par.stripes ++ [x]
  let s := { s with par.stripes := l }
  mirrorOut (.stripeRec x.band x.no) s

/-- Free a stripe journal record (R446). -/
def dropStripe (b n : Nat) (s : State) : State :=
  mirrorOut (.stripeRec b n) { s with par.stripes := s.par.stripes.filter fun x => !(x.band == b && x.no == n) }

/-- Change the state of the chunk at a member position. -/
def setChunk (b n pos : Nat) (c : ChunkSt) (s : State) : State :=
  match stripeAt b n s with
  | none => s
  | some x => putStripe { x with chunks := x.chunks.set pos c, degraded := x.degraded || c == .failed } s

/-- Every chunk that holds the unit has been accepted by its module (R260). -/
def unitAccepted (u : Nat) (s : State) : Bool :=
  match bandOf (uBand u) s with
  | none => true
  | some b => match stripeAt b.no (uStripe b u) s with
    | none => true
    | some x => (uParts b u).all fun p =>
        let c := x.chunks.getD (dataPos b x.no p.1) .open_
        c == .accepted || c == .programmed

/-! Module commands (R475–R479, R492). -/

def ymCmd (m opc block pu cw cws : Nat) (f : YmFor) : YmCmd :=
  { m := m, q := 0, cid := 0, opc := opc, gen := 0, block := block, pu := pu, cw := cw, cws := cws, retry := 0,
    for_ := f, issued := 0, accepted := false, late := false, again := false }

/-- The queue of a command: LUN mod 16 (R477; for READ and BAD_LIST the same rule is the model's choice). -/
def ymQueue (c : YmCmd) (s : State) : Nat := c.block / max 1 ((recOf c.m s).elim 1 (·.blocksPerLun)) % 16

/-- A fence compare-and-swap is under way on the module: no further command is sent (R492). -/
def casBusy (m : Nat) (s : State) : Bool := s.mods.cas.any fun c => c.m == m && !c.done

/-- Send a command with the present GEN, or let it wait for its queue, its fence or its link, in order (R475, R492). -/
def ymSend (c : YmCmd) (s : State) : State :=
  let q := ymQueue c s
  let busy := (s.mods.cmds.filter fun d => d.m == c.m && d.q == q).map (·.cid)
  if !onF (F.mptLinkStatUp c.m) s || casBusy c.m s || 255 ≤ busy.length ||
      s.mods.waiting.any (fun d => d.m == c.m && d.q == q) then
    { s with mods.waiting := s.mods.waiting ++ [{ c with q := q }] }
  else
    let cid := (leastFree busy 256 0).getD 0
    let d := { c with q := q, cid := cid, gen := getF (F.mptFenceGen c.m) s, issued := s.now, accepted := false }
    let s := if c.opc = 3 then count (.mpt c.m) 0x02 1 (count (.mpt c.m) 0x04 73728 s)
      else if c.opc = 4 then count (.mpt c.m) 0x03 1 s
      else if c.opc = 1 then count (.mpt c.m) 0x01 1 s else s
    emit (.yaler c.m q cid c.opc) { s with mods.cmds := s.mods.cmds ++ [d] }

/-- Send what waits for a module, in order, as far as it can go. [DEDUCED: log entry 59] -/
def ymPump (m : Nat) (s : State) : State :=
  let w := s.mods.waiting.filter fun c => c.m == m
  forEach w ymSend { s with mods.waiting := s.mods.waiting.filter fun c => c.m != m }

def ymOf (m q cid : Nat) (s : State) : Option YmCmd := s.mods.cmds.find? fun c => c.m == m && c.q == q && c.cid == cid

/-- A command has ended: its identifier is free, and the next waiting one goes. -/
def ymEnd (c : YmCmd) (s : State) : State :=
  ymPump c.m { s with mods.cmds := s.mods.cmds.filter fun d => !(d.m == c.m && d.q == c.q && d.cid == c.cid) }

/-- YM_FENCE of a module as last read (R492). -/
def fenceWord (m : Nat) (s : State) : Nat := getF (F.mptFenceGen m) s + 2 ^ 31 * getF (F.mptFenceHolder m) s

/-! Relocation queue (R432, R433, R447). -/

/-- Put a band into the relocation queue, once; at the head where a rule says so. [DEDUCED: log entry 36] -/
def relocPush (n : Nat) (front : Bool) (s : State) : State :=
  match bandOf n s with
  | none => s
  | some b =>
    if !onF F.ftuCtrlRelocEn s || !b.mine || !(b.st == .open_ || b.st == .sealed_) then s
    else
      let was := s.ftu.relocQ.contains n
      if was && !front then s
      else
        let s := modBand n (fun b => { b with reloc := true }) s
        let rest := s.ftu.relocQ.filter (· != n)
        let s := if !was && 4096 ≤ rest.length then note .ftu E.ftuRelocQFull 0xFF s else s
        let s := { s with ftu.relocQ := if front then n :: rest else rest ++ [n] }
        if was then s else setInt .ftu I.ftuRelocQueued s

/-! The lost-extent log and lost units (R459–R463). -/

/-- Enter a loss (R462, R463). -/
def lostAdd (nsid unit epoch cause : Nat) (recon : Bool) (s : State) : State :=
  let fresh : LostRec := { nsid := nsid, unit := unit, count := 1, time := stamp s, epoch := epoch, cause := cause, recon := recon }
  match s.par.lost.getLast? with
  | some r =>
    if r.nsid = nsid && r.epoch = epoch && r.cause = cause && r.recon == recon &&
        (unit = r.unit + r.count || unit + 1 = r.unit) then
      setInt .par I.parLostNew
        { s with par.lost := s.par.lost.dropLast ++ [{ r with unit := min r.unit unit, count := r.count + 1 }] }
    else if 16384 ≤ s.par.lost.length then
      note .par E.parLogFull 0xFF (setF F.parLostStatOverflow 1 (incSatF F.parLostStatDropped 1 s))
    else setInt .par I.parLostNew { s with par.lost := s.par.lost ++ [fresh] }
  | none => setInt .par I.parLostNew { s with par.lost := [fresh] }

/-- A unit is shared for a RELOCATE: it has a record, or an epoch names it (R428, R460). -/
def sharedUnit (u : Nat) (s : State) : Bool :=
  (tget? s.fiu.sut u).isSome || s.ftu.maps.any fun m => m.epoch != 0 && m.entries.any fun e => resolve e.2 s == u

/-- One unit is lost: a RELOCATE to Lost, and a record when its back-pointer's entry was remapped (R459, R460). -/
def loseUnit (u cause : Nat) (s : State) : State :=
  if !liveUnit u s then s
  else
    let s := count .par 0x08 1 (note .par E.parUnitLost 0xFF s)
    match backOf u s with
    | none => s
    | some (n, x) =>
      let hit := mapGet 0 n x s == u
      let s := clause (mkClause cRelocate (b2n (sharedUnit u s)) n x u lostEntry) s
      let s := { s with ftu.gcs := s.ftu.gcs.map fun g => { g with units := g.units.filter (· != u) } }
      if hit then lostAdd n x 0 cause false s else s

/-- A stored unit is lost with every member (R459). -/
def loseStored (u cause : Nat) (s : State) : State :=
  forEach ((List.range 4).map (uBase u + ·)) (fun v t => loseUnit v cause t) s

/-! Unit reads (R29, R293, R450). -/

def uRead (r : Nat) (s : State) : Option UnitRead := s.wb.reads.find? fun x => x.id == r
def modURead (r : Nat) (f : UnitRead → UnitRead) (s : State) : State :=
  { s with wb.reads := modFirst (fun x => x.id == r) f s.wb.reads }
def dropURead (r : Nat) (s : State) : State := { s with wb.reads := s.wb.reads.filter fun x => x.id != r }

def unitOf (u : Nat) (s : State) : Option DestUnit := s.wb.units.find? fun x => x.id == u
def modUnit (u : Nat) (f : DestUnit → DestUnit) (s : State) : State :=
  { s with wb.units := modFirst (fun x => x.id == u) f s.wb.units }
def dropUnit (u : Nat) (s : State) : State := { s with wb.units := s.wb.units.filter fun x => x.id != u }

/-- A host read of a unit ends: what the command waited for is gone. -/
def readSettle (h r : Nat) (s : State) : State :=
  settle h (modCmd h (fun c => { c with waitRead := c.waitRead.filter (· != r) }) s)

/-- The data of a unit is there: the sectors taken from the write buffer are laid over it (R254, R292). -/
def readDeliver (x : UnitRead) (data : List Byte) (s : State) : State :=
  let s := dropURead x.id s
  match x.for_ with
  | .host h => readSettle h x.id (unitData h x.unit (mergeSect x.ovMask x.ovData data) s)
  | .fill u => modUnit u (fun d => { d with data := mergeSect x.ovMask d.data data, stage := .fingerprint }) s
  | .stream k => xferUnit k x.nsid x.unit false s
  | .gc _ => s

/-- A unit cannot be read: a host command ends with Unrecovered Read Error; the sectors a fill wanted take a free value.
[DESIGN CHOICE: log entry 10] -/
def readFail (x : UnitRead) (s : State) : State :=
  match x.for_ with
  | .host h => readSettle h x.id (modCmd h (fun c => { c with st := .unrecoveredReadError }) (dropURead x.id s))
  | .fill _ => let d := drawBytes 4096 s; readDeliver x d.1 d.2
  | .stream k => xferUnit k x.nsid x.unit true (dropURead x.id s)
  | .gc _ => dropURead x.id s

/-- A unit cannot be recovered: it is lost, and its read fails (R450, R459). -/
def readLost (x : UnitRead) (cause : Nat) (s : State) : State := readFail x (loseStored x.uaddr cause s)

/-- Issue the reads of one part of a stored unit, or take its position as unreadable (R450, R478). -/
def readPart (x : UnitRead) (b : Band) (p : Nat × Nat × Nat) (s : State) : State :=
  match chunkAt b (uStripe b x.uaddr) (dataPos b (uStripe b x.uaddr) p.1) s with
  | none => s
  | some (m, blk, pu) =>
    let failed := (stripeAt b.no (uStripe b x.uaddr) s).any fun y => y.chunks.getD (dataPos b y.no p.1) .open_ == .failed
    let wrong := b.wrong.contains (uStripe b x.uaddr, p.1) && match x.for_ with
      | .gc _ => true
      | _ => false
    if !reachable m s || failed || wrong then modURead x.id (fun y => { y with gone := y.gone ++ [p.1] }) s
    else ymSend (ymCmd m 1 blk pu (p.2.1 / 4096) ((p.2.2 - 1) / 4096 + 1 - p.2.1 / 4096) (.read x.id p.1)) s

/-- Start a read at the modules, from its source (R30, R262). -/
def readModules (r : Nat) (s : State) : State :=
  match uRead r s with
  | none => s
  | some x => match bandOf (uBand x.uaddr) s with
    | none => readFail x s
    | some b =>
      let s := modURead r (fun y => { y with stage := .module_, body := [], cws := [], gone := [], late := [], tries := [] }) s
      forEach (uParts b x.uaddr) (readPart x b) s

/-! Parity (R441, R442). -/

/-- Product of a byte string with a power of g. -/
def gfScale (c : Nat) (bs : List Byte) : List Byte := bs.map fun b => gf (BitVec.ofNat 8 c) b

/-- P and Q over the data chunks in data position order (R441). -/
def parityP (ds : List (List Byte)) : List Byte := ds.foldl xorBytes []
def parityQ (ds : List (List Byte)) : List Byte :=
  (ds.zip (List.range ds.length)).foldl (fun a d => xorBytes a (gfScale (gfPow d.2) d.1)) []

/-- Inverse of a nonzero element: its 254th power. -/
def gfInv (a : Nat) : Nat := (List.range 253).foldl (fun x _ => gfMul 8 x a) a

/-- The readable data ranges folded into P and Q. -/
def foldP (others : List (Nat × List Byte)) (p : List Byte) : List Byte := others.foldl (fun a d => xorBytes a d.2) p
def foldQ (others : List (Nat × List Byte)) (q : List Byte) : List Byte :=
  others.foldl (fun a d => xorBytes a (gfScale (gfPow d.1) d.2)) q

/-- The unreadable data ranges from the others (R442): `p` and `q` are empty when unreadable. -/
def solve (bad : List Nat) (others : List (Nat × List Byte)) (p q : List Byte) : Option (List (Nat × List Byte)) :=
  match bad with
  | [] => some []
  | [x] =>
    if !p.isEmpty then some [(x, foldP others p)]
    else if !q.isEmpty then some [(x, gfScale (gfInv (gfPow x)) (foldQ others q))] else none
  | [x, y] =>
    if p.isEmpty || q.isEmpty || x == y then none
    else
      let pxy := foldP others p
      let g := gfPow (max x y - min x y)
      let dx := gfScale (gfInv (g ^^^ 1)) (xorBytes (gfScale g pxy) (gfScale (gfInv (gfPow (min x y))) (foldQ others q)))
      some [(min x y, dx), (max x y, xorBytes pxy dx)]
  | _ => none

/-! Stripes (R421–R423, R443, R446). -/

/-- A page back-pointer of an item at OFFSET (R422). -/
def backBytes (off : Nat) (b : BackPtr) : List Byte :=
  toBytes 4 (off % 2 ^ 28 + 2 ^ 28 * b.mask) ++ toBytes 4 b.nsid ++ toBytes 8 b.unit ++ toBytes 8 b.seq ++ toBytes 2 b.gen ++
  toBytes 2 (b2n b.copy + 2 * b2n b.shared) ++ toBytes 4 (if b.copy then b.src % 2 ^ 24 else 0)

/-- The stripe's summary with its back-pointers, in address order (R421). -/
def summary (b : Band) (x : Stripe) (filled : Bool) (s : State) : List Byte :=
  let bps := (x.items.reverse.map fun i => backBytes i.1 i.2).flatten
  let h := toBytes 4 0x53534B48 ++ toBytes 3 b.no ++ toBytes 1 (b2n filled + 2 * b2n b.isGc + 4 * b2n b.isMeta) ++
    toBytes 4 x.no ++ toBytes 2 x.items.length ++ toBytes 2 0 ++ toBytes 4 x.dataEnd ++ toBytes 4 0 ++ toBytes 8 b.bseq ++
    toBytes 8 s.ftu.csnext ++ toBytes 8 (stamp s) ++ toBytes 12 0
  bps ++ h ++ toBytes 4 (crc32c (bps ++ h))

/-- Bytes the stripe's summary takes. -/
def sumLen (x : Stripe) : Nat := 32 * x.items.length + 64

/-- Data chunk `d` of a stripe. -/
def dataChunk (x : Stripe) (d : Nat) : List Byte := (x.stream.drop (d * chunkLen)).take chunkLen

/-- Hand a chunk to its member, or count it failed when the member takes no command (R443, R448, R473). -/
def sendChunk (b : Band) (n pos : Nat) (data : List Byte) (s : State) : State :=
  match chunkAt b n pos s with
  | none => setChunk b.no n pos .failed s
  | some (m, blk, pu) =>
    if !reachable m s then setChunk b.no n pos .failed s
    else ymSend (ymCmd m 3 blk pu 0 16 (.program b.no n pos)) (emit (.chunk m blk pu data) (setChunk b.no n pos .sent s))

/-- Send the data chunks of a stripe that the unit stream has filled; all of them once it is closed (R443). -/
def sendFilled (n no : Nat) (s : State) : State :=
  match bandOf n s with
  | none => s
  | some b => forEach (List.range b.d) (fun d t =>
      match stripeAt n no t with
      | none => t
      | some x =>
        if x.chunks.getD (dataPos b no d) .failed == .open_ && (x.closed || decide ((d + 1) * chunkLen ≤ x.dataEnd)) then
          sendChunk b no (dataPos b no d) (dataChunk x d) t
        else t) s

/-- Close a stripe: zeros up to its summary, then its remaining data chunks go (R421, R423, R443). -/
def closeStripe (n no : Nat) (early : Bool) (s : State) : State :=
  match bandOf n s, stripeAt n no s with
  | some b, some x =>
    if x.closed then s
    else
      let pad := b.d * chunkLen - x.dataEnd - sumLen x
      let y := { x with closed := true, early := early, stream := x.stream ++ zeros pad ++ summary b x early s }
      let s := if early then count .par 0x02 1 s else s
      sendFilled n no (modBand n (fun b => { b with stripes := b.stripes + 1 }) (putStripe y s))
  | _, _ => s

/-- Seal a band, its open stripe closed early (R416, R430, R433, R448). -/
def sealBand (n : Nat) (short : Bool) (s : State) : State :=
  match bandOf n s with
  | none => s
  | some b =>
    if b.st != .open_ then s
    else
      let s := forEach ((s.par.stripes.filter fun x => x.band == n && !x.closed).map (·.no)) (fun k t => closeStripe n k true t) s
      let last := ((bandOf n s).elim 0 (·.stripes)) - 1
      modBand n (fun b => { b with st := .sealed_, short := short }) (clause (mkClause cBandSeal 0 0 n last (b2n short)) s)

/-- The open band of a kind (R417). -/
def openBand (cls : Nat) (isMeta isGc : Bool) (s : State) : Option Band :=
  s.ftu.bands.find? fun b => b.mine && b.st == .open_ && b.isMeta == isMeta && b.isGc == isGc && (isMeta || b.cls == cls)

/-- The item fits into what is left of the stripe (R393, R421). -/
def fits (b : Band) (x : Stripe) (len : Nat) : Bool :=
  decide (x.dataEnd + len + 32 * (x.items.length + 1) + 64 ≤ b.d * chunkLen)

/-- The stripe that takes an item of this length: the open one, or the next, when the band has one left and no more than
three stripes are incomplete (R443). -/
def stripeFor (b : Band) (len : Nat) (s : State) : Option (Stripe × State) :=
  let fresh := fun (t : State) =>
    let k := (bandOf b.no t).elim 0 (·.stripes)
    if bandCap b t ≤ k || 4 ≤ (t.par.stripes.filter fun x => x.band == b.no).length then none
    else
      let x : Stripe := { band := b.no, no := k, chunks := List.replicate (bandW b) .open_, dataEnd := 0, stream := [],
                          items := [], parity := false, early := false, closed := false, degraded := false, dueAt := none,
                          held := true, recover := false, isMeta := b.isMeta, isGc := b.isGc }
      some (x, putStripe x t)
  match s.par.stripes.find? (fun x => x.band == b.no && !x.closed) with
  | none => fresh s
  | some x => if fits b x len then some (x, s) else fresh (closeStripe b.no x.no false s)

/-- Put an item into the open band of its kind: its address, its back-pointer, the stripe's deadline (R212, R390, R393,
R422). None while no stripe can take it. -/
def packItem (cls : Nat) (isMeta isGc : Bool) (bytes : List Byte) (bp : BackPtr) (durable : Bool) (s : State) :
    Option (Nat × State) :=
  (openBand cls isMeta isGc s).bind fun b => (stripeFor b bytes.length s).map fun r =>
    let x := r.1
    let off := (x.no * b.d * chunkLen + x.dataEnd) / 16
    let u := uaddrOf b.no off (bytes.length / 16) 0
    let y := { x with dataEnd := x.dataEnd + bytes.length, stream := x.stream ++ bytes, items := x.items ++ [(off, bp)],
                      dueAt := if durable then some (x.dueAt.getD (r.2.now + 50000)) else x.dueAt }
    let s := putStripe y { r.2 with ftu.back := tset r.2.ftu.back u bp }
    (u, sendFilled b.no x.no s)

/-! Failed chunks and members (R288, R430, R447, R448). -/

/-- The band has no stripe in flight and no unit of the pipeline in it. -/
def bandQuiet (n : Nat) (s : State) : Bool :=
  (s.par.stripes.all fun x => x.band != n) && s.wb.units.all fun u => uBand u.uaddr != n

/-- Store a unit again that was lost before its chunk was accepted: from its own slot while that holds its SEQ, else for
the duplicates that name its FPT entry; with neither it ends (R26, R288). A collected unit is read again (R430). -/
def restoreUnit (u : DestUnit) (s : State) : State :=
  match u.src with
  | .gc old _ =>
    let s := dropUnit u.id s
    if s.wb.reads.any (fun r => r.for_ == .gc (uBand old) && r.uaddr == uBase old) then s
    else readModules s.wb.nextR (newRead (.gc (uBand old)) u.nsid u.unit (uBase old) .module_ s)
  | .slot n =>
    let own := (tget? s.wb.own n).any fun x => x.seq == u.seq && !x.replaced
    let dups := (u.own.bind fun i => tget? s.fiu.fpt i).any fun e => 0 < e.pendref
    if own || dups then
      modUnit u.id (fun d => { d with stage := .compress, uaddr := 0, mode := 0, body := [], grp := none, mem := 0 }) s
    else
      let s := match u.own with
        | some i => fptDead i s
        | none => s
      releaseSlot n (dropUnit u.id s)

/-- Store again every unit whose address meets `p` and whose clause is still to come. -/
def restoreUnits (p : Nat → Bool) (s : State) : State :=
  forEach (s.wb.units.filter fun u => u.uaddr != 0 && p u.uaddr) restoreUnit s

/-- Abandon a stripe: its record goes, its units are stored or read again (R430, R447, R448). -/
def abandonStripe (n no : Nat) (s : State) : State :=
  match bandOf n s with
  | none => s
  | some b =>
    let s := restoreUnits (fun u => uBand u == n && uStripe b u == no) (dropStripe n no s)
    let here := fun (u : Nat) => uBand u == n && uStripe b u == no
    { s with ftu.pages := s.ftu.pages.map fun p => if p.writing && here p.wrote then { p with writing := false, again := none } else p,
             ftu.blocks := s.ftu.blocks.map fun k => if here k.copy && !k.spilled then { k with copy := 0 } else k }

/-- Some data chunk of the stripe has been accepted. -/
def hasAccepted (b : Band) (x : Stripe) : Bool :=
  (List.range b.d).any fun d =>
    let c := x.chunks.getD (dataPos b x.no d) .open_
    c == .accepted || c == .programmed

/-- Seal a band short after a failure: stripes with accepted data complete, the others are abandoned (R447, R448). -/
def cutBand (n : Nat) (s : State) : State :=
  match bandOf n s with
  | none => s
  | some b =>
    let s := forEach ((s.par.stripes.filter fun x => x.band == n && !hasAccepted b x).map (·.no)) (fun k t => abandonStripe n k t) s
    sealBand n true s

/-- A chunk is lost (R288, R430, R443): a destage stripe goes on degraded and the units of the chunk are stored again; GC or
metadata stripes are abandoned. -/
def chunkLost (b : Band) (no pos : Nat) (s : State) : State :=
  let was := (stripeAt b.no no s).elim .open_ fun x => x.chunks.getD pos .open_
  let s := setChunk b.no no pos .failed s
  if b.isGc || b.isMeta then
    forEach ((s.par.stripes.filter fun x => x.band == b.no && !chunksDone x).map (·.no)) (fun k t => abandonStripe b.no k t) s
  else if was == .accepted then s
  else restoreUnits (fun u => uBand u == b.no && uStripe b u == no && (uParts b u).any fun p => dataPos b no p.1 == pos) s

/-- A chunk could not be programmed (R430, R447): its block is retired; a destage stripe completes degraded and its units
not yet accepted are stored again; a GC or metadata stripe is abandoned; the band is sealed. -/
def chunkFail (n no pos : Nat) (s : State) : State :=
  match bandOf n s with
  | none => s
  | some b =>
    let s := match chunkAt b no pos s with
      | some (m, blk, _) => note .ftu E.ftuProgFail 0xFF (retireBlk m blk 1 s)
      | none => s
    let s := chunkLost b no pos s
    if b.isGc || b.isMeta then sealBand n true s else relocPush n true (cutBand n s)

end Sys2Proof.Machine
end

