-- ==== Sys2Proof/Machine/Destage.lean ====
section
/-! DEFINITION. Mirror acknowledgements and destage: fingerprints, compression, encryption, packing and clauses (R22–R27,
R251–R262, R288, R298–R312, R335, R407). -/

namespace Sys2Proof.Machine

/-! Slots (R22, R251). -/

/-- MIRROR_ACK (R22, R251, R559). -/
def execMirrorAck (slot : Nat) (s : State) : Res :=
  live s (
    match tget? s.wb.own slot with
    | none => s
    | some x =>
      if x.st != .landing || !x.landed || x.acked then s
      else
        let s := modSlot slot (fun y => { y with acked := true }) s
        settle x.cmd (modCmd x.cmd (fun c => { c with waitAck := c.waitAck.filter (· != slot) }) (fillSlot slot s)))

/-- SLOT_RELEASE_ACK (R251, R252). -/
def execSlotReleaseAck (slot : Nat) (s : State) : Res :=
  live s (match tget? s.wb.own slot with
    | none => s
    | some x => if x.st = .releasing then freeSlot slot s else s)

/-! Start (R254, R257, R258). -/

/-- Slots that destage may take: Filled and in the slot index. -/
def ready (p : Nat × Slot) : Bool := p.2.st == .filled && !p.2.replaced && !p.2.shadow

/-- A slot's turn has come by age, durability, a Pending epoch or occupancy, or in an orderly stop (R257, R527, R639). -/
def due (x : Slot) (s : State) : Bool :=
  s.pwc.stopping || x.durable || preCut x.nsid x.seq s || decide (1000 * getF F.stgDstCfgDstAge s ≤ s.now - x.filledAt) ||
  decide (getF F.stgDstCfgHighPct s * ownSlots s ≤ ownUsed s * 100)

/-- A slot that goes ahead of all others: DURABLE, or needed by a Pending epoch (R257, R527). -/
def urgent (x : Slot) (s : State) : Bool := x.durable || preCut x.nsid x.seq s

/-- No slot goes before it: urgent slots are ahead of all others, and within a namespace SEQ ascends (R257, R527). -/
def firstInLine (x : Slot) (s : State) : Bool :=
  s.wb.own.all fun p => !ready p ||
    (if urgent x s then !urgent p.2 s || p.2.nsid != x.nsid || decide (x.seq ≤ p.2.seq)
     else !urgent p.2 s && (p.2.nsid != x.nsid || decide (x.seq ≤ p.2.seq)))

/-- A unit of the pipeline as destage reads it from a slot. -/
def slotUnit (n : Nat) (x : Slot) (st : Stage) (s : State) : DestUnit :=
  { id := s.wb.nextU, src := .slot n, nsid := x.nsid, unit := x.unit, seq := x.seq, stage := st, data := x.data,
    zero := false, fp := [], dup := none, own := none, grp := none, mode := 0, body := [], key := 0, gen := 0, uaddr := 0,
    mem := 0, cls := 0, durable := x.durable }

/-- DESTAGE_START (R24, R25, R73, R254, R257–R259). [DEDUCED: log entry 99] -/
def execDestageStart (slot : Nat) (s : State) : Res :=
  live s (
    match tget? s.wb.own slot with
    | none => s
    | some x =>
      if !running .ftu s || s.txn.holding.isSome || !ready (slot, x) || !due x s || !firstInLine x s ||
          8192 ≤ s.wb.units.length then s
      else
        let s := modSlot slot (fun y => { y with st := .destaging }) s
        let from_ := mapGet 0 x.nsid x.unit s
        let fill := x.mask != 0xFF && from_ != 0
        let id := s.wb.nextU
        let u := slotUnit slot x (if fill then .read else .fingerprint) s
        let s := { s with wb.units := s.wb.units ++ [u], wb.nextU := id + 1 }
        if x.mask == 0xFF then s
        else
          let s := count .stg 0x05 1 (modSlot slot (fun y => { y with fillDone := true }) s)
          if fill then
            let r := s.wb.nextR
            modURead r (fun y => { y with ovMask := x.mask }) (newRead (.fill id) x.nsid x.unit from_ .map s)
          else s)

/-! Fingerprint (R261, R263, R264, R361). -/

/-- FINGERPRINT_DONE (R261, R263, R361). -/
def execFingerprintDone (u : Nat) (s : State) : Res :=
  live s (
    match unitOf u s with
    | none => s
    | some d =>
      if d.stage != .fingerprint || !running .dge s || !onF F.dgeCtrlUnitEn s || !(List.range 16).any (fun l => laneUsable .dge l s) then s
      else
        let s := count .dge 0x01 1 (wakeLane .dge (List.range 16) s)
        if allZero d.data then dgeRun (count .dge 0x02 1 (modUnit u (fun d => { d with zero := true, stage := .clause }) s))
        else
          let key := (nsOf d.nsid s).bind fun x => domKey x.domain s
          dgeRun <| modUnit u (fun e => { e with fp := key.elim [] fun k => Config.hmac256 k d.data, stage := .search }) s)

/-! Compression (R301–R312). -/

/-- The stored length of a payload: header, payload padded to 16 bytes, trailer (R298–R300). -/
def storedLen (payload : Nat) : Nat := 16 + (payload + 15) / 16 * 16 + 16

/-- The Lexical encoder's output, when it expands to its input again (R308). -/
def lexOf (level : Nat) (data : List Byte) : Option (List Byte) :=
  let l := Config.lexEncode level data
  if lexDecode data.length l = .ok data then some l else none

/-- Encode `m` members by CMP_MODE and CMP_LEVEL; none when nothing meets R302 (R302, R305, R307, R310). -/
def encode (mode level m : Nat) (data : List Byte) : Option (Nat × List Byte) :=
  let ok := fun (p : List Byte) => decide (storedLen p.length ≤ m * 3968)
  let lex := if mode = 1 || mode = 3 then (lexOf level data).filter ok else none
  let pred := if mode = 2 || mode = 3 then (some (predEncode data)).filter ok else none
  match lex, pred with
  | some l, some p => if storedLen p.length ≤ storedLen l.length then some (2, p) else some (1, l)
  | some l, none => some (1, l)
  | none, some p => some (2, p)
  | none, none => none

/-- Count a stored unit (R353). -/
def storeCount (mode inn out : Nat) (s : State) : State :=
  count .cmp (if mode = 0 then 0x03 else mode) 1 { s with cmp.inBytes := s.cmp.inBytes + inn, cmp.outBytes := s.cmp.outBytes + out }

/-- A unit leaves stage 4 alone, encoded or raw (R301, R310, R312). -/
def storeSingle (u mode level : Nat) (s : State) : State :=
  match unitOf u s with
  | none => s
  | some d =>
    let e := (if mode = 0 then none else encode mode level 1 d.data).getD (0, d.data)
    storeCount e.1 4096 (storedLen e.2.length)
      (modUnit u (fun d => { d with mode := e.1, body := e.2, grp := none, mem := 0, stage := .encrypt }) s)

/-- The units of the pipeline in group `g`, by ascending UNIT (R311). -/
def grpUnits (g : Nat) (s : State) : List DestUnit := (s.wb.units.filter fun d => d.grp == some g).mergeSort fun a b => a.unit ≤ b.unit

/-- Give the members of a group their index, and the encoded stream to member 0. -/
def numberGroup (g mode : Nat) (body : List Byte) (s : State) : State :=
  let us := (grpUnits g s).map (·.id)
  forEach (us.zip (List.range us.length)) (fun p t =>
    modUnit p.1 (fun d => { d with mode := mode, body := if p.2 = 0 then body else [], mem := p.2, stage := .encrypt }) t) s

/-- A group closes: one member is encoded alone, several as one stream, or each alone when that misses R302 (R311,
R312). -/
def closeGroup (g : Nat) (s : State) : State :=
  match s.cmp.groups.find? (fun x => x.id == g) with
  | none => s
  | some x =>
    let us := grpUnits g s
    let mode := (nsOf x.nsid s).elim 0 (·.cmpMode)
    let level := (nsOf x.nsid s).elim 1 (·.cmpLevel)
    let s := { s with cmp.groups := s.cmp.groups.filter fun y => y.id != g }
    let data := us.flatMap (·.data)
    match us.map (·.id), encode mode level us.length data with
    | [u], _ => storeSingle u mode level s
    | _, some e =>
      count .cmp 0x05 us.length (count .cmp 0x04 1
        (storeCount e.1 data.length (storedLen e.2.length) (numberGroup g e.1 e.2 s)))
    | ids, none => forEach ids (fun u t => storeSingle u mode level t) (note .cmp E.cmpGroupSplit 0xFF s)

/-- The open group that a unit joins (R311): of its namespace, with equal UNIT ÷ 4, without this unit. -/
def groupFor (d : DestUnit) (s : State) : Option Group16 :=
  s.cmp.groups.find? fun x => x.nsid == d.nsid && x.base == d.unit / 4 && (grpUnits x.id s).all fun e => e.unit != d.unit

/-- A unit joins its group, which closes with four members (R311). -/
def joinGroup (d : DestUnit) (s : State) : State :=
  let r : Nat × State := match groupFor d s with
    | some x => (x.id, s)
    | none => (s.cmp.nextG, { s with cmp.nextG := s.cmp.nextG + 1, cmp.groups := s.cmp.groups ++
        [{ id := s.cmp.nextG, nsid := d.nsid, base := d.unit / 4, members := [], closed := false }] })
  let s := modUnit d.id (fun d => { d with grp := some r.1, stage := .groupWait }) r.2
  let s := { s with cmp.groups := modFirst (fun x => x.id == r.1) (fun x => { x with members := x.members ++ [d.id] }) s.cmp.groups }
  if 4 ≤ (grpUnits r.1 s).length then closeGroup r.1 s else s

/-- COMPRESS_DONE (R301–R312): the bypass forms the raw unit; a grouped namespace's unit joins its group. The attributes are
the namespace's present ones, a re-encoded unit keeps its key (R304, R426). -/
def execCompressDone (u : Nat) (s : State) : Res :=
  live s (
    match unitOf u s with
    | none => s
    | some d =>
      if d.stage != .compress || !running .cmp s then s
      else
        match nsOf d.nsid s with
        | none => modUnit u (fun d => { d with stage := .clause }) s
        | some x =>
          let mode := if onF F.cmpCtrlCompEn s then x.cmpMode else 0
          if mode != 0 && !(List.range 24).any (fun l => laneUsable .cmp l s) then s
          else
            let s := if mode = 0 then s else wakeLane .cmp (List.range 24) s
            let s := modUnit u (fun d => { d with gen := x.attrGen, cls := x.layout,
                                                  key := if d.key = 0 then x.key else d.key }) s
            if mode = 0 then storeSingle u 0 0 s
            else if x.grouping = 1 then joinGroup { d with gen := x.attrGen } s
            else storeSingle u mode x.cmpLevel s)

/-- GROUP_WAIT_EXPIRY (R311). -/
def execGroupWaitExpiry (g : Nat) (s : State) : Res := live s (if running .cmp s then closeGroup g s else s)

/-! Packing (R260, R390, R422). -/

/-- The back-pointer of a unit or of its group. -/
def backFor (d : DestUnit) (s : State) : BackPtr :=
  let us := match d.grp with
    | some g => grpUnits g s
    | none => [d]
  let first := (us.map (·.unit)).foldl min d.unit
  let mask := us.foldl (fun m e => bset m (e.unit - first)) 0
  match d.src with
  | .slot _ => { nsid := d.nsid, unit := first, mask := mask, gen := d.gen, seq := d.seq, copy := false, shared := false, src := 0 }
  | .gc old reenc =>
    let sh := us.any fun e => match e.src with
      | .gc o _ => sharedUnit o s
      | .slot _ => false
    match if reenc then none else tget? s.ftu.back (uBase old) with
    | some b => { b with gen := d.gen, copy := true, shared := sh, src := uBand old }
    | none => { nsid := d.nsid, unit := first, mask := mask, gen := d.gen, seq := d.seq, copy := true, shared := sh, src := uBand old }

/-- A unit of collection. -/
def isMoved (d : DestUnit) : Bool := match d.src with
  | .gc _ _ => true
  | .slot _ => false

/-- Pack one stored unit: every unit of its group gets the address with its member index. -/
def packOne (d : DestUnit) (s : State) : State :=
  match packItem d.cls false (isMoved d) d.body (backFor d s) (d.durable || (d.grp.elim [] fun g => grpUnits g s).any (·.durable)) s with
  | none => s
  | some (u, s) =>
    { s with wb.units := modAll (fun e => e.id == d.id || (d.grp.isSome && e.grp == d.grp))
               (fun e => { e with uaddr := u + e.mem, stage := .clause }) s.wb.units }

/-- Pack every encrypted unit that waits, in order. -/
def packAll (s : State) : State :=
  forEach (s.wb.units.map (·.id)) (fun i t => match unitOf i t with
    | none => t
    | some d => if d.stage == .pack && !d.body.isEmpty then packOne d t else t) s

/-! Encryption (R298–R303, R335–R338). -/

/-- The plaintext of a stored unit. -/
def plainOf (d : DestUnit) (s : State) : List Byte := match d.grp with
  | some g => (grpUnits g s).flatMap (·.data)
  | none => d.data

/-- A stored unit: header in clear, body encrypted (R298–R300, R335). -/
def sealUnit (mode members key : Nat) (dataKey : List Byte) (tweak : Nat) (payload plain : List Byte) : List Byte :=
  let pad := (payload.length + 15) / 16 * 16 - payload.length
  let body := payload ++ zeros pad ++ toBytes 4 (crc32c plain) ++ toBytes 2 payload.length ++ zeros 10
  toBytes 1 (1 + 16 * mode) ++ toBytes 1 (members - 1) ++ toBytes 2 body.length ++ toBytes 4 key ++ toBytes 8 tweak ++
  Config.xtsEnc dataKey tweak body

/-- ENCRYPT_DONE (R298–R303, R335–R338): without its key, or with XTS_EN 0, the unit waits at stage 5. -/
def execEncryptDone (u : Nat) (s : State) : Res :=
  live s (
    match unitOf u s with
    | none => s
    | some d =>
      if d.stage != .encrypt || d.body.isEmpty || !running .cry s || !onF F.cryCtrlXtsEn s ||
          !(List.range 16).any (fun l => laneUsable .cry l s) then s
      else match dataKey d.key s with
        | none => s
        | some k =>
          let tweak := s.cmp.storeCtr % 2 ^ 63 + 2 ^ 63 * (s.pins.headSel % 2)
          let m := d.grp.elim 1 fun g => (grpUnits g s).length
          let bytes := sealUnit d.mode m d.key k tweak d.body (plainOf d s)
          let s := wakeLane .cry (List.range 16) s
          let s := count .cry 0x01 1 { s with cmp.storeCtr := (s.cmp.storeCtr + 1) % 2 ^ 63 }
          let s := { s with wb.units := modAll (fun e => e.id == u || (d.grp.isSome && e.grp == d.grp))
                             (fun e => { e with stage := .pack, body := if e.id == u then bytes else [] }) s.wb.units }
          packAll s)

/-! Clauses (R25–R27, R260, R261, R407, R408). -/

/-- The slot's clause is written: it is released once the peer has acknowledged the clause, or at once (R27, R408). -/
def releaseAfter (n cseq : Nat) (s : State) : State :=
  if peerIn s && decide (s.ftu.cack ≤ cseq) then { s with wb.relWait := s.wb.relWait ++ [(n, cseq)] } else releaseSlot n s

/-- A destaged unit has left the pipeline (R297). -/
def destaged (u code : Nat) (s : State) : State := dropUnit u (count .stg code 1 (count .stg 0x01 1 s))

/-- Append a fingerprint log record (R289). -/
def logAppend (fp : List Byte) (uaddr domain : Nat) (raw grp : Bool) (s : State) : State :=
  if fp.isEmpty then s
  else { s with fiu.log := { fp := fp, uaddr := uaddr, domain := domain, raw := raw, group16 := grp } :: s.fiu.log }

/-- A unique unit is stored: its FPT entry goes Live, the log gets its record (R260, R276, R289). -/
def goLive (d : DestUnit) (s : State) : State :=
  let dom := (nsOf d.nsid s).elim 0 (·.domain)
  let s := match d.own with
    | some i => modFpt i (fun e => { e with st := .live, uaddr := d.uaddr, raw := d.mode == 0, group16 := d.grp.isSome }) s
    | none => s
  logAppend d.fp d.uaddr dom (d.mode == 0) d.grp.isSome s

/-- The destaged copy is discarded (R26): no clause, no reference; a stored copy that duplicates name stays for them. -/
def discardUnit (d : DestUnit) (n : Nat) (s : State) : State :=
  let s := match d.dup with
    | some i =>
      let s := modFpt i (fun e => { e with pendref := e.pendref - 1 }) s
      match tget? s.fiu.fpt i with
      | some e => if e.st == .live && e.pendref == 0 then garbage e.uaddr s else s
      | none => s
    | none => match d.own with
      | some i => match tget? s.fiu.fpt i with
        | some e => if 0 < e.pendref then addLive d.uaddr (goLive d s) else fptDead i s
        | none => s
      | none => s
  releaseSlot n (dropUnit d.id s)

/-- The destaged copy is no longer the unit's version (R26). -/
def superseded (d : DestUnit) (n : Nat) (s : State) : Bool :=
  !((tget? s.wb.own n).any fun x => x.seq == d.seq && !x.replaced && x.st != .releasing)

/-- CLAUSE_APPLY (R26, R27, R260, R261, R284, R289, R407, R408). -/
def execClauseApply (u : Nat) (s : State) : Res :=
  live s (
    match unitOf u s with
    | none => s
    | some d => match d.src with
      | .gc _ _ => s
      | .slot n =>
        if d.stage != .clause || !running .ftu s || !onF F.ftuCtrlMapEn s then s
        else if !d.zero && d.dup.isNone && d.uaddr != 0 && !unitAccepted d.uaddr s then s
        else if (d.dup.bind fun i => tget? s.fiu.fpt i).any fun e => e.st == .pending then s
        else if superseded d n s then durCheck (discardUnit d n s)
        else if !jrnlRoom s then note .ftu E.ftuJrnlFull 0xFF s
        else if mcaLow s + 4096 < s.ftu.csnext then s
        else
          let c := s.ftu.csnext
          let s :=
            if d.zero then destaged u 0x03 (unmapRun d.nsid d.unit 1 d.seq s)
            else match d.dup with
              | some i => destaged u 0x02 (clause (mkClause cMapDup 0 d.nsid d.unit i d.seq) s)
              | none => dropUnit u (count .stg 0x01 1 (goLive d (clause (mkClause cMapSet 0 d.nsid d.unit d.uaddr d.seq) s)))
          durCheck (releaseAfter n c s))

/-! Presence filter (R256). -/

/-- Counters at 15. -/
def filterSat (s : State) : Nat := (s.wb.filter.filter fun p => p.2 == 15).length

/-- FILTER_REBUILD (R256). -/
def execFilterRebuild (s : State) : Res :=
  live s (if filterSat s ≤ 1024 then s
    else forEach (s.wb.own.filter fun p => indexed p.2.nsid p.2.unit p && readable p.2)
      (fun p t => filterAdd p.2.nsid p.2.unit t) { s with wb.filter := [] })

end Sys2Proof.Machine
end

