-- ==== Sys2Proof/Machine/Index.lean ====
section
/-! DEFINITION. The fingerprint index: decisions, tier 1 inserts and removals, scrub, banks, refill, background merges
(R263–R291, R294). -/

namespace Sys2Proof.Machine

/-! Coordinates (R265). -/

def fpByte (fp : List Byte) (i : Nat) : Nat := (fp.getD i 0).toNat
/-- Four bytes from `i`, the first the most significant. -/
def fpWord (fp : List Byte) (i : Nat) : Nat :=
  ((fpByte fp i * 256 + fpByte fp (i + 1)) * 256 + fpByte fp (i + 2)) * 256 + fpByte fp (i + 3)
def fpSeg (fp : List Byte) : Nat := fpByte fp 0 * 128 + fpByte fp 1 / 2
def fpTag (fp : List Byte) : Nat := fpWord fp 2
def fpBkt (fp : List Byte) (s : State) : Nat := fpWord fp 6 % 2 ^ getF F.fptCfgBktLog2 s

/-- A bank answers searches (R274). -/
def bankUp (b : Nat) (s : State) : Bool := bit (getF F.fiuBankStatReady s) b && laneReady .fiu b s

/-- A segment's entries, in SRAM and in the DRAM copy (R267, R268). -/
def segOf (k : Nat) (s : State) : List TagEntry := tget s.fiu.tier1 k []
def putSeg (k : Nat) (l : List TagEntry) (s : State) : State :=
  { s with fiu.tier1 := tput s.fiu.tier1 k l [], fiu.dcopy := tput s.fiu.dcopy k l [] }

/-- Tag matches in position order (R268). -/
def tagHits (fp : List Byte) (dom : Nat) (s : State) : List Nat :=
  if bankUp (fpSeg fp % 16) s then
    ((segOf (fpSeg fp) s).filter fun e => e.tag == fpTag fp && e.domain == dom).map (·.fptIdx)
  else []

/-- A verified match (R280). -/
def verified (fp : List Byte) (dom i : Nat) (s : State) : Bool :=
  (tget? s.fiu.fpt i).any fun e => !e.crcBad && (e.st == .pending || e.st == .live) && e.domain == dom && e.fp == fp

/-- An FPT entry whose CRC fails is freed with its tier 1 entry; duplicates that name it are stored as unique (R280). -/
def fptBad (i : Nat) (s : State) : State :=
  let us := modAll (fun d => d.dup == some i) (fun d => { d with dup := none, stage := .compress }) s.wb.units
  let us := modAll (fun d => d.own == some i) (fun d => { d with own := none }) us
  fptDead i { s with wb.units := us }

/-- The CRC of an FPT entry is checked (R280). -/
def crcCheck (i : Nat) (s : State) : State :=
  match tget? s.fiu.fpt i with
  | none => s
  | some e => if e.crcBad then fptBad i (raise .fiu E.fiuFptCrc 0xFF s) else s

/-- Deduplication of a domain is on (R264, R295). -/
def domOn (d : Nat) (s : State) : Bool := bankF F.fiuDomCfgDedupEn d 1 s = 1

/-- The unit's search is possible (R264, R281, R294). -/
def searchable (d : DestUnit) (dom : Nat) (s : State) : Bool :=
  running .fiu s && onF F.fiuCtrlSearchEn s && domOn dom s && !d.fp.isEmpty

/-- Heat of a verified match (R270). -/
def warm (h : Nat) : Nat := min 255 (h + 16)
def heatUp (i seg : Nat) (s : State) : State :=
  modFpt i (fun e => { e with heat := warm e.heat })
    (putSeg seg ((segOf seg s).map fun e => if e.fptIdx = i then { e with heat := warm e.heat } else e) s)

/-- The unit is a duplicate of entry `i` (R281). -/
def decideDup (u i dom : Nat) (s : State) : State :=
  let s := modFpt i (fun e => { e with pendref := e.pendref + 1 }) s
  let s := { s with fiu.hits := tset s.fiu.hits dom (min 0xFFFFFFFF (tget s.fiu.hits dom 0 + 1)) }
  modUnit u (fun d => { d with dup := some i, stage := .clause }) s

/-- Start a tier 1 insert; a fifth entry of equal TAG and DOMAIN is refused (R269). -/
def startInsert (i : Nat) (fp : List Byte) (dom : Nat) (s : State) : State :=
  let k := fpSeg fp
  let same := fun (e : TagEntry) => e.tag == fpTag fp && e.domain == dom
  let n := ((segOf k s).filter same).length + (s.fiu.ins.filter fun p => p.1 == k && same p.2).length
  if s.fiu.ins.any fun p => p.2.fptIdx == i then s
  else if 4 ≤ n then note .fiu E.fiuTagChain 0xFF s
  else { s with fiu.ins := s.fiu.ins ++ [(k, { tag := fpTag fp, domain := dom, fptIdx := i, heat := 128, age := 0 })] }

/-- The place of a new entry in a bucket: a Free one, else the Live one with the lowest HEAT that no tier 1 entry and no
pending duplicate names (R279). -/
def bucketPlace (bkt : Nat) (s : State) : Option Nat :=
  let idx := (List.range 4).map (bkt * 4 + ·)
  match idx.find? fun i => (tget? s.fiu.fpt i).isNone with
  | some i => some i
  | none =>
    let c := idx.filter fun i => (tget? s.fiu.fpt i).any fun e => e.st == .live && !e.indexed && e.pendref == 0 &&
      !(s.fiu.ins.any fun p => p.2.fptIdx == i)
    let h := fun (i : Nat) => (tget? s.fiu.fpt i).elim 0 (·.heat)
    c.foldl (fun (m : Option Nat) i => match m with
      | none => some i
      | some j => if h i < h j then some i else some j) none

/-- The unit is unique (R279, R281). -/
def decideUnique (u : Nat) (d : DestUnit) (dom : Nat) (entry : Bool) (s : State) : State :=
  let s := modUnit u (fun d => { d with stage := .compress }) s
  if !entry || !onF F.fiuCtrlInsertEn s then count .fiu 0x08 1 s
  else match bucketPlace (fpBkt d.fp s) s with
    | none => count .fiu 0x08 1 (note .fiu E.fiuBucketFull 0xFF s)
    | some i =>
      let e : FptEntry := { fp := d.fp, uaddr := 0, domain := dom, st := .pending, indexed := false, raw := false,
                            group16 := false, pendref := 0, heat := 128, seq := d.seq, crcBad := false }
      startInsert i d.fp dom (modUnit u (fun d => { d with own := some i }) { s with fiu.fpt := tset s.fiu.fpt i e })

/-- A stored unit's count is at its maximum (R287). -/
def countFull (i : Nat) (s : State) : Bool :=
  ((tget? s.fiu.fpt i).bind fun e => tget? s.fiu.sut e.uaddr).any fun r => 0xFFFFFFFF ≤ r.count

/-- Search both tiers and decide (R278, R280, R281). -/
def search (u : Nat) (d : DestUnit) (dom : Nat) (s : State) : State :=
  let s := count .fiu 0x01 1 s
  let hits := tagHits d.fp dom s
  let s := forEach hits crcCheck s
  match hits.find? fun i => verified d.fp dom i s with
  | some i =>
    let s := count .fiu 0x02 1 (count .fiu 0x03 (hits.takeWhile fun j => j != i).length s)
    if countFull i s then decideUnique u d dom false (note .fiu E.fiuCountSat 0xFF s)
    else decideDup u i dom (heatUp i (fpSeg d.fp) s)
  | none =>
    let s := count .fiu 0x04 1 (count .fiu 0x03 hits.length s)
    let bucket := (List.range 4).map (fpBkt d.fp s * 4 + ·)
    let s := forEach bucket crcCheck s
    match bucket.find? fun i => verified d.fp dom i s with
    | none => decideUnique u d dom true s
    | some i =>
      let s := count .fiu 0x05 1 s
      if countFull i s then decideUnique u d dom false (note .fiu E.fiuCountSat 0xFF s)
      else
        let s := decideDup u i dom s
        if (tget? s.fiu.fpt i).any fun e => !e.indexed then startInsert i d.fp dom s else s

/-- INDEX_DECISION (R24, R264, R278–R282, R294). -/
def execIndexDecision (u : Nat) (s : State) : Res :=
  live s (
    match unitOf u s with
    | none => s
    | some d =>
      if d.stage != .search then s
      else
        let s := match d.src with
          | .slot n => modSlot n (fun x => if x.st = .destaging then { x with st := .placed } else x) s
          | .gc _ _ => s
        let dom := (nsOf d.nsid s).elim 0 (·.domain)
        let s := if (domKey dom s).isNone then note .fiu E.fiuNoDomkey 0xFF s else s
        if searchable d dom s then search u d dom s else decideUnique u d dom false s)

/-! Tier 1 updates (R268–R272). -/

/-- Insert at the sorted place (R268). -/
def sortIn (e : TagEntry) : List TagEntry → List TagEntry
  | [] => [e]
  | x :: r => if e.tag < x.tag || (e.tag == x.tag && e.domain < x.domain) then e :: x :: r else x :: sortIn e r

/-- The entry that a full segment evicts: lowest HEAT, highest position among equals (R270). -/
def coldest (l : List TagEntry) : Option TagEntry :=
  l.foldl (fun (m : Option TagEntry) x => match m with
    | none => some x
    | some y => if x.heat ≤ y.heat then some x else some y) none

/-- TIER1_INSERT_DONE (R269, R270, R273): the DRAM copy is written through. -/
def execTier1InsertDone (fptIdx : Nat) (s : State) : Res :=
  live s (
    match s.fiu.ins.find? fun p => p.2.fptIdx == fptIdx with
    | none => s
    | some (k, e) =>
      if !bankUp (k % 16) s then s
      else
        let s := { s with fiu.ins := s.fiu.ins.filter fun p => p.2.fptIdx != fptIdx }
        if (tget? s.fiu.fpt fptIdx).isNone then s
        else
          let l := segOf k s
          let out := if 128 ≤ l.length then coldest l else none
          let s := match out with
            | some x => count .fiu 0x07 1 (modFpt x.fptIdx (fun e => { e with indexed := false }) s)
            | none => s
          let rest := match out with
            | some x => l.filter fun y => y.fptIdx != x.fptIdx
            | none => l
          count .fiu 0x06 1 (modFpt fptIdx (fun e => { e with indexed := true }) (putSeg k (sortIn e rest) s)))

/-- TIER1_REMOVAL_DONE (R271, R273, R285): a Dead entry is freed then. -/
def execTier1RemovalDone (fptIdx : Nat) (s : State) : Res :=
  live s (
    if !s.fiu.rem.contains fptIdx then s
    else
      let s := { s with fiu.rem := s.fiu.rem.filter (· != fptIdx) }
      match tget? s.fiu.fpt fptIdx with
      | none => s
      | some e =>
        let k := fpSeg e.fp
        let s := putSeg k ((segOf k s).filter fun x => x.fptIdx != fptIdx) s
        if e.st = .dead then { s with fiu.fpt := terase s.fiu.fpt fptIdx }
        else modFpt fptIdx (fun e => { e with indexed := false }) s)

/-! Scrub and banks (R270, R273, R274). -/

/-- HEAT is halved everywhere. -/
def coolAll (s : State) : State :=
  let f := fun (t : Tbl (List TagEntry)) => t.map fun p => (p.1, p.2.map fun e => { e with heat := e.heat / 2 })
  { s with fiu.tier1 := f s.fiu.tier1, fiu.dcopy := f s.fiu.dcopy, fiu.fpt := s.fiu.fpt.map fun p => (p.1, { p.2 with heat := p.2.heat / 2 }) }

/-- The scrubber goes on to the next segment; a pass ends after the last (R270, R273). -/
def scrubNext (s : State) : State :=
  if s.fiu.scrubSeg + 1 < 32768 then { s with fiu.scrubSeg := s.fiu.scrubSeg + 1 }
  else
    let s := incF F.fiuScrubStatPasses { s with fiu.scrubSeg := 0 }
    if getF F.fiuScrubStatPasses s % getF F.fiuScrubAgePasses s = 0 then coolAll s else s

/-- SCRUB_SEGMENT (R273). -/
def execScrubSegment (seg : Nat) (sramBad dramBad : Bool) (s : State) : Res :=
  live s (
    let busy := s.fiu.ins.any (fun p => p.1 == seg) || s.fiu.rem.any fun i => (tget? s.fiu.fpt i).any fun e => fpSeg e.fp == seg
    if !running .fiu s || !onF F.fiuScrubScrubEn s || seg != s.fiu.scrubSeg || busy then s
    else
      let b := seg % 16
      if !bankUp b s then scrubNext s
      else if sramBad then raise .fiu E.fiuBankParity b (scrubNext s)
      else if dramBad then raise .fiu E.fiuDcopyFix 0xFF (scrubNext { s with fiu.dcopy := tput s.fiu.dcopy seg (segOf seg s) [] })
      else
        let d := tget s.fiu.dcopy seg []
        let l := segOf seg s
        if l == d then scrubNext s
        else
          let n := max (l.filter fun e => !d.contains e).length (d.filter fun e => !l.contains e).length
          raise .fiu E.fiuScrubFix 0xFF (incSatF F.fiuScrubStatFixed n (scrubNext { s with fiu.tier1 := tput s.fiu.tier1 seg d [] })))

/-- BANK_RELOAD_DONE (R274). -/
def execBankReloadDone (bank : Nat) (s : State) : Res :=
  live s (
    if !bit (getF F.fiuBankStatLoading s) bank || 16 ≤ bank || !laneReady .fiu bank s then s
    else
      let mine := fun (p : Nat × List TagEntry) => p.1 % 16 == bank
      let s := { s with fiu.tier1 := tmerge (s.fiu.tier1.filter fun p => !mine p) (s.fiu.dcopy.filter mine) }
      let s := setF F.fiuBankStatLoading (bclr (getF F.fiuBankStatLoading s) bank) s
      setInt .fiu I.fiuBankReady (setF F.fiuBankStatReady (bset (getF F.fiuBankStatReady s) bank) s))

/-- A bank goes off: its SRAM is invalid and its searches go to tier 2 (R274). -/
def bankOff (b : Nat) (s : State) : State :=
  setF F.fiuBankStatLoading (bclr (getF F.fiuBankStatLoading (bankReset b s)) b) (bankReset b s)

/-- BANK_POWER (R274, R295): a write of FIU_BANK_EN. -/
def execBankPower (mask : Nat) (s : State) : Res :=
  live s (regWrite .fiu (fun s =>
    let old := getF F.fiuBankEnBankOn s
    let s := setF F.fiuBankEnBankOn mask s
    forEach (List.range 16) (fun b t =>
      if bit mask b && !bit old b then bankReset b t else if !bit mask b && bit old b then bankOff b t else t) s) s)

/-! Refill and merges (R290, R291). -/

/-- Refill from one log record: a live unit's entry goes into its bucket and its segment while there is room (R291).
[DEDUCED: log entry 114] -/
def refillOne (r : LogRec) (s : State) : State :=
  if !liveUnit r.uaddr s || (fptOf r.uaddr s).isSome then s
  else
    let bucket := (List.range 4).map (fpBkt r.fp s * 4 + ·)
    if bucket.any fun i => verified r.fp r.domain i s then s
    else match bucket.find? fun i => (tget? s.fiu.fpt i).isNone with
      | none => s
      | some i =>
        let k := fpSeg r.fp
        let l := segOf k s
        let room := bankUp (k % 16) s && decide (l.length < 128) &&
          decide ((l.filter fun e => e.tag == fpTag r.fp && e.domain == r.domain).length < 4)
        let e : FptEntry := { fp := r.fp, uaddr := r.uaddr, domain := r.domain, st := .live, indexed := room, raw := r.raw,
                              group16 := r.group16, pendref := 0, heat := 128, seq := 0, crcBad := false }
        let s := { s with fiu.fpt := tset s.fiu.fpt i e }
        if room then putSeg k (sortIn { tag := fpTag r.fp, domain := r.domain, fptIdx := i, heat := 128, age := 0 } l) s else s

/-- FPT_REFILL (R291): newest records first; then the refill has ended. [DEDUCED: log entries 101, 114] -/
def execFptRefill (s : State) : Res :=
  live s (
    if s.fiu.refill.isNone || !running .fiu s then s
    else
      let s := forEach s.fiu.log refillOne s
      setInt .fiu I.fiuRefillDone (setF F.fptRefillActive 0 { s with fiu.refill := none }))

/-- An Ephemeris window is open: 0 collection, 1 patrol, 2 dedup (R515, R520). -/
def winOpen (k : Nat) (s : State) : Bool := s.eph.open_.any fun w => w.1 == k

/-- The domain and fingerprint that the log holds for a live unit (R289). -/
def logOf (u : Nat) (s : State) : Option (Nat × List Byte) := (s.fiu.log.find? fun r => r.uaddr == u).map fun r => (r.domain, r.fp)

/-- BGD_MERGE (R290): the unit is merged into `keep`, an equal live unit. -/
def execBgdMerge (nsid unit keep : Nat) (s : State) : Res :=
  live s (
    let old := mapGet 0 nsid unit s
    if !running .fiu s || !bgOk s || !onF F.fiuCtrlBgdEn s || !winOpen 2 s || uBand old = 0 || old = keep || !jrnlRoom s ||
        (tget? s.fiu.sut old).isSome || backOf old s != some (nsid, unit) || !liveUnit keep s ||
        (logOf old s).isNone || logOf old s != logOf keep s then s
    else
      let t := clause (mkClause cMerge 0 nsid unit old keep) s
      if mapGet 0 nsid unit t = keep then count .fiu 0x09 1 t else t)

end Sys2Proof.Machine
end

