-- ==== Sys2Proof/Machine/Reads.lean ====
section
/-! DEFINITION. The read path behind the map: LDC decoding and the retry ladder, decryption, expansion, reconstruction, and
where a collected unit goes on (R30, R298–R313, R326–R338, R426, R442, R450–R452, R499–R502). -/

namespace Sys2Proof.Machine

/-! Collected units (R304, R426). -/

/-- A read of the collection of this band. -/
def gcOf (n : Nat) (s : State) : Option Gc := s.ftu.gcs.find? fun g => g.band == n

/-- Member addresses of a stored unit that its collection still has to move. -/
def gcMembers (band base : Nat) (s : State) : List Nat :=
  ((gcOf band s).elim [] fun g => g.units).filter fun u => uBase u == uBase base && liveUnit u s

/-- Put the members of a collected stored unit into the pipeline. -/
def gcUnits (band base : Nat) (reenc : Bool) (st : Stage) (key : Nat) (data : Nat → List Byte) (body : List Byte) (s : State) : State :=
  let ms := gcMembers band base s
  let g := if !reenc && 1 < ms.length then some s.cmp.nextG else none
  let s := if g.isSome then { s with cmp.nextG := s.cmp.nextG + 1 } else s
  let b := tget? s.ftu.back (uBase base)
  forEach ms (fun u t =>
    let n := (backOf u t).getD (0, 0)
    let cls := (nsOf n.1 t).elim ((bandOf band t).elim 0 (·.cls)) (·.layout)
    let sq : Nat := match b with
      | some x => x.seq
      | none => 0
    let gn : Nat := match b with
      | some x => x.gen
      | none => 0
    let d : DestUnit :=
      { id := t.wb.nextU, src := .gc u reenc, nsid := n.1, unit := n.2, seq := sq, stage := st, data := data (uMember u),
        zero := false, fp := [], dup := none, own := none, grp := g, mode := 0, body := body, key := key, gen := gn,
        uaddr := 0, mem := if reenc then 0 else uMember u, cls := cls, durable := false }
    count .ftu (if reenc then 0x08 else 0x07) 1 { t with wb.units := t.wb.units ++ [d], wb.nextU := t.wb.nextU + 1 }) s

/-- Copy a collected unit: its stored bytes go unchanged into the collection band. Bytes that came from a module are a
free value here: the module returns what was programmed (R304). [DESIGN CHOICE: log entry 10] -/
def gcCopy (x : UnitRead) (band : Nat) (bytes : List Byte) (s : State) : State :=
  let d : List Byte × State := if bytes.isEmpty then drawBytes (uLen x.uaddr * 16) s else (bytes, s)
  packAll (gcUnits band x.uaddr false .pack 0 (fun _ => []) d.1 (dropURead x.id d.2))

/-- A collected unit is re-encoded when its attribute generation is not its namespace's (R426). -/
def mustReencode (u : Nat) (s : State) : Bool :=
  (tget? s.ftu.back (uBase u)).any fun b => (nsOf b.nsid s).any fun x => x.attrGen != b.gen

/-- The stored bytes of a unit are there: a collected one may be copied; any other goes to CRY (R30, R426). Empty bytes are
those that DECRYPT_DONE brings. -/
def unitRaw (r : Nat) (bytes : List Byte) (s : State) : State :=
  match uRead r s with
  | none => s
  | some x =>
    let go := modURead r (fun y => { y with stage := .decrypt, body := bytes, cws := [] }) s
    match x.for_ with
    | .gc band => if mustReencode x.uaddr s then go else gcCopy x band bytes s
    | _ => go

/-- Commands of a read that are outstanding or wait to be sent, but for positions taken around. -/
def readBusy (x : UnitRead) (s : State) : Bool :=
  (s.mods.cmds ++ s.mods.waiting).any fun c => match c.for_ with
    | .read r pos => r == x.id && !x.gone.contains pos
    | _ => false

/-- A read whose every codeword has been decoded goes on (R30). -/
def readAdvance (r : Nat) (s : State) : State :=
  match uRead r s with
  | none => s
  | some x => if x.stage == .module_ && x.gone.isEmpty && x.tries.isEmpty && x.cws.isEmpty && !readBusy x s then unitRaw r [] s else s

/-- A position of a read is unreadable (R450). -/
def readGone (r pos : Nat) (late : Bool) (s : State) : State :=
  modURead r (fun y => { y with gone := if y.gone.contains pos then y.gone else y.gone ++ [pos],
                                late := if late then y.late ++ [pos] else y.late.filter (· != pos) }) s

/-- A position taken around delivered after all (R451). -/
def readBack (r pos : Nat) (s : State) : State :=
  modURead r (fun y => if y.late.contains pos then { y with gone := y.gone.filter (· != pos), late := y.late.filter (· != pos) } else y) s

/-! Rejected units (R329, R450). -/

/-- The sets of a unit's own positions that may be tried as the wrong ones: each alone, then each pair (R450). -/
def trySets (own gone : List Nat) (p : Nat) : List (List Nat) :=
  let l := own.filter fun d => !gone.contains d
  ((l.map fun d => [d]) ++ (if 1 < l.length then l.flatMap fun a => (l.filter fun b => a < b).map fun b => [a, b] else [])).filter
    fun t => t.length + gone.length ≤ p

/-- Cause of a loss that a read finds: 1 in a rebuild, else 2 (R462). -/
def lossCause (x : UnitRead) (s : State) : Nat := match x.for_ with
  | .gc band => if (gcOf band s).any (·.rebuild) then 1 else 2
  | _ => 2

/-- The check of R329 rejects a unit: the next set is tried, or the unit is unrecoverable (R450). -/
def readReject (x : UnitRead) (s : State) : State :=
  match bandOf (uBand x.uaddr) s with
  | none => readFail x s
  | some b =>
    let own := (uParts b x.uaddr).map (·.1)
    let t := if x.tries.isEmpty then (if x.gone.isEmpty || 1 < own.length then trySets own x.gone b.p else []) else x.tries.drop 1
    if t.isEmpty || !onF F.parCtrlParityEn s then readLost x (lossCause x s) s
    else modURead x.id (fun y => { y with stage := .module_, body := [], tries := t }) s

/-! Decryption and expansion (R298–R301, R313, R328, R329, R335–R338). -/

/-- MODE, MEMBERS and KEY_HANDLE of a header (R299). -/
def hdMode (b : List Byte) : Nat := (b.getD 0 0).toNat / 16
def hdMembers (b : List Byte) : Nat := (b.getD 1 0).toNat % 4 + 1
def hdKey (b : List Byte) : Nat := ofBytes ((b.drop 4).take 4)
def hdBody (b : List Byte) : Nat := ofBytes ((b.drop 2).take 2)
def hdTweak (b : List Byte) : Nat := ofBytes ((b.drop 8).take 8)

/-- The checks of a header (R329, first check). -/
def headerOk (b : List Byte) : Bool :=
  (b.getD 0 0).toNat % 16 == 1 && decide (hdMode b ≤ 2) && (hdMode b != 0 || hdMembers b == 1) && 16 + hdBody b == b.length

/-- A plaintext is there: the unit's 4,096 bytes are delivered, or a collected unit is re-encoded under its own key (R30,
R313, R426). -/
def readPlain (x : UnitRead) (plain : List Byte) (s : State) : State :=
  match x.for_ with
  | .gc band => gcUnits band x.uaddr true .compress (hdKey x.body) (fun k => (plain.drop (4096 * k)).take 4096) [] (dropURead x.id s)
  | _ => readDeliver x ((plain.drop (4096 * uMember x.uaddr)).take 4096) s

/-- Trailer fields of a decrypted stored unit. -/
def trailer (b : List Byte) : List Byte := b.drop (b.length - 16)
def plainCrc (b : List Byte) : Nat := ofBytes ((trailer b).take 4)
def payloadLen (b : List Byte) : Nat := ofBytes (((trailer b).drop 4).take 2)
def payloadOf (b : List Byte) : List Byte := (b.drop 16).take (payloadLen b)

/-- DECRYPT_DONE (R30, R329, R335–R338): `stored` is what the modules returned, unless PAR has reconstructed it. -/
def execDecryptDone (r : Nat) (stored : List Byte) (s : State) : Res :=
  live s (
    match uRead r s with
    | none => s
    | some x =>
      let b := if x.body.isEmpty then stored else x.body
      if x.stage != .decrypt || !running .cry s || !onF F.cryCtrlXtsEn s || !(List.range 16).any (fun l => laneUsable .cry l s) ||
          b.length != uLen x.uaddr * 16 then s
      else if !headerOk b then readReject x (note .cmp E.cmpUnitFormat 0xFF s)
      else match dataKey (hdKey b) s with
        | none =>
          let s := note .cry E.cryKeyMissing 0xFF s
          match x.for_ with
          | .gc band => gcCopy x band b s
          | _ => readFail x s
        | some k =>
          let s := count .cry 0x02 1 (wakeLane .cry (List.range 16) s)
          let d := b.take 16 ++ Config.xtsDec k (hdTweak b) (b.drop 16)
          let n := payloadLen d
          if !allZero ((trailer d).drop 6) then readReject x (note .cry E.cryKeyCheck 0xFF s)
          else if hdBody b < n + 16 then readReject x (note .cmp E.cmpUnitFormat 0xFF s)
          else if !allZero ((d.drop (16 + n)).take (hdBody b - 16 - n)) then readReject x (note .cry E.cryKeyCheck 0xFF s)
          else if hdMode b = 0 then
            if n != 4096 then readReject x (note .cmp E.cmpUnitFormat 0xFF s)
            else if crc32c (payloadOf d) != plainCrc d then readReject x (note .cmp E.cmpCrcMismatch 0xFF s)
            else readPlain { x with body := d } (payloadOf d) s
          else modURead r (fun y => { y with stage := .expand, body := d }) s)

/-- EXPAND_DONE (R313, R327–R329). -/
def execExpandDone (r : Nat) (s : State) : Res :=
  live s (
    match uRead r s with
    | none => s
    | some x =>
      if x.stage != .expand || !running .cmp s || !onF F.cmpCtrlExpEn s || !(List.range 32).any (fun l => laneUsable .cmp (0x80 + l) s) then s
      else
        let s := count .cmp 0x06 1 (wakeLane .cmp ((List.range 32).map (0x80 + ·)) s)
        match expand (hdMode x.body) (hdMembers x.body * 4096) (payloadOf x.body) with
        | .streamErr => readReject x (note .cmp E.cmpStreamErr 0xFF s)
        | .overrun => readReject x (note .cmp E.cmpExpandOverrun 0xFF s)
        | .short => readReject x (note .cmp E.cmpExpandShort 0xFF s)
        | .ok out =>
          if crc32c out != plainCrc x.body then readReject x (note .cmp E.cmpCrcMismatch 0xFF s) else readPlain x out s)

/-! Reconstruction (R442, R450–R452). -/

/-- The byte range of each chunk that a reconstruction of a unit takes: its own part, or the whole chunk when it lies in
more than one. -/
def reconRange (b : Band) (u : Nat) : Nat × Nat := match uParts b u with
  | [(_, a, e)] => (a, e)
  | _ => (0, chunkLen)

/-- Put the parts of a stored unit together from chunk ranges by data position. -/
def joinParts (b : Band) (u : Nat) (chunks : List (Nat × List Byte)) : List Byte :=
  (uParts b u).flatMap fun p =>
    let c := (chunks.find? fun q => q.1 == p.1).elim [] (·.2)
    (c.drop (p.2.1 - (reconRange b u).1)).take (p.2.2 - p.2.1)

/-- RECONSTRUCT_DONE (R442, R450–R452, R459, R460): `others` are the ranges of the data chunks read, by data position; `pq`
those of P and of Q, empty where unreadable. -/
def execReconstructDone (r : Nat) (others : List (Nat × List Byte)) (pq : List (List Byte)) (s : State) : Res :=
  live s (
    match uRead r s with
    | none => s
    | some x => match bandOf (uBand x.uaddr) s with
      | none => s
      | some b =>
        if x.stage != .module_ || (x.gone.isEmpty && x.tries.isEmpty) || !running .par s || !onF F.parCtrlParityEn s then s
        else
          let rg := reconRange b x.uaddr
          let good := fun (c : List Byte) => c.length == rg.2 - rg.1
          let bad0 := x.gone ++ (x.tries.head?.getD [])
          let have_ := others.filter fun o => decide (o.1 < b.d) && !bad0.contains o.1 && good o.2
          let bad := (List.range b.d).filter fun d => !have_.any fun o => o.1 == d
          let p := (pq.getD 0 []) |> fun c => if good c then c else []
          let q := (pq.getD 1 []) |> fun c => if b.p = 2 && good c then c else []
          match solve bad have_ p q with
          | some sol =>
            let s := count .par 0x04 1 (raise .par E.parReconOk 0xFF s)
            unitRaw r (joinParts b x.uaddr (have_ ++ sol)) s
          | none =>
            if !x.late.isEmpty then s
            else if 1 < x.tries.length then modURead r (fun y => { y with tries := y.tries.drop 1 }) s
            else readLost x (lossCause x s) s)

/-! LDC (R432, R501, R502). -/

/-- The band that holds an erase block, and the position and stripe of a program unit of it. -/
def bandAt (m blk : Nat) (s : State) : Option Band :=
  s.ftu.bands.find? fun b => b.members.any fun x => x.1 == m && x.2.contains blk

/-- Data position of a program unit in its stripe. -/
def posAt (b : Band) (m blk pu : Nat) (s : State) : Option Nat :=
  match b.members.find? fun x => x.1 == m with
  | none => none
  | some x =>
    let n := (x.2.idxOf blk) * pus m s + pu
    (List.range b.d).find? fun d => chunkAt b n (dataPos b n d) s == some (m, blk, pu)

/-- The threshold of corrected bits (R432, R497). -/
def relocThr (m : Nat) (s : State) : Nat :=
  let t := getF F.ftuRelocRelocateThreshold s
  if t = 0 then (recOf m s).elim 4095 (·.relocThr) else t

/-- FTU takes a corrected-bit count, or an uncorrectable codeword (R432). -/
def cbitsReport (m blk bits : Nat) (uncorr : Bool) (s : State) : State :=
  match bandAt m blk s with
  | none => s
  | some b =>
    let s := modBand b.no (fun b => { b with cbits := max b.cbits bits }) s
    if uncorr then relocPush b.no true s else if relocThr m s ≤ bits then relocPush b.no false s else s

/-- CODEWORD_DECODE (R432, R450, R501): the status after the whole ladder. -/
def execCodewordDecode (lane m block pu cw status bits : Nat) (s : State) : Res :=
  live s (
    if !running .ldc s || !onF F.ldcCtrlDecEn s || !laneUsable .ldc lane s || 7 < status then s
    else
      let s := count .ldc (status + 1) 1 (wakeLane .ldc [lane] s)
      let s := match status with
        | 2 => raise .ldc E.ldcRetryOk lane s
        | 3 => raise .ldc E.ldcSoftOk lane s
        | 4 => note .ldc E.ldcUncorr lane s
        | 6 => note .ldc E.ldcTagMismatch lane s
        | 7 => note .ldc E.ldcCrcFail lane s
        | _ => s
      let s := if 1 ≤ status && status ≤ 3 then cbitsReport m block bits false s
        else if status = 4 then cbitsReport m block 0 true s else s
      let w := (m, block, pu, cw)
      forEach (s.wb.reads.filter fun x => x.cws.contains w) (fun x t =>
        let t := modURead x.id (fun y => { y with cws := y.cws.filter fun c => c != w }) t
        let pos := (bandOf (uBand x.uaddr) t).bind fun b => posAt b m block pu t
        let t := match pos with
          | none => t
          | some d => if 4 ≤ status then readGone x.id d false t else readBack x.id d t
        readAdvance x.id t) s)

/-- Last step of the ladder of a module (R502). -/
def retryMax (m : Nat) (s : State) : Nat :=
  let n := getF F.ldcCfgRetryMax s
  let r := (recOf m s).elim 0 (·.retrySteps)
  if n = 0 then r else min n r

/-- READ_RETRY (R502): reads with retry sets in turn, then one READ_SOFT as step RETRY_MAX + 1; with EARLY_RECON a host
read's reconstruction runs beside the ladder from its first failure. -/
def execReadRetry (m block pu cw step : Nat) (s : State) : Res :=
  live s (
    let w := (m, block, pu, cw)
    match s.wb.reads.find? fun x => x.cws.contains w with
    | none => s
    | some x =>
      let soft := step = retryMax m s + 1 && onF F.ldcCfgSoftEn s && (recOf m s).any (·.softRead)
      if !running .ldc s || step = 0 || !(decide (step ≤ retryMax m s) || soft) || !reachable m s then s
      else match (bandOf (uBand x.uaddr) s).bind fun b => posAt b m block pu s with
        | none => s
        | some d =>
          let host := match x.for_ with
            | .host _ => true
            | _ => false
          let s := if host && onF F.ldcCfgEarlyRecon s && step = 1 then readGone x.id d true s else s
          ymSend { ymCmd m (if soft then 2 else 1) block pu cw 1 (.read x.id d) with retry := if soft then 0 else step } s)

/-! Bulk jobs (R330–R334). -/

/-- One segment (R330): header, payload, CRC; raw when the encoded form is longer than its input. -/
def segment (mode level : Nat) (data : List Byte) : List Byte :=
  let lex := if mode = 1 || mode = 3 then lexOf level data else none
  let pred := if mode = 2 || mode = 3 then some (predEncode data) else none
  let pick : Nat × List Byte := match lex, pred with
    | some l, some p => if p.length ≤ l.length then (2, p) else (1, l)
    | some l, none => (1, l)
    | none, some p => (2, p)
    | none, none => (0, data)
  let e := if data.length < pick.2.length then (0, data) else pick
  toBytes 2 e.1 ++ toBytes 2 data.length ++ toBytes 4 e.2.length ++ e.2 ++ toBytes 4 (crc32c data)

/-- Encode segments while they fit: input bytes done, the output, and the room left in the chain (R332). -/
def bulkRun (mode level : Nat) : Nat → List Byte → Nat → Nat → List Byte → Nat × List Byte × Nat
  | 0, _, room, done, out => (done, out, room)
  | n + 1, data, room, done, out =>
    if data.isEmpty then (done, out, room)
    else
      let g := segment mode level (data.take 4096)
      if room < g.length then (done, out, room)
      else bulkRun mode level n (data.drop 4096) (room - g.length) (done + min 4096 data.length) (out ++ g)

/-- Work of the road comes before a bulk job (R334). -/
def bulkOk (s : State) : Bool :=
  running .cmp s && getF F.cmpBulkCfgMaxLanes s != 0 &&
  s.wb.units.all (fun d => d.stage != .compress) && s.wb.reads.all fun x => x.stage != .expand

/-- BULK_COMPRESS_JOB (R330–R332, R334): status 1 is CHAIN_EXHAUSTED. -/
def execBulkCompressJob (job : BulkJob) (s : State) : Res :=
  live s (
    if !bulkOk s || 2 ^ 20 < job.input.length || 256 < job.chain.length then s
    else
      let r := bulkRun job.mode job.level ((job.input.length + 4095) / 4096) job.input job.chain.sum 0 []
      let s := count .cmp 0x07 ((r.1 + 4095) / 4096) s
      if r.1 = job.input.length && 8 ≤ r.2.2 then
        emit (.bulkRecord job.id 0 r.1 (r.2.1.length + 8)) (emit (.bulkData job.id (r.2.1 ++ zeros 8)) s)
      else emit (.bulkRecord job.id 1 r.1 r.2.1.length) (emit (.bulkData job.id r.2.1) (note .cmp E.cmpChainExhausted 0xFF s)))

/-- Expand segments: status of the record (0 done, 2 stream error, 3 overrun, 4 short, 5 CRC), output, input bytes and
segments done (R328, R333). -/
def bulkExpand (limit : Nat) : Nat → List Byte → List Byte → Nat → Nat → Nat × List Byte × Nat × Nat
  | 0, _, out, i, n => (2, out, i, n)
  | f + 1, l, out, i, n =>
    let inLen := ofBytes ((l.drop 2).take 2)
    let outLen := ofBytes ((l.drop 4).take 2)
    if l.length < 8 then (2, out, i, n)
    else if inLen = 0 then (0, out, i + 8, n)
    else if limit < out.length + inLen then (3, out, i, n)
    else if l.length < 12 + outLen || 2 < (l.getD 0 0).toNat then (2, out, i, n)
    else match expand (l.getD 0 0).toNat inLen ((l.drop 8).take outLen) with
      | .streamErr => (2, out, i, n)
      | .overrun => (3, out, i, n)
      | .short => (4, out, i, n)
      | .ok d =>
        if d.length != inLen then (2, out, i, n)
        else if crc32c d != ofBytes ((l.drop (8 + outLen)).take 4) then (5, out, i, n)
        else bulkExpand limit f (l.drop (12 + outLen)) (out ++ d) (i + 12 + outLen) (n + 1)

/-- BULK_EXPAND_JOB (R327, R328, R333, R334). -/
def execBulkExpandJob (job : BulkJob) (s : State) : Res :=
  live s (
    if !bulkOk s || !onF F.cmpCtrlExpEn s then s
    else
      let r := bulkExpand job.limit (job.input.length + 1) job.input [] 0 0
      let s := count .cmp 0x07 r.2.2.2 s
      let s := match r.1 with
        | 2 => note .cmp E.cmpStreamErr 0xFF s
        | 3 => note .cmp E.cmpExpandOverrun 0xFF s
        | 4 => note .cmp E.cmpExpandShort 0xFF s
        | 5 => note .cmp E.cmpCrcMismatch 0xFF s
        | _ => s
      emit (.bulkRecord job.id r.1 r.2.2.1 r.2.1.length) (emit (.bulkData job.id r.2.1) s))

end Sys2Proof.Machine
end

