-- ==== Sys2Proof/Machine/Keys.lean ====
section
/-! DEFINITION. Key slots: loading, purging and restoring keys (R339–R350). -/

namespace Sys2Proof.Machine

def stSlotBusy : Nat := 0x0100
def stWrapMissing : Nat := 0x0101
def stKeyWeak : Nat := 0x0102
def stKeyInUse : Nat := 0x0103
def stHandleStale : Nat := 0x0104
def stDevkeyFault : Nat := 0x0105

/-- The head runs without a peer (R343, R580). [DEDUCED: log entry 39] -/
def runsAlone (s : State) : Bool := s.pair.role == .alone

/-- The KEY_LOAD body holds legal values (R345). -/
def keyBodyOk (b : KeyLoadBody) : Bool :=
  match b.kind with
  | 0 => decide (b.slot < 16384 ∧ b.wrapSlot < 16) && b.wrappedLen == 72
  | 1 => decide (b.slot < 16384 ∧ b.wrapSlot < 16) && b.wrappedLen == 40
  | 2 => decide (b.slot < 16) && b.wrapSlot == 0 && b.wrappedLen == 40
  | _ => false

/-- The key under which the body's key is wrapped: the transport key, or the wrap key of WRAP_SLOT (R345, R346).
[DESIGN CHOICE: log entry 47] -/
def wrapKeyOf (b : KeyLoadBody) (s : State) : Option (List Byte) :=
  if b.kind = 2 then Config.ecdhKdf b.ephPub s.bld.dsn
  else (keySlot 2 b.wrapSlot s).bind fun k => if k.st = .loaded then some k.key else none

/-- A data key whose two halves are equal (R347). -/
def weakKey (b : KeyLoadBody) (k : List Byte) : Bool := b.kind == 0 && k.take 32 == k.drop 32

/-- This head's own check of a KEY_LOAD: the status, or the unwrapped key (R343, R344, R347).
[DESIGN CHOICE: log entry 47] -/
def keyCheck (b : KeyLoadBody) (s : State) : Nat × List Byte :=
  if (keySlot b.kind b.slot s).isSome then (stSlotBusy, [])
  else if b.kind = 2 && getF F.secStatDevkeyOk s = 0 then (stDevkeyFault, [])
  else match wrapKeyOf b s with
    | none => (if b.kind = 2 then stAuthFailed else stWrapMissing, [])
    | some w => match Config.kwUnwrap w b.wrapped with
      | none => (stAuthFailed, [])
      | some k => if weakKey b k then (stKeyWeak, []) else (stSuccess, k)

/-- The generation after one more load: 1 to 65,535, then 1 again (R340). -/
def nextGen (g : Nat) : Nat := if g = 65535 then 1 else g + 1

/-- Store a key: the slot is Loaded under its next handle (R340–R342). -/
def keyStore (b : KeyLoadBody) (k : List Byte) (s : State) : State :=
  let g := nextGen (keyGen b.kind b.slot s)
  let x : KeySlot := { st := .loaded, keyId := b.keyId, key := k, stored := if b.kind = 2 then none else some (b.wrapped, b.wrapSlot) }
  setKeyTbl b.kind (tset (keyTbl b.kind s) b.slot x) { s with cry.gens := tset s.cry.gens (65536 * b.kind + b.slot) g }

/-- KEY_LOAD (R338–R347): `peerStatus` is the status of the peer's own check.
[DESIGN CHOICE: log entry 47; DEDUCED: log entry 48] -/
def execKeyLoad (q tag : Nat) (body : KeyLoadBody) (peerStatus : Nat) (s : State) : Res :=
  live s (mgmtRun q tag 0x0040 (fun s =>
    let b := body
    checks q tag
      [(!keyBodyOk b, stInvalidField), (b.kind != 2 && planeDown .reduction s, stDegraded),
       (b.kind != 2 && !runsAlone s && !troysUp s, stDegraded)]
      (fun s =>
        let s := if b.kind = 2 then count .sec 0x04 1 s else s
        let s := if b.kind != 2 && !runsAlone s then sendTroys (.keyLoad b.kind b.slot) s else s
        let c := keyCheck b s
        let s := if c.1 = stAuthFailed then note .cry E.cryUnwrapFail 0xFF s
          else if c.1 = stKeyWeak then note .cry E.cryKeyWeak 0xFF s else s
        if c.1 != stSuccess then mgmtPost q tag c.1 0 s
        else if b.kind != 2 && !runsAlone s && peerStatus != stSuccess then mgmtPost q tag peerStatus 0 s
        else
          let s := keyStore b c.2 s
          mgmtPost q tag stSuccess (handleOf b.kind b.slot (keyGen b.kind b.slot s)) s) s) s)

/-- A namespace names the data key (R348). -/
def keyUsers (h : Nat) (s : State) : Nat := (s.hqe.ns.filter fun x => x.key == h || x.nextKey == h).length

/-- Waiting and Open contexts that hold a copy of a purged dedup key are cleared (R370). -/
def ctxPurge (slot : Nat) (s : State) : State :=
  forEach ((s.dge.ctx.filter fun c => c.2.keySrc == 1 && c.2.keySlot == slot && c.2.keyCopy.isSome && c.2.st != .active).map (·.1))
    (fun n t => match (ctxOf n t).bind (·.job) with
      | some d => dgeRec (((ctxOf n t).elim 1 (·.owner)) - 1) d n 5 0 0 (note .dge E.dgeKeyAbsent 0xFF (ctxDrop n 0 t))
      | none => ctxDrop n 5 t) s

/-- KEY_PURGE (R343, R348–R350, R370). [DEDUCED: log entry 48] -/
def execKeyPurge (q tag handle : Nat) (s : State) : Res :=
  live s (mgmtRun q tag 0x0041 (fun s =>
    let kind := hKind handle
    let slot := hSlot handle
    let stale := kind == 3 || handle == 0 || (kind == 2 && decide (16 ≤ slot)) || keyGen kind slot s != hGen handle
    checks q tag
      [(kind < 2 && planeDown .reduction s, stDegraded), (kind < 2 && !runsAlone s && !troysUp s, stDegraded), (stale, stHandleStale)]
      (fun s =>
        match keySlot kind slot s with
        | none => mgmtPost q tag stSuccess 0 s
        | some k =>
          if k.st = .purging then startPurge kind slot (some (q, tag)) none s
          else if kind = 0 && 0 < keyUsers handle s then mgmtPost q tag stKeyInUse 0 s
          else
            let s := if kind < 2 && !runsAlone s then sendTroys (.keyPurge kind slot) s else s
            let s := startPurge kind slot (some (q, tag)) none s
            if kind = 1 then ctxPurge slot s else s) s) s)

/-- PURGE_DRAINED (R349, R370): no lane still uses the key. -/
def execPurgeDrained (kind slot : Nat) (s : State) : Res :=
  live s (
    let mine := fun (p : Purge) => p.kind == kind && p.slot == slot
    let busy := kind == 1 && s.dge.ctx.any fun c => c.2.st == .active && c.2.keySrc == 1 && c.2.keySlot == slot && c.2.keyCopy.isSome
    if busy || !(keySlot kind slot s).any fun k => k.st == .purging then s
    else
      let done := (s.cry.purges.filter mine).filterMap (·.mgmt)
      let s := setKeyTbl kind (terase (keyTbl kind s) slot) { s with cry.purges := s.cry.purges.filter fun p => !mine p }
      forEach done (fun p t => mgmtPost p.1 p.2 stSuccess 0 t) (setInt .cry I.cryPurgeDone s))

/-- Unwrap the stored copy of a slot, when its wrap key is loaded (R341, R342). -/
def restoreSlot (kind slot : Nat) (s : State) : State :=
  match keySlot kind slot s with
  | none => s
  | some k => match k.stored with
    | none => s
    | some (w, ws) =>
      match if k.st = .restorePending then keySlot 2 ws s else none with
      | none => s
      | some wk => match Config.kwUnwrap wk.key w with
        | none => note .cry E.cryUnwrapFail 0xFF s
        | some v => setKeyTbl kind (tset (keyTbl kind s) slot { k with st := .loaded, key := v }) s

/-- KEY_RESTORE (R237, R341, R342, R368). [DEDUCED: log entry 48] -/
def execKeyRestore (s : State) : Res :=
  live s (
    let can := fun (p : Nat × KeySlot) => p.2.st == .restorePending && p.2.stored.any fun w => (keySlot 2 w.2 s).isSome
    if planeDown .reduction s || !(s.cry.data.any can || s.cry.dedup.any can) then s
    else
      let s := forEach (s.cry.data.map (·.1)) (fun n t => restoreSlot 0 n t) s
      let s := forEach (s.cry.dedup.map (·.1)) (fun n t => restoreSlot 1 n t) s
      setInt .cry I.cryRestoreDone s)

end Sys2Proof.Machine
end

