-- ==== Sys2Proof/Machine/Digest.lean ====
section
/-! DEFINITION. The digest engine's jobs and alarms, the measurement registers and quotes (R355–R389). -/

namespace Sys2Proof.Machine

/-- DGE_JOB (R356–R360, R362, R364, R370). -/
def execDgeJob (ring : Nat) (d : DgeDesc) (s : State) : Res :=
  live s (
    if 3 ≤ ring || !running .dge s || !onF F.dgeCtrlJobEn s then s
    else
      let s := incF (F.dgeRingwHead ring) (incF (F.dgeRingwTail ring) s)
      let t := jobTry ring d s
      let t := if d.first && s.dge.first.length < t.dge.first.length then count .dge 0x06 1 t else t
      dgeRun t)

/-- The digest of a message (R355). -/
def digestOf (c : DgeCtx) (msg : List Byte) : List Byte :=
  match c.alg with
  | 0 => Config.sha256 msg
  | 1 => Config.sha384 msg
  | 2 => Config.hmac256 (c.keyCopy.getD []) msg
  | _ => Config.hmac384 (c.keyCopy.getD []) msg

/-- FLAGS of a completion record: MATCH, MATCH_N, ZERO, EXCESS (R365). -/
def dgeFlags (match_ matchN zero excess : Bool) : Nat := b2n match_ + 2 * b2n matchN + 4 * b2n zero + 8 * b2n excess

/-- The dedup key of an Open context was purged while its job ran (R370). -/
def ctxPurged (c : DgeCtx) (s : State) : Bool := c.keySrc == 1 && (domKey c.keySlot s).isNone

/-- A job ends well (R358, R365, R370, R374, R375, R378). [DEDUCED: log entry 49] -/
def jobEnd (n : Nat) (c : DgeCtx) (d : DgeDesc) (data expect : List Byte) (s : State) : State :=
  let msg := c.msg ++ data
  let ring := c.owner - 1
  let s := count .dge 0x04 data.length s
  if !d.last then
    let s := dgeRec ring d n 0 (dgeFlags false false (allZero msg) false) data.length s
    if ctxPurged c s then ctxDrop n 5 s
    else modCtx n (fun c => { c with st := .open_, lane := none, job := none, msg := msg, since := s.now }) s
  else
    let dg := digestOf c msg
    let fl := dgeFlags (d.compare && dg == expect) (d.compare && dg != expect) (allZero msg) false
    let s := ctxDrop n 0 s
    if d.extend && !mrOpen (mrSource ring d.mr) d.mr s then
      dgeRec ring d n 6 fl data.length (note .sec E.secMrDenied 0xFF s)
    else
      let s := if d.extend then
          let e := mrEvent ring d.mr s
          mrExtend (mrSource ring d.mr) d.mr e.1 dg e.2
        else s
      let s := if d.result = 0 then s else emit (.dgeDigest ring d.tag d.result dg) s
      dgeRec ring d n 0 fl data.length s

/-- DGE_JOB_COMPLETE (R365, R366, R372–R375): `data` is what arrived for the job, `expect` the expected digest. A memory source
brings exactly DECL_LEN bytes. -/
def execDgeJobComplete (ctx : Nat) (data expect : List Byte) (busErr incoherent : Bool) (s : State) : Res :=
  live s (
    match ctxOf ctx s with
    | none => s
    | some c => match c.job with
      | none => s
      | some d =>
        let ring := c.owner - 1
        if c.st != .active || !running .dge s then s
        else if busErr then dgeRun (dgeRec ring d ctx 2 0 data.length (note .dge E.dgeBusErr 0xFF (ctxDrop ctx 0 s)))
        else if data.length != d.declLen then
          if !d.push then s
          else
            let over_ := d.declLen < data.length
            let s := note .dge E.dgeLengthMismatch 0xFF (ctxDrop ctx 0 s)
            let s := if over_ then note .dge E.dgeExcess 0xFF s else s
            dgeRun (dgeRec ring d ctx 1 (dgeFlags false false false over_) data.length s)
        else if d.compare && incoherent then
          raise .dge E.dgeCmpIncoherent 0xFF (dgeRec ring d ctx 3 0 data.length (ctxDrop ctx 0 s))
        else dgeRun (jobEnd ctx c d data expect s))

/-- Some Waiting context is not one that was suspended at this instant (R360). -/
def jobWaiting (s : State) : Bool :=
  s.dge.wait.any fun n => (ctxOf n s).any fun c => !(c.susp && c.since == s.now)

/-- DGE_QUANTUM_EXPIRY (R358, R360). -/
def execDgeQuantumExpiry (lane : Nat) (s : State) : Res :=
  live s (
    match s.dge.ctx.find? fun c => c.2.lane == some lane with
    | none => s
    | some (n, _) =>
      if !running .dge s || !jobWaiting s then s
      else
        dgeRun (modCtx n (fun c => { c with st := .waiting, lane := none, since := s.now, susp := true })
          { count .dge 0x05 1 s with dge.wait := s.dge.wait ++ [n] }))

/-- DGE_CONTEXT_EXPIRY (R358, R362, R372). -/
def execDgeContextExpiry (ctx : Nat) (s : State) : Res :=
  live s (
    let lim := getF F.dgeCfgOpenLimit s
    if (ctxOf ctx s).any fun c => c.st == .open_ && lim != 0 && decide (1000000000 * lim ≤ s.now - c.since) then
      dgeRun (setInt .dge I.dgeCtxExpired (ctxDrop ctx 8 s))
    else s)

/-- DGE_ALARM (R358, R373): `source` is the SEC_ALARM bit of what tripped. -/
def execDgeAlarm (source : Nat) (s : State) : Res :=
  live s (if 4 ≤ source then s else dgeRun (dgeAlarm (if source = 3 then s else secAlarm source s)))

/-- GLITCH_TRIP (R373, R377): an alarm, and an extend of MR7 whose digest the spec does not give, a free value.
[DESIGN CHOICE: log entry 50] -/
def execGlitchTrip (detector : Nat) (s : State) : Res :=
  live s (
    if 3 ≤ detector then s
    else
      let s := dgeRun (dgeAlarm (secAlarm detector (raise .sec E.secGlitch 0xFF s)))
      let d := drawBytes 48 s
      mrTry 3 7 0x0030 d.1 d.2)

/-- JTAG_ACCESS (R377–R379, R616): an extend of MR7; the digest is not given, a free value. JTAG stays in service in the Grave state.
[DESIGN CHOICE: log entry 10] -/
def execJtagAccess (s : State) : Res :=
  .next (let d := drawBytes 48 s; mrTry 3 7 0x0032 d.1 d.2)

/-- MR_EXTEND (R377–R379). [DESIGN CHOICE: log entry 50] -/
def execMrExtend (source mr event : Nat) (digest : List Byte) (s : State) : Res :=
  live s (if digest.length != 48 then s else mrTry source mr event digest s)

/-! Quotes (R384, R385): in service in the Grave state (R616). -/

/-- QUOTE_START (R385). [DEDUCED: log entry 52] -/
def execQuoteStart (s : State) : Res :=
  .next (
    if s.sec.quote.isSome then s
    else
      let fl := getF F.secStatLogOverflow s + 2 * getF F.secStatBootDone s + 4 * b2n (!s.bld.jtagOk)
      let q : Quote := { nonce := (List.range 8).map fun k => getF (F.secNonceWNonce k) s, mrs := s.sec.mr,
                         count := s.sec.log.length, flags := fl }
      setF F.secQstatBusy 1 (setF F.secQstatResult 0 { s with sec.quote := some q, sec.msg := [], sec.sig := [] }))

/-- The 440-byte quote message (R384). [DEDUCED: log entry 52] -/
def quoteMsg (q : Quote) (qseq : Nat) (s : State) : List Byte :=
  toBytes 4 0x54514B48 ++ toBytes 2 1 ++ toBytes 1 s.pins.headSel ++ toBytes 1 siliconStep ++ toBytes 8 s.bld.dsn ++
  toBytes 4 qseq ++ toBytes 2 q.count ++ toBytes 1 q.flags ++ zeros 1 ++ q.nonce.flatMap (toBytes 4) ++ q.mrs.flatten

/-- QUOTE_DONE (R385). [DEDUCED: log entry 52] -/
def execQuoteDone (s : State) : Res :=
  .next (
    match s.sec.quote with
    | none => s
    | some q =>
      let s := setF F.secQstatBusy 0 { s with sec.quote := none }
      let s := if getF F.secStatAttkeyOk s = 0 then setF F.secQstatResult 2 s
        else
          let n := (getF F.secQseqQseq s + 1) % 2 ^ 32
          let m := quoteMsg q n s
          setF F.secQstatResult 1 (setF F.secQseqQseq n { s with sec.msg := m, sec.sig := Config.ecdsaSign m })
      setInt .sec I.secQuoteDone (count .sec 0x02 1 s))

end Sys2Proof.Machine
end

