-- ==== Sys2Proof/Machine/MapCache.lean ====
section
/-! DEFINITION. The map cache, map pages, the journal's spilling, checkpoints, recovery and the shadow map (R33–R37, R394–R414,
R568). -/

namespace Sys2Proof.Machine

/-! Reads behind the map (R29, R394, R428, R435). -/

/-- The back-pointer at a map entry's address is not the unit's own, and no record shares it (R435). -/
def backWrong (x : UnitRead) (s : State) : Bool :=
  (tget? s.fiu.sut x.uaddr).isNone &&
  (tget? s.ftu.back (uBase x.uaddr)).any fun b => b.nsid == x.nsid && !(backUnits b).contains x.unit

/-- The map entry of a read is there: it goes on by the entry's value (R394). -/
def readMapped (x : UnitRead) (s : State) : State :=
  if x.uaddr = 0 then readDeliver x (zeros 4096) s
  else if x.uaddr = lostEntry then readFail x s
  else if uBand x.uaddr = 0 then readFail x (note .ftu E.ftuMapBad 0xFF s)
  else if backWrong x s then readFail x (raise .ftu E.ftuBpMismatch 0xFF s)
  else
    let u := resolve x.uaddr s
    let s := if u = x.uaddr then s else count .ftu 0x0A 1 s
    readModules x.id (modURead x.id (fun y => { y with uaddr := u }) s)

/-- Serve every read that waits for an entry of a line, or of one unit. [DEDUCED: log entry 57] -/
def serveReads (nsid : Nat) (p : Nat → Bool) (s : State) : State :=
  forEach (s.wb.reads.filter fun x => x.stage == .map && x.nsid == nsid && p x.unit) (fun x t => readMapped x t) s

/-! Lookups (R399–R401, R403). -/

/-- The bank has its outstanding demand miss; a lookup waits in it. -/
def bankMiss (b : Nat) (s : State) : Bool := s.mca.misses.any fun m => m.demand && !m.waiting && mcaBank m.epoch m.nsid m.line == b
def bankWaits (b : Nat) (s : State) : Bool := s.mca.misses.any fun m => m.waiting && mcaBank m.epoch m.nsid m.line == b

/-- The page that a lookup needs must be loaded first (R397, R400). -/
def needsLoad (epoch nsid page : Nat) (s : State) : Bool := (pageOf epoch nsid page s).any fun p => !p.resident && !p.zero

/-- Note a lookup of a page: its time of use, and its load when it is on flash (R397). -/
def touchPage (epoch nsid page : Nat) (s : State) : State :=
  match pageOf epoch nsid page s with
  | none => s
  | some p => putPage { p with used := s.now, loading := p.loading || (!p.resident && !p.zero) } s

/-- A demand miss also reads the next line (R401). [DEDUCED: log entry 53] -/
def prefetch (epoch nsid line : Nat) (s : State) : State :=
  let l := line + 1
  if onF F.mcaCfgPrefetch s && l / 64 == line / 64 && (mcaLine epoch nsid l s).isNone && !bankWaits (mcaBank epoch nsid l) s &&
      s.mca.misses.all fun m => !(m.epoch == epoch && m.nsid == nsid && m.line == l) then
    count .mca 0x06 1 { s with mca.misses := s.mca.misses ++ [{ epoch := epoch, nsid := nsid, line := l, demand := false, waiting := false }] }
  else s

/-- A lookup misses: it takes its bank's outstanding-miss place, waits for the fill of the same line, or waits behind
another miss; without its page it gives the place up (R400). [DEDUCED: log entry 53] -/
def lookupMiss (epoch nsid unit : Nat) (s : State) : State :=
  let l := unit / 8
  let b := mcaBank epoch nsid l
  if needsLoad epoch nsid (unit / 512) s then s
  else if s.mca.misses.any fun m => m.epoch == epoch && m.nsid == nsid && m.line == l then
    { s with mca.misses := modFirst (fun m => m.epoch == epoch && m.nsid == nsid && m.line == l) (fun m => { m with demand := true }) s.mca.misses }
  else
    let m : McaMiss := { epoch := epoch, nsid := nsid, line := l, demand := true, waiting := bankMiss b s }
    let s := { s with mca.misses := s.mca.misses ++ [m] }
    if m.waiting then count .mca 0x05 1 s else prefetch epoch nsid l (count .mca 0x04 1 s)

/-- Count a lookup in its microsecond: at IDLE_RATE every group that the hardware gated is powered again (R403). -/
def lookupRate (s : State) : State :=
  let us := s.now / 1000
  let n := if s.mca.rateAt = us then s.mca.rateN + 1 else 1
  let s := { s with mca.rateAt := us, mca.rateN := n }
  if n < getF F.mcaCfgIdleRate s then s
  else
    let s := { s with mca.busyAt := s.now }
    if s.mca.auto.isEmpty then s
    else setInt .mca I.mcaGroupOn { s with mca.off := s.mca.off.filter fun g => !s.mca.auto.contains g, mca.auto := [] }

/-- MCA looks up the entry of a unit and serves the reads that wait for it, or misses (R399, R400). -/
def lookup (epoch nsid unit : Nat) (s : State) : State :=
  let s := touchPage epoch nsid (unit / 512) (lookupRate (count .mca 0x01 1 s))
  let serve := fun (t : State) => if epoch = 0 then serveReads nsid (· == unit) t else t
  if (pageOf epoch nsid (unit / 512) s).all (·.zero) then serve s
  else if !onF F.mcaCtrlCacheEn s then if needsLoad epoch nsid (unit / 512) s then s else serve s
  else match mcaLine epoch nsid (unit / 8) s with
  | none => lookupMiss epoch nsid unit s
  | some l =>
    let s := if l.pref then count .mca 0x07 1 s else s
    if l.victim then serve (mcaInstall { l with pref := false } (dropLine epoch nsid l.line (count .mca 0x03 1 s)))
    else serve (count .mca 0x02 1 { s with mca.lines := modFirst (isLine epoch nsid l.line) (fun l => { l with pref := false }) s.mca.lines })

/-- MCA takes lookups: it and FTU run, MAP_EN is 1, no replay is under way (R404, R434). -/
def mcaServes (s : State) : Bool := running .mca s && running .ftu s && onF F.ftuCtrlMapEn s && s.mca.replay.isNone

/-- MCA_LOOKUP (R394, R397, R399–R403, R428); behind a waiting miss of its bank a lookup waits (R400).
[DEDUCED: log entry 53] -/
def execMcaLookup (epoch nsid unit : Nat) (s : State) : Res :=
  live s (if !mcaServes s || bankWaits (mcaBank epoch nsid (unit / 8)) s then s else lookup epoch nsid unit s)

/-- MCA_FILL (R399–R401): the line is installed and serves its lookups; then the bank's next miss starts.
[DEDUCED: log entry 53] -/
def execMcaFill (epoch nsid line : Nat) (s : State) : Res :=
  live s (
    match s.mca.misses.find? fun m => m.epoch == epoch && m.nsid == nsid && m.line == line && !m.waiting with
    | none => s
    | some m =>
      if !mcaServes s then s
      else
        let b := mcaBank epoch nsid line
        let s := { s with mca.misses := s.mca.misses.filter fun x => !(x.epoch == epoch && x.nsid == nsid && x.line == line) }
        let drop := !m.demand && bankWaits b s
        let s := if drop || (mcaLine epoch nsid line s).isSome then s
          else mcaInstall { epoch := epoch, nsid := nsid, line := line, dirty := none, way := 0, victim := false, pref := !m.demand } s
        let s := if epoch = 0 && m.demand then serveReads nsid (fun u => u / 8 == line) s else s
        match if m.demand then s.mca.misses.find? fun x => x.waiting && mcaBank x.epoch x.nsid x.line == b else none with
        | none => s
        | some w =>
          prefetch w.epoch w.nsid w.line (count .mca 0x04 1
            { s with mca.misses := modFirst (fun x => x == w) (fun x => { x with waiting := false }) s.mca.misses }))

/-! Write-back, way groups and replay (R402–R404). -/

/-- Write dirty lines that meet `p` back (R402). -/
def cleanLines (p : McaLine → Bool) (s : State) : State :=
  let n := (s.mca.lines.filter fun l => p l && l.dirty.isSome).length
  count .mca 0x08 n { s with mca.lines := modAll (fun l => p l) (fun l => { l with dirty := none }) s.mca.lines }

/-- MCA_CLEANER (R402): the lines that hold MCA_LOW back are written. -/
def execMcaCleaner (s : State) : Res :=
  live s (if running .mca s then cleanLines (fun l => l.dirty == some (mcaLow s)) s else s)

/-- Clean, invalidate and gate a way group (R403). -/
def groupOff (g : Nat) (s : State) : State :=
  let here := fun (l : McaLine) => !l.victim && l.way / 4 == g
  let s := cleanLines here s
  setInt .mca I.mcaGroupOff { s with mca.lines := s.mca.lines.filter fun l => !here l, mca.off := s.mca.off.filter (· != g) ++ [g] }

/-- MCA_GROUP_OFF (R403): a write of GROUP_ON. [DEDUCED: log entry 121] -/
def execMcaGroupOff (g : Nat) (s : State) : Res :=
  live s (if g = 0 || 3 < g then s else regWrite .mca (fun s =>
    let w := getF F.mcaWaysGroupOn s
    if !bit w (g - 1) then s
    else
      let s := setF F.mcaWaysGroupOn (bclr w (g - 1)) { s with mca.auto := s.mca.auto.filter (· != g) }
      if s.mca.off.contains g then s else groupOff g s) s)

/-- MCA_GROUP_ON (R403); a group that the head state keeps gated stays so (R633). -/
def execMcaGroupOn (g : Nat) (s : State) : Res :=
  live s (if g = 0 || 3 < g then s else regWrite .mca (fun s =>
    let s := setF F.mcaWaysGroupOn (bset (getF F.mcaWaysGroupOn s) (g - 1)) s
    if s.mca.off.contains g && (getF F.pwcStatHstate s = 0 || (getF F.pwcStatHstate s = 1 && g = 1)) then
      setInt .mca I.mcaGroupOn { s with mca.off := s.mca.off.filter (· != g), mca.auto := s.mca.auto.filter (· != g) }
    else s) s)

/-- MCA_AUTO_GATE (R403): groups 3, 2 and 1 in that order, each after 10 ms below IDLE_RATE. -/
def execMcaAutoGate (s : State) : Res :=
  live s (
    match [3, 2, 1].find? fun g => !s.mca.off.contains g with
    | none => s
    | some g =>
      if running .mca s && onF (H.pwrAuto .mca) s && decide (10000000 ≤ s.now - s.mca.busyAt) then
        groupOff g { s with mca.auto := s.mca.auto ++ [g], mca.busyAt := s.now }
      else s)

/-- MCA_CACHE_DISABLE (R402): clearing CACHE_EN writes every dirty line back; lookups go to DRAM, waiting ones too.
[DEDUCED: log entry 57] -/
def execMcaCacheDisable (s : State) : Res :=
  live s (regWrite .mca (fun s =>
    let ms := s.mca.misses.filter fun m => m.demand && m.epoch == 0
    let s := cleanLines (fun _ => true) (setF F.mcaCtrlCacheEn 0 s)
    forEach ms (fun m t => serveReads m.nsid (fun u => u / 8 == m.line) t) { s with mca.lines := [], mca.misses := [] }) s)

/-- MCA_RESET_REPLAY (R404): the map already holds every clause's effect, so the replay only ends. -/
def execMcaResetReplay (s : State) : Res :=
  live s (if s.mca.replay.isSome && running .ftu s then { s with mca.replay := none } else s)

/-! Map pages (R397, R412). -/

/-- Bytes the map may take: FTU_MAP_BUDGET, or all DRAM not otherwise allocated (R434). -/
def mapBudget (s : State) : Nat :=
  let g := getF F.ftuMapBudgetBudgetGib s
  2 ^ 30 * (if g = 0 then dramGib s - Config.otherDram else g)

/-- Evict least recently used pages that are clean and have a flash copy, until the footprint fits (R397).
[DEDUCED: log entry 57] -/
def evictPages : Nat → State → State
  | 0, s => s
  | n + 1, s =>
    if footBytes s ≤ mapBudget s then s
    else
      let cs := s.ftu.pages.filter fun p => p.resident && !p.dirty && !p.writing && p.flash != 0
      match cs with
      | [] => s
      | c :: r =>
        let v := r.foldl (fun a p => if p.used < a.used then p else a) c
        evictPages n (putPage { v with resident := false } s)

/-- Every page of the owned namespaces is resident (R412). -/
def mapLoaded (s : State) : Bool := s.ftu.pages.all fun p => p.resident || p.zero || !((nsOf p.nsid s).any fun x => ownsNs x s)

/-- MAP_PAGE_LOAD (R397, R400, R412, R413): the page is current, and the lookups that wait for it are made again. -/
def execMapPageLoad (epoch nsid page : Nat) (s : State) : Res :=
  live s (
    match pageOf epoch nsid page s with
    | none => s
    | some p =>
      if p.resident || p.zero || !p.loading || !running .ftu s then s
      else
        let was := mapLoaded s
        let s := count .ftu 0x03 1 (putPage { p with resident := true, loading := false, used := s.now } s)
        let s := if mapLoaded s && !was then setInt .ftu I.ftuMapLoaded s else s
        let us := ((s.wb.reads.filter fun x => epoch == 0 && x.stage == .map && x.nsid == nsid && x.unit / 512 == page).map (·.unit)).eraseDups
        let s := if mcaServes s then forEach us (fun u t => lookup 0 nsid u t) s else s
        evictPages s.ftu.pages.length s)

/-! Metadata items (R398, R405, R406, R408). -/

/-- A metadata record: its header and 4,096-byte body (R398). -/
def metaRecord (kind nsid epoch index cseq prev : Nat) (body : List Byte) : List Byte :=
  let h := toBytes 4 0x504D4B48 ++ toBytes 1 kind ++ zeros 3 ++ toBytes 4 nsid ++ toBytes 4 epoch ++ toBytes 8 index ++ toBytes 8 cseq ++
    toBytes 8 prev ++ zeros 16 ++ toBytes 4 (crc32c body)
  h ++ toBytes 4 (crc32c h) ++ body

/-- The 32 bytes of a clause (R406). -/
def clauseBytes (c : Clause) : List Byte :=
  let a := toBytes 1 c.typ ++ toBytes 1 c.flags
  let z := toBytes 4 c.nsid ++ toBytes 8 c.p0 ++ toBytes 8 c.p1 ++ toBytes 8 c.p2
  a ++ toBytes 2 (crc32c (a ++ z)) ++ z

/-- The 4,096 bytes of a sealed clause block (R405). [DESIGN CHOICE: log entry 54] -/
def blockBytes (b : JBlock) (s : State) : List Byte :=
  let cs := s.ftu.jrnl.filter fun j => decide (b.first ≤ j.cseq ∧ j.cseq ≤ b.last)
  let h := toBytes 4 0x424A4B48 ++ toBytes 1 s.pins.headSel ++ toBytes 1 1 ++ toBytes 2 cs.length ++ toBytes 8 b.no ++ toBytes 8 b.first ++
    toBytes 8 b.time ++ zeros 28
  h ++ toBytes 4 (crc32c h) ++ cs.flatMap (fun j => clauseBytes j.clause) ++ zeros (32 * (126 - cs.length))

/-- The back-pointer of a metadata item (R422). -/
def metaBack (kind index : Nat) : BackPtr :=
  { nsid := 0, unit := index % 2 ^ 56 + 2 ^ 56 * kind, mask := 1, gen := 0, seq := 0, copy := false, shared := false, src := 0 }

/-- Put a metadata item into the open metadata band; none while it can take none. -/
def packMeta (kind nsid epoch index cseq prev : Nat) (body : List Byte) (s : State) : Option (Nat × State) :=
  (packItem (getF F.ftuBandCfgMetaClass s) true false (metaRecord kind nsid epoch index cseq prev body) (metaBack kind index) false s).map
    fun r => (r.1, addLive r.1 r.2)

/-- Blocks of the ring not free (R408). -/
def ringUsed (s : State) : Nat := (s.ftu.blocks.filter fun b => !b.spilled).length

/-- JOURNAL_SPILL (R408): the oldest sealed block not yet copied. [DESIGN CHOICE: log entry 54] -/
def execJournalSpill (s : State) : Res :=
  live s (
    let sealedN := (s.ftu.blocks.filter fun b => b.sealed_ && !b.spilled).length
    if !running .ftu s || sealedN * 100 ≤ getF F.ftuJrnlCfgSpillPct s * 163840 && !s.pwc.stopping then s
    else match s.ftu.blocks.find? fun b => b.sealed_ && b.copy == 0 with
      | none => s
      | some b => match packMeta 7 0 0 b.no b.first 0 (blockBytes b s) s with
        | none => s
        | some (u, s) =>
          count .ftu 0x05 1 { s with ftu.blocks := modFirst (fun k => k.no == b.no) (fun k => { k with copy := u }) s.ftu.blocks })

/-! Checkpoints (R409–R411). -/

/-- A clause touches a page of the current map. -/
def touches (c : Clause) (nsid page : Nat) : Bool :=
  c.nsid == nsid && match c.typ with
    | 1 | 2 | 4 | 5 => c.p0 % 2 ^ 52 / 512 == page
    | 3 => decide (c.p0 < (page + 1) * 512 ∧ page * 512 < c.p0 + c.p1)
    | _ => false

/-- SPILLS of a page: spilled blocks with clauses for it newer than its flash copy (R396).
[DESIGN CHOICE: log entry 54] -/
def pageSpills (p : MapPage) (s : State) : Nat :=
  (s.ftu.blocks.filter fun b => b.spilled && s.ftu.jrnl.any fun j =>
    decide (b.first ≤ j.cseq ∧ j.cseq ≤ b.last ∧ p.dirtyCseq ≤ j.cseq) && touches j.clause p.nsid p.page).length

/-- Pages the checkpoint writer may take, and whether it takes `p` before `q` (R409).
[DESIGN CHOICE: log entry 54; DEDUCED: log entry 55] -/
def ckptReady (p : MapPage) : Bool := p.dirty && p.resident && !p.writing
/-- [DESIGN CHOICE: log entry 54] -/
def ckptFirst (p q : MapPage) (s : State) : Bool :=
  let m := getF F.ftuJrnlCfgSpillMax s
  let a := decide (m ≤ pageSpills p s)
  let b := decide (m ≤ pageSpills q s)
  if a = b then decide (p.dirtyCseq ≤ q.dirtyCseq) else a

/-- The 4,096 bytes of a map page (R394, R395). -/
def pageBytes (epoch nsid page : Nat) (s : State) : List Byte :=
  (List.range 512).flatMap fun i => toBytes 8 (mapGet epoch nsid (page * 512 + i) s)

/-- CHECKPOINT_PAGE_WRITE (R398, R402, R409). [DESIGN CHOICE: log entry 54] -/
def execCheckpointPageWrite (epoch nsid page : Nat) (s : State) : Res :=
  live s (
    match pageOf epoch nsid page s with
    | none => s
    | some p =>
      if !running .ftu s || !onF F.ftuCtrlCkptEn s || !ckptReady p || !(s.ftu.pages.filter ckptReady).all fun q => ckptFirst p q s then s
      else
        let s := cleanLines (fun l => l.epoch == epoch && l.nsid == nsid && l.line / 64 == page) s
        match packMeta 1 nsid epoch page (s.ftu.capply - 1) p.flash (pageBytes epoch nsid page s) s with
        | none => s
        | some (u, s) => putPage { p with writing := true, wrote := u, again := none } s)

/-- CHECKPOINT_PAGE_DONE (R409). -/
def execCheckpointPageDone (epoch nsid page flashAddr : Nat) (s : State) : Res :=
  live s (
    match pageOf epoch nsid page s with
    | none => s
    | some p =>
      if !p.writing || p.wrote != flashAddr || !programmed flashAddr s then s
      else
        let s := if p.flash = 0 then s else subLive p.flash s
        count .ftu 0x04 1 (putPage { p with writing := false, flash := flashAddr, wrote := 0, dirty := p.again.isSome && !p.zero,
                                            dirtyCseq := p.again.getD p.dirtyCseq, again := none } s))

/-- LOW_CSEQ (R409). -/
def lowCseq (s : State) : Nat := (s.ftu.pages.filter (·.dirty)).foldl (fun m p => min m p.dirtyCseq) s.ftu.csnext

/-- Free the clause blocks below LOW_CSEQ, in the ring and as copies, and the flash copies of ZERO pages (R409, R431). -/
def freeBlocksBelow (low : Nat) (s : State) : State :=
  let old := fun (b : JBlock) => decide (b.last < low) && decide (b.last < s.ftu.cack) && b.sealed_
  let s := forEach (s.ftu.blocks.filter fun b => old b && b.copy != 0) (fun b t => subLive b.copy t) s
  let keep := s.ftu.blocks.filter fun b => !old b
  let first := (keep.head?).elim s.ftu.csnext (·.first)
  let s := { s with ftu.blocks := keep, ftu.jrnl := s.ftu.jrnl.filter fun j => decide (first ≤ j.cseq) }
  let zs := s.ftu.pages.filter fun p => p.zero && !p.writing
  let s := forEach ((zs.filter fun p => p.flash != 0).map (·.flash)).eraseDups subLive s
  { s with ftu.pages := s.ftu.pages.filter fun p => !(p.zero && !p.writing) }

/-- Write the checkpoint root and its CKPT clause (R410). [DESIGN CHOICE: log entry 54] -/
def writeRoot (clean : Bool) (s : State) : State :=
  let gen := (s.ftu.root.elim 0 (·.gen)) + 1
  let low := lowCseq s
  let r : Root := { gen := gen, clean := clean, low := low, next := s.ftu.csnext, storeCtr := s.cmp.storeCtr, nextSeq := s.hqe.nextSeq,
                    nextBseq := s.ftu.nextBseq, time := stamp s,
                    fence := (s.mods.mir.map (·.1)).map fun m => (m, fenceWord m s) }
  let s := sendTroys (.root gen) (clause (mkClause cCkpt 0 0 gen low 0) { s with ftu.root := some r, ftu.rootAt := s.now })
  setInt .ftu I.ftuCkptDone (emit (.ckptRoot gen) (freeBlocksBelow low s))

/-- CHECKPOINT_ROOT (R35, R409, R410, R568): the mode is evaluated and the footprint sent to the peer.
[DEDUCED: log entry 55] -/
def execCheckpointRoot (s : State) : Res :=
  live s (
    if !running .ftu s || !inService s || !jrnlRoom s || decide (s.now - s.ftu.rootAt < 1000000 * getF F.ftuCkptCfgPeriodMs s) then s
    else
      let s := writeRoot false s
      let s := sendTroys (.footprint (footGib s)) s
      modeEval false s)

/-! Recovery (R411–R414, R416, R429). -/

/-- SHADOW_CAUGHT_UP (R36, R37). -/
def execShadowCaughtUp (peer : Bool) (s : State) : Res :=
  live s (
    if !s.pair.shadow then s
    else if peer then modeEval false { s with pair.peerCaughtUp := true }
    else modeEval false (sendTroys .caughtUp (setF F.mirPairStatCaughtUp 1 { s with pair.caughtUp := true })))

/-- Abandon what collection and unfinished metadata copies left (R416, R429): a Collecting band is Sealed again, an
incomplete GC stripe is garbage. -/
def dropCollections (s : State) : State :=
  let s := forEach (s.par.stripes.filter fun x => x.isGc && !chunksDone x) (fun x t => dropStripe x.band x.no t) s
  { s with ftu.bands := modAll (fun b => b.st == .collecting) (fun b => { b with st := .sealed_ }) s.ftu.bands, ftu.gcs := [],
           wb.units := s.wb.units.filter fun u => match u.src with
             | .gc _ _ => false
             | .slot _ => true,
           wb.reads := s.wb.reads.filter fun r => match r.for_ with
             | .gc _ => false
             | _ => true,
           ftu.pages := s.ftu.pages.map fun p => { p with resident := p.resident && p.flash == 0 && p.dirty, loading := false, writing := false } }

/-- A clause or block of the journal failed in every copy: Class 4 with cause JOURNAL (R412, R618).
[DEDUCED: log entry 58] -/
def journalGap (s : State) : State :=
  report { blk := some .ftu, source := latchBit .ftu, inst := 0, lane := 0xFF, code := 0x1000 + 32 * latchBit .ftu + E.ftuClauseChk,
           p1 := getF (H.errStat .ftu) s, own := some 6, inj := false } 4 s

/-- Counters resume 2³² above their persisted values (R303, R411). [DEDUCED: log entry 113] -/
def resumeCounters (s : State) : State :=
  { s with hqe.nextSeq := max s.hqe.nextSeq (s.ftu.root.elim 1 (·.nextSeq) + 2 ^ 32),
           ftu.nextBseq := max s.ftu.nextBseq (s.ftu.root.elim 1 (·.nextBseq) + 2 ^ 32),
           cmp.storeCtr := max s.cmp.storeCtr ((s.ftu.root.elim 0 (·.storeCtr) + 2 ^ 32) % 2 ^ 63) }

/-- Every band in Pending erase is erased again (R412, R429). [DEDUCED: log entry 59] -/
def eraseAgain (s : State) : State :=
  let out := fun (m k : Nat) (t : State) => (t.mods.cmds ++ t.mods.waiting).any fun c => c.m == m && c.opc == 4 && c.block == k
  forEach (s.ftu.bands.filter fun b => b.mine && b.st == .erasing) (fun b t =>
    forEach b.members (fun m u => forEach m.2 (fun k v =>
      if (blkOf m.1 k v).st = 2 && reachable m.1 v && !out m.1 k v then ymSend (ymCmd m.1 4 k 0 0 0 (.erase b.no)) v else v) u) t) s

/-- FTU recovers a head's metadata: at start-up, with its counters, or at a takeover (R411–R413, R416, R429). Doing it twice changes
nothing. -/
def recoverMeta (start : Bool) (s : State) : State :=
  let s := eraseAgain (if start then dropCollections (resumeCounters s) else s)
  if mapLoaded s then setInt .ftu I.ftuMapLoaded s else s

/-- METADATA_RECOVERY (R411–R413, R416, R429, R618): `gap` says that some clause or block failed in every copy.
[DEDUCED: log entry 58] -/
def execMetadataRecovery (gap : Bool) (s : State) : Res :=
  live s (
    let start := getF F.bldStatStage s == 8
    if !(start || (s.pair.ecl.isSome && getF F.mirPairStatMode s == 2)) then s
    else if gap then journalGap s
    else recoverMeta start s)

/-- The unit address that the stripe summaries give a unit: the back-pointer with the highest SEQ, of an epoch below its cut
(R414, R422). [DEDUCED: log entry 56] -/
def summaryAddr (epoch nsid unit : Nat) (s : State) : Nat :=
  let cut := (s.eph.epochs.find? fun e => e.no == epoch).elim (2 ^ 64) (·.cutSeq)
  let bseq := fun (u : Nat) => (bandOf (uBand u) s).elim 0 (·.bseq)
  let c := s.ftu.back.filter fun p => p.2.nsid == nsid && (backUnits p.2).contains unit && (bandOf (uBand p.1) s).isSome && decide (p.2.seq < cut)
  let best := c.foldl (fun (m : Option (Nat × BackPtr)) p => match m with
    | none => some p
    | some q => if q.2.seq < p.2.seq || (q.2.seq == p.2.seq && decide (bseq q.1 < bseq p.1)) then some p else some q) none
  best.elim 0 fun p => p.1 + (backUnits p.2).idxOf unit

/-- The entry of a unit after a rebuild of its page: what the indexed clauses set since the flash copy, else what the
summaries give. [DEDUCED: log entry 56] -/
def rebuiltEntry (p : MapPage) (unit : Nat) (s : State) : Nat × Bool :=
  let since := fun (j : JClause) => decide (p.dirtyCseq ≤ j.cseq) && p.dirty && j.clause.nsid == p.nsid && match j.clause.typ with
    | 1 => if j.clause.flags % 2 = 0 then j.clause.p0 == unit else decide (j.clause.p0 ≤ unit ∧ unit < j.clause.p0 + 4) && bit j.clause.flags (4 + unit - j.clause.p0)
    | 2 | 4 | 5 => j.clause.p0 % 2 ^ 52 == unit
    | 3 => decide (j.clause.p0 ≤ unit ∧ unit < j.clause.p0 + j.clause.p1)
    | _ => false
  if s.ftu.jrnl.any since then (mapGet p.epoch p.nsid unit s, false)
  else
    let u := summaryAddr p.epoch p.nsid unit s
    (u, u != 0)

/-- MAP_PAGE_REBUILD (R414, R462). [DEDUCED: log entry 56] -/
def execMapPageRebuild (epoch nsid page : Nat) (s : State) : Res :=
  live s (
    match pageOf epoch nsid page s with
    | none => s
    | some p =>
      if p.resident || p.zero || !p.loading || !running .ftu s then s
      else
        let es := (List.range 512).map fun i => (page * 512 + i, rebuiltEntry p (page * 512 + i) s)
        let s := note .ftu E.ftuMappageLost 0xFF s
        let s := forEach es (fun e t =>
          let t := forEach (sharers epoch nsid page t) (fun m u => mapPut m.1 m.2 e.1 e.2.1 u) t
          if e.2.2 then lostAdd nsid e.1 epoch 4 true t else t) s
        putPage { p with resident := true, loading := false, dirty := true, dirtyCseq := if p.dirty then p.dirtyCseq else s.ftu.csnext,
                         used := s.now } s)

end Sys2Proof.Machine
end

