-- ==== Sys2Proof/Machine/Bands.lean ====
section
/-! DEFINITION. Bands, free space and garbage collection (R415–R433, R438, R439). -/

namespace Sys2Proof.Machine

/-! Opening a band (R417–R420, R437–R439). -/

/-- Target data width and parity count of a layout class (R437, R466). -/
def classD (c : Nat) (s : State) : Nat := bankF F.parClassCfgD c 8 s
def classP (c : Nat) (s : State) : Nat := bankF F.parClassCfgP c 1 s

/-- The smallest data width for a parity count (R437). -/
def minD (p : Nat) : Nat := if p = 2 then 4 else 3

/-- Bytes of the largest erase block of the members in service. -/
def eraseBlock (s : State) : Nat := ((inSvc s).map fun m => pus m s * chunkLen).foldl max chunkLen

/-- K of a class with target width D (R417). -/
def classK (d : Nat) (s : State) : Nat := ((List.range 8).map (· + 1)).foldl (fun k j => if d * j * eraseBlock s ≤ 2 ^ 32 then j else k) 1

/-- Members that can give K blocks, by free fraction, ties to the lowest number (R438, R439). -/
def eligible (k : Nat) (s : State) : List Nat :=
  ((inSvc s).filter fun m => decide (k ≤ (freeBlocks m s).length)).mergeSort fun a b =>
    freePmOn b s < freePmOn a s || (freePmOn a s == freePmOn b s && a ≤ b)

/-- The K Free blocks with the lowest ERASES, ties to the lowest number (R419). -/
def pickBlocks (m k : Nat) (s : State) : List Nat :=
  ((freeBlocks m s).mergeSort fun a b => (blkOf m a s).erases < (blkOf m b s).erases || ((blkOf m a s).erases == (blkOf m b s).erases && a ≤ b)).take k

/-- The lowest Unused band number of this head's half (R391). -/
def freeBand (s : State) : Option Nat :=
  let lo := if s.pins.headSel % 2 = 0 then 1 else 0x800000
  leastFree (s.ftu.bands.map (·.no)) (s.ftu.bands.length + 1) lo

/-- A number in groups of seven (R406, CONT). -/
def contClauses : Nat → List Nat → List Clause
  | 0, _ => []
  | n + 1, l =>
    if l.isEmpty then []
    else mkClause cCont 0 (l.getD 0 0) (l.getD 1 0 + 2 ^ 32 * l.getD 2 0) (l.getD 3 0 + 2 ^ 32 * l.getD 4 0) (l.getD 5 0 + 2 ^ 32 * l.getD 6 0) ::
      contClauses n (l.drop 7)

/-- Open a band with these members and journal it (R406, R415, R439). -/
def openNew (no cls d p k : Nat) (isMeta isGc : Bool) (ms : List Nat) (s : State) : State :=
  let members := ms.map fun m => (m, pickBlocks m k s)
  let b : Band := { no := no, st := .open_, d := d, p := p, k := k, cls := cls, bseq := s.ftu.nextBseq, live := 0, stripes := 0, cbits := 0,
                    isMeta := isMeta, isGc := isGc, reloc := false, short := false, degraded := false, mine := true, members := members,
                    fwd := 0, openCseq := s.ftu.csnext, wrong := [] }
  let s := forEach members (fun m t => forEach m.2 (fun x u => setBlk m.1 x 1 u) t) { s with ftu.bands := s.ftu.bands ++ [b], ftu.nextBseq := s.ftu.nextBseq + 1 }
  let p2 := d + 2 ^ 8 * p + 2 ^ 16 * k + 2 ^ 20 * cls + 2 ^ 23 * b2n isMeta + 2 ^ 24 * b2n isGc
  let nums := members.flatMap (·.2)
  forEach (mkClause cBandOpen 0 0 no b.bseq p2 :: contClauses nums.length nums) clause s

/-- BAND_OPEN (R391, R415–R419, R437–R439, R466). -/
def execBandOpen (cls : Nat) (isMeta isGc : Bool) (s : State) : Res :=
  live s (
    let metaOk := !isMeta || (!isGc && cls == getF F.ftuBandCfgMetaClass s)
    if !running .ftu s || 8 ≤ cls || !metaOk || !classOn cls s || (openBand cls isMeta isGc s).isSome || !jrnlRoom s then s
    else
      let d := classD cls s
      let p := classP cls s
      let k := classK d s
      let n := (eligible k s).length
      let d' := min d (n - p)
      let s := if d' < d then note .par E.parNarrow 0xFF s else s
      if d' < minD p then
        note .par E.parClassBlocked 0xFF { s with par.blocked := s.par.blocked.filter (· != cls) ++ [cls] }
      else match freeBand s with
        | none => s
        | some no =>
          let ms := ((eligible k s).take (d' + p)).mergeSort (· ≤ ·)
          packAll (openNew no cls d' p k isMeta isGc ms { s with par.blocked := s.par.blocked.filter (· != cls) }))

/-- The band's last stripe is closed, or open with an item waiting that no longer fits (R416, R421). -/
def lastClosed (b : Band) (s : State) : Bool :=
  let cap := bandCap b s
  let waiting := fun (x : Stripe) =>
    if b.isMeta then !fits b x 4160
    else s.wb.units.any fun u => u.stage == .pack && !u.body.isEmpty && u.cls == b.cls && isMoved u == b.isGc && !fits b x u.body.length
  decide (cap ≤ b.stripes) || (decide (cap ≤ b.stripes + 1) && s.par.stripes.any fun x => x.band == b.no && !x.closed && waiting x)

/-- BAND_SEAL (R416, R421, R433, R639): at its last stripe, or early when the band is to be relocated or the head stops.
[DEDUCED: log entry 99] -/
def execBandSeal (band : Nat) (early : Bool) (s : State) : Res :=
  live s (
    match bandOf band s with
    | none => s
    | some b =>
      if !running .ftu s || !b.mine || b.st != .open_ then s
      else if early then (if b.reloc || s.pwc.stopping then sealBand band true s else s)
      else if lastClosed b s then
        let open_ := (s.par.stripes.filter fun x => x.band == band && !x.closed).map (·.no)
        sealBand band false (forEach open_ (fun k t => closeStripe band k false t) s)
      else s)

/-! Space (R418, R420, R434). -/

/-- EXTENT_REQUEST (R418): `granted` is the extent that the peer gives. -/
def execExtentRequest (m : Nat) (granted : Option Nat) (s : State) : Res :=
  live s (
    if !running .ftu s || (memOf m s).st != .present || decide (512 ≤ (freeBlocks m s).length) || !troysUp s || !jrnlRoom s then s
    else
      let s := sendTroys (.extentRequest m) s
      match granted with
      | none => s
      | some e =>
        if ownsExtent m e s || decide ((recOf m s).elim 0 blockCount ≤ e * 256) then s
        else clause (mkClause cExtent 0 0 m e s.pins.headSel) s)

/-- FREE_SPACE_EVAL (R420, R424). -/
def execFreeSpaceEval (s : State) : Res :=
  live s (
    if !running .ftu s then s
    else
      let pm := freePm s
      let on := if s.ftu.gcOn then decide (pm ≤ getF F.ftuSpaceStopPct s * 10) else decide (pm < getF F.ftuSpaceStartPct s * 10)
      let urgent := decide (pm < getF F.ftuSpaceGcResPct s * 10)
      let adm := getF F.ftuSpaceAdmitResPct s
      let stop := if s.ftu.admitStop then decide (pm ≤ (adm + 1) * 10) else decide (pm < adm * 10)
      let s := if urgent && !s.ftu.urgent then note .ftu E.ftuGcUrgent 0xFF s else s
      let s := if stop && !s.ftu.admitStop then note .ftu E.ftuSpaceLow 0xFF s else s
      { s with ftu.gcOn := on, ftu.urgent := urgent, ftu.admitStop := stop })

/-! Collection (R424–R428, R433). -/

/-- The live unit addresses of a band, member by member (R425). -/
def liveIn (n : Nat) (s : State) : List Nat :=
  (s.ftu.back.filter fun p => uBand p.1 == n && p.2.nsid != 0).flatMap fun p =>
    ((List.range (backUnits p.2).length).map (p.1 + ·)).filter fun u => liveUnit u s

/-- Start to collect a band (R416, R424, R426): its live units are read; a live map page in it is written afresh. -/
def collect (n : Nat) (rebuild : Bool) (s : State) : State :=
  let us := liveIn n s
  let s := modBand n (fun b => { b with st := .collecting })
    { s with ftu.gcs := s.ftu.gcs ++ [{ band := n, units := us, rebuild := rebuild }], ftu.relocQ := s.ftu.relocQ.filter (· != n) }
  let cs := s.ftu.csnext
  let redo := fun (p : MapPage) =>
    if uBand p.flash == n && !p.zero then
      { p with dirty := true, dirtyCseq := (if p.dirty then p.dirtyCseq else cs), loading := p.loading || !p.resident }
    else p
  let s := { s with ftu.pages := s.ftu.pages.map redo }
  forEach (us.map uBase).eraseDups (fun u t =>
    let b := tget? t.ftu.back u
    readModules t.wb.nextR (newRead (.gc n) (b.elim 0 (·.nsid)) (b.elim 0 (·.unit)) u .module_ t)) s

/-- The band's units carry earlier attributes than their namespaces' (R424, R426). -/
def attrOld (b : Band) (s : State) : Bool :=
  (liveIn b.no s).any fun u => (tget? s.ftu.back (uBase u)).any fun p => (nsOf p.nsid s).any fun x => x.attrGen != p.gen || x.layout != b.cls

/-- The Sealed band that garbage collection takes for space: lowest LIVE for its data area, then lowest BSEQ (R424). -/
def spaceVictim (s : State) : Option Band :=
  let area := fun (b : Band) => bandCap b s * b.d
  (s.ftu.bands.filter fun b => b.mine && b.st == .sealed_ && bandQuiet b.no s).foldl (fun (m : Option Band) b => match m with
    | none => some b
    | some c =>
      let x := b.live * area c
      let y := c.live * area b
      if x < y || (x == y && decide (b.bseq < c.bseq)) then some b else some c) none

/-- GC_VICTIM_SELECT (R424, R432–R434). -/
def execGcVictimSelect (s : State) : Res :=
  live s (
    if !running .ftu s || !onF F.ftuCtrlGcEn s || !bgOk s then s
    else
      let other := fun (t : State) =>
        match if t.ftu.gcOn then spaceVictim t else none with
        | some b => collect b.no false t
        | none =>
          if !winOpen 0 t then t
          else match t.ftu.bands.find? fun b => b.mine && b.st == .sealed_ && bandQuiet b.no t && attrOld b t with
            | some b => collect b.no false t
            | none => t
      match s.ftu.relocQ.head? with
      | none => other s
      | some n => match bandOf n s with
        | none => { s with ftu.relocQ := s.ftu.relocQ.filter (· != n) }
        | some b =>
          if b.st = .open_ then sealBand n true s
          else if b.st != .sealed_ then { s with ftu.relocQ := s.ftu.relocQ.filter (· != n) }
          else if bandQuiet n s then collect n false s else s)

/-- RELOCATE (R289, R407, R426–R428, R444): the copy's stripe is programmed in full. -/
def execRelocate (nsid unit old new : Nat) (reencoded : Bool) (s : State) : Res :=
  live s (
    match s.wb.units.find? fun d => d.src == .gc old reencoded && d.nsid == nsid && d.unit == unit && d.uaddr == new && d.stage == .clause with
    | none => s
    | some d =>
      if !running .ftu s || uBand new = 0 || !programmed new s || !jrnlRoom s || decide (mcaLow s + 4096 < s.ftu.csnext) then s
      else
        let shared := sharedUnit old s
        let fp := (fptOf old s).bind fun i => tget? s.fiu.fpt i
        let rebuild := (gcOf (uBand old) s).any (·.rebuild)
        let s := if rebuild then count .par 0x07 (uLen new * 16) s else s
        let s := clause (mkClause cRelocate (b2n shared + 4 * b2n reencoded) nsid unit old new) s
        let s := match fp with
          | some e => logAppend e.fp new e.domain e.raw e.group16 s
          | none => s
        dropUnit d.id { s with ftu.gcs := s.ftu.gcs.map fun g => if g.band = uBand old then { g with units := g.units.filter (· != old) } else g })

/-- Reads and copies that still need the band (R427). -/
def bandNeeded (n : Nat) (s : State) : Bool :=
  s.wb.reads.any (fun r => uBand r.uaddr == n) || s.wb.units.any (fun d => match d.src with
    | .gc old _ => uBand old == n
    | .slot _ => false) ||
  s.ftu.pages.any (fun p => (uBand p.flash == n && !p.zero) || (p.writing && uBand p.wrote == n)) || s.ftu.blocks.any fun b => uBand b.copy == n

/-- Blocks of a band that are to be erased: not Retired, not on a Failed or Released member (R427, R430, R457). -/
def eraseList (b : Band) (s : State) : List (Nat × Nat) :=
  b.members.flatMap fun m =>
    if (memOf m.1 s).st == .present || (memOf m.1 s).st == .retiring then
      (m.2.filter fun k => (blkOf m.1 k s).st != 3).map fun k => (m.1, k)
    else []

/-- ERASE_PENDING (R427): journalled, then the erases are issued. -/
def execErasePending (band : Nat) (s : State) : Res :=
  live s (
    match bandOf band s with
    | none => s
    | some b =>
      if !running .ftu s || b.st != .collecting || (gcOf band s).isNone || !(liveIn band s).isEmpty || bandNeeded band s || !bandQuiet band s || !jrnlRoom s then s
      else
        let es := eraseList b s
        let s := modBand band (fun b => { b with st := .erasing }) (clause (mkClause cErasePending 0 0 band 0 0) s)
        forEach es (fun e t => ymSend (ymCmd e.1 4 e.2 0 0 0 (.erase band)) (setBlk e.1 e.2 2 t)) s)

/-- An erase of the band is outstanding or waits to be sent. -/
def erasing (n : Nat) (s : State) : Bool := (s.mods.cmds ++ s.mods.waiting).any fun c => c.for_ == .erase n

/-- ERASE_DONE (R416, R419, R427, R428, R430, R457): every block is erased or retired. -/
def execEraseDone (band : Nat) (s : State) : Res :=
  live s (
    match bandOf band s with
    | none => s
    | some b =>
      if !running .ftu s || b.st != .erasing || erasing band s || !jrnlRoom s then s
      else
        let s := forEach ((eraseList b s).filter fun e => (blkOf e.1 e.2 s).st == 2) (fun e t => setBlk e.1 e.2 0 t) s
        let s := { s with ftu.gcs := s.ftu.gcs.filter fun g => g.band != band,
                          ftu.back := s.ftu.back.filter fun p => uBand p.1 != band }
        count .ftu 0x06 1 (clause (mkClause cEraseDone 0 0 band 0 0) s))

/-- FIXUP_WALK (R428, R460): one entry that names OLD is rewritten. -/
def execFixupWalk (epoch nsid unit : Nat) (s : State) : Res :=
  live s (
    let v := mapGet epoch nsid unit s
    let pos := if epoch = 0 then 0 else (s.eph.epochs.find? fun e => e.no == epoch && e.nsid == nsid).elim 256 (·.slot)
    match s.ftu.fwd.find? fun f => f.old == v with
    | none => s
    | some f =>
      if !running .ftu s || !onF F.ftuCtrlFixupEn s || 256 ≤ pos || !jrnlRoom s then s
      else
        let s := clause (mkClause cRelocate (2 + 16 * (pos % 16)) nsid (unit + 2 ^ 52 * (pos / 16)) v f.new) s
        if f.new = lostEntry then lostAdd nsid unit epoch 6 false s else s)

/-! Failures that a member reports (R430, R447). -/

/-- PROGRAM_FAIL (R430, R447): of the outstanding program of that block. -/
def execProgramFail (m block : Nat) (s : State) : Res :=
  live s (
    match s.mods.cmds.find? fun c => c.m == m && c.block == block && c.opc == 3 with
    | none => s
    | some c => match c.for_ with
      | .program b n pos => chunkFail b n pos (ymEnd c s)
      | _ => s)

/-- ERASE_FAIL (R430): the block is retired. -/
def execEraseFail (m block : Nat) (s : State) : Res :=
  live s (
    match s.mods.cmds.find? fun c => c.m == m && c.block == block && c.opc == 4 with
    | none => s
    | some c => note .ftu E.ftuEraseFail 0xFF (retireBlk m block 2 (ymEnd c s)))

end Sys2Proof.Machine
end

