-- ==== Sys2Proof/Machine/Parity.lean ====
section
/-! DEFINITION. Stripes, members, rebuild, the lost-extent log and patrol (R443–R468, R212). -/

namespace Sys2Proof.Machine

/-! Stripes (R212, R441–R449). -/

/-- Parity of a closed stripe, by member position (R440, R441). -/
def parityOf (b : Band) (x : Stripe) : List (Nat × List Byte) :=
  let ds := (List.range b.d).map fun d => let c := dataChunk x d; c ++ zeros (chunkLen - c.length)
  (parPos b x.no 0, parityP ds) :: if b.p = 2 then [(parPos b x.no 1, parityQ ds)] else []

/-- Send a stripe's parity chunks (R443). [DESIGN CHOICE: log entry 63] -/
def sendParity (b : Band) (n : Nat) (s : State) : State :=
  match stripeAt b.no n s with
  | none => s
  | some x => forEach (parityOf b x) (fun c t => sendChunk b n c.1 c.2 t) (putStripe { x with parity := true } s)

/-- PARITY_SEND (R441, R443, R447, R449, R488): after data position D − 1; of a stripe completed from its record, once the content of every
data chunk is known. -/
def execParitySend (band stripe : Nat) (s : State) : Res :=
  live s (
    match bandOf band s, stripeAt band stripe s with
    | some b, some x =>
      let sent := (List.range b.d).all fun d => x.chunks.getD (dataPos b stripe d) .open_ != .open_
      let known := !x.recover || (List.range b.d).all fun d =>
        let c := x.chunks.getD (dataPos b stripe d) .open_
        c == .programmed || c == .failed
      if !running .par s || !onF F.parCtrlParityEn s || !x.closed || x.parity || !x.held || !sent || !known then s else sendParity b stripe s
    | _, _ => s)

/-- STRIPE_COMPLETE (R211, R408, R443, R444, R446). -/
def execStripeComplete (band stripe : Nat) (s : State) : Res :=
  live s (
    match bandOf band s, stripeAt band stripe s with
    | some b, some x =>
      if !x.parity || !chunksDone x then s
      else
        let here := fun (u : Nat) => uBand u == band && uStripe b u == stripe
        let s := count .par 0x01 1 (dropStripe band stripe s)
        let s := { s with ftu.blocks := s.ftu.blocks.map fun k => if k.copy != 0 && here k.copy then { k with spilled := true } else k }
        packAll (durCheck s)
    | _, _ => s)

/-- STRIPE_CLOSE_DEADLINE (R212, R423). -/
def execStripeCloseDeadline (band stripe : Nat) (s : State) : Res :=
  live s (
    match stripeAt band stripe s with
    | none => s
    | some x => if !x.closed && x.dueAt.any fun t => decide (t ≤ s.now) then closeStripe band stripe true s else s)

/-- The stripe as its journal record completes it: positions that were not accepted are zeros, and the last one holds the
summary (R449). -/
def completed (b : Band) (x : Stripe) (s : State) : Stripe :=
  let acc := fun (d : Nat) => let c := x.chunks.getD (dataPos b x.no d) .open_; c == .accepted || c == .programmed
  let keep := x.items.filter fun i =>
    (uParts b (uaddrOf b.no i.1 1 0)).all fun p => acc p.1
  let y := { x with items := keep, closed := true, early := true, degraded := x.degraded }
  let raw := (List.range b.d).flatMap fun d =>
    let c := if acc d then dataChunk x d else []
    c ++ zeros (chunkLen - c.length)
  let sm := if acc (b.d - 1) then [] else summary b y true s
  { y with stream := raw.take (b.d * chunkLen - sm.length) ++ sm, held := true, recover := true, parity := false }

/-- Units of a stripe with bytes at a data position (R449, R459). -/
def unitsAt (b : Band) (n d : Nat) (s : State) : List Nat :=
  (s.ftu.back.filter fun p => uBand p.1 == b.no && uStripe b p.1 == n && (uParts b p.1).any fun q => q.1 == d).map (·.1)

/-- Complete a destage stripe's record (R449). -/
def completeStripe (b : Band) (x : Stripe) (unreadable : List Nat) (s : State) : State :=
  let acc := fun (d : Nat) => let c := x.chunks.getD (dataPos b x.no d) .open_; c == .accepted || c == .programmed
  let bad := unreadable.filter fun d => decide (d < b.d) && acc d
  let y := completed b x s
  let y := { y with chunks := bad.foldl (fun l d => l.set (dataPos b x.no d) .failed) y.chunks, degraded := y.degraded || !bad.isEmpty }
  let s := restoreUnits (fun u => uBand u == b.no && uStripe b u == x.no && (uParts b u).any fun p => !acc p.1) s
  let s := if x.closed then s else modBand b.no (fun b => { b with stripes := b.stripes + 1 }) s
  let s := if x.early then s else count .par 0x02 1 s
  let s := putStripe y s
  let s := forEach ((List.range b.d).filter fun d => !acc d && y.chunks.getD (dataPos b x.no d) .failed != .failed)
    (fun d t => sendChunk b x.no (dataPos b x.no d) (dataChunk y d) t) s
  let s := sealBand b.no true s
  let failed := (y.chunks.filter fun c => c == .failed).length
  if b.p < failed then forEach (bad.flatMap fun d => unitsAt b x.no d s) (fun u t => loseStored u 3 t) s else s

/-- OPEN_STRIPE_COMPLETE (R429, R449, R459, R468): of a record that no PAR holds. -/
def execOpenStripeComplete (band stripe : Nat) (unreadable : List Nat) (s : State) : Res :=
  live s (
    match bandOf band s, stripeAt band stripe s with
    | some b, some x =>
      if !running .par s || !running .ftu s || x.held || !b.mine then s
      else if x.isGc || x.isMeta then abandonStripe band stripe s
      else if !onF F.parCtrlParityEn s then s
      else completeStripe b x unreadable s
    | _, _ => s)

/-! Members (R448, R451–R455). -/

/-- Drop what is outstanding for a member: its reads are taken as unreadable, its programs as failed (R448, R450). -/
def dropMemberCmds (m : Nat) (s : State) : State :=
  let mine := (s.mods.cmds ++ s.mods.waiting).filter fun c => c.m == m
  let s := { s with mods.cmds := s.mods.cmds.filter (fun c => c.m != m), mods.waiting := s.mods.waiting.filter (fun c => c.m != m),
                    mods.cas := s.mods.cas.filter fun c => c.m != m || c.done }
  forEach mine (fun c t => match c.for_ with
    | .read r pos => readAdvance r (readGone r pos false t)
    | _ => t) s

/-- The chunks of stripes in flight on a member that are not programmed count as failed; units not accepted are stored
again (R288, R448). -/
def failChunks (m : Nat) (b : Band) (s : State) : State :=
  match (List.range b.members.length).find? fun i => (b.members.getD i (99, [])).1 == m with
  | none => s
  | some pos =>
    let s := restoreUnits (fun u => uBand u == b.no && !unitAccepted u s && (uParts b u).any fun p => dataPos b (uStripe b u) p.1 == pos) s
    forEach (s.par.stripes.filter fun x => x.band == b.no && x.chunks.getD pos .programmed != .programmed)
      (fun x t => setChunk b.no x.no pos .failed t) s

/-- A member becomes Failed on this head (R448, R454, R456). -/
def memberFail (m : Nat) (s : State) : State :=
  let s := putMem m { memOf m s with st := .failed, declared := s.now } s
  let s := setInt .par I.parMemberFailed (note .par E.parMemberFailed 0xFF s)
  let s := dropMemberCmds m s
  let bs := s.ftu.bands.filter fun b => b.members.any fun x => x.1 == m
  let s := forEach bs (fun b t =>
    let t := modBand b.no (fun b => { b with degraded := true }) (failChunks m b t)
    if b.st == .open_ && b.mine then cutBand b.no t else t) s
  let due := s.now + 1000000000 * getF F.parRebuildDelayS s
  { s with par.rebuilds := (s.par.rebuilds.filter fun r => r.member != m) ++ [{ member := m, started := false, dueAt := due }] }

/-- A member becomes Retiring (R454, R456). -/
def memberRetire (m : Nat) (s : State) : State :=
  let s := putMem m { memOf m s with st := .retiring, declared := s.now } s
  let due := s.now + 1000000000 * getF F.parRebuildDelayS s
  { s with par.rebuilds := (s.par.rebuilds.filter fun r => r.member != m) ++ [{ member := m, started := false, dueAt := due }] }

/-- A member can still be declared Failed, or Retiring (R454). -/
def canFail (m : Nat) (s : State) : Bool := (memOf m s).st == .present || (memOf m s).st == .retiring
def canRetire (m : Nat) (s : State) : Bool := (memOf m s).st == .present

/-- Declare a member Failed here and to the peer (R453, R455). -/
def declareFail (m : Nat) (s : State) : State := memberFail m (sendTroys (.member m 3) s)

/-- Command timeouts of a member within the last second (R453). -/
def recentTimeouts (m : Nat) (s : State) : List Nat := (memOf m s).timeouts.filter fun t => decide (s.now - t < 1000000000)

/-- A command to a member exceeded its timeout (R453); `ten` says that it exceeded ten times. -/
def timedOut (m : Nat) (ten : Bool) (s : State) : State :=
  let s := if ten then s else note .par E.parMemberTimeout 0xFF s
  let x := memOf m s
  putMem m { x with timeouts := if ten then recentTimeouts m s else recentTimeouts m s ++ [s.now], fatal := x.fatal || ten } s

/-- MEMBER_TIMEOUT in ns. -/
def memTimeout (s : State) : Nat := 1000 * getF F.parTimeoutMemberTimeout s

/-- MEMBER_TIMEOUT (R451–R453): a read is taken around its member; at ten times the timeout the member is due to fail. -/
def execMemberTimeout (m q cid : Nat) (s : State) : Res :=
  live s (
    match ymOf m q cid s with
    | none => s
    | some c =>
      let lateBy := fun (k : Nat) => decide (k * memTimeout s < s.now - c.issued)
      match c.for_ with
      | .read r pos =>
        if c.late then (if lateBy 10 then timedOut m true s else s)
        else if !lateBy 1 || !running .par s then s
        else
          let mine := fun (d : YmCmd) => d.m == m && d.q == q && d.cid == cid
          let s := timedOut m (lateBy 10) (timedOut m false { s with mods.cmds := modFirst mine (fun d => { d with late := true }) s.mods.cmds })
          let x := memOf m s
          let s := putMem m { x with arounds := min 65535 (x.arounds + 1) } s
          readGone r pos true (count .par 0x03 1 (note .par E.parReadAround 0xFF s))
      | _ => s)

/-- PROGRAM_ERASE_TIMEOUT (R451, R453). -/
def execProgramEraseTimeout (m q cid : Nat) (tenfold : Bool) (s : State) : Res :=
  live s (
    match ymOf m q cid s with
    | none => s
    | some c =>
      let rated := (recOf m s).elim 0 fun r => if c.opc = 3 then r.tProgMax else r.tEraseMax
      let lim := memTimeout s + 1000 * rated
      if !(c.opc == 3 || c.opc == 4) || s.now ≤ c.issued + (if tenfold then 10 else 1) * lim || (c.late && !tenfold) then s
      else timedOut m tenfold { s with mods.cmds := modFirst (fun d => d.m == m && d.q == q && d.cid == cid) (fun d => { d with late := true }) s.mods.cmds })

/-- MEMBER_FAILED (R448, R453): three timeouts within a second, one tenfold timeout, or a fatal status. -/
def execMemberFailed (m : Nat) (s : State) : Res :=
  live s (if canFail m s && ((memOf m s).fatal || 3 ≤ (recentTimeouts m s).length) then declareFail m s else s)

/-- MEMBER_DECLARE_FAILED (R453): PAR_MEM_CMD.CMD = 1 for the selected module. -/
def execMemberDeclareFailed (s : State) : Res :=
  live s (regWrite .par (fun s => let m := getF F.parMemSelModule s; if canFail m s then declareFail m s else s) s)

/-- MEMBER_DECLARE_RETIRING (R454): PAR_MEM_CMD.CMD = 2. -/
def execMemberDeclareRetiring (s : State) : Res :=
  live s (regWrite .par (fun s =>
    let m := getF F.parMemSelModule s
    if canRetire m s then memberRetire m (sendTroys (.member m 2) s) else s) s)

/-- MEMBER_DECLARATION (R455): the peer's; the more severe state holds. -/
def execMemberDeclaration (m state : Nat) (s : State) : Res :=
  live s (if state = 3 && canFail m s then memberFail m s else if state = 2 && canRetire m s then memberRetire m s else s)

/-- MEMBER_GRACE_EXPIRY (R453): the port has been down for GRACE_S on both heads. -/
def execMemberGraceExpiry (m : Nat) (peerDownToo : Bool) (s : State) : Res :=
  live s (
    let grace := 1000000000 * getF F.parGraceGraceS s
    if canFail m s && peerDownToo && !onF (F.mptLinkStatUp m) s && (memOf m s).downAt.any fun t => decide (grace ≤ s.now - t) then declareFail m s
    else s)

/-! Rebuild (R456–R458). -/

/-- Members whose rebuild has started. -/
def rebuilding (s : State) : List Nat := (s.par.rebuilds.filter (·.started)).map (·.member)

/-- Failed members of a band. -/
def failedIn (b : Band) (s : State) : Nat := (b.members.filter fun x => (memOf x.1 s).st == .failed).length

/-- Own bands that wait for a rebuild. -/
def rebuildList (s : State) : List Band :=
  s.ftu.bands.filter fun b => b.mine && (b.st == .open_ || b.st == .sealed_) && b.members.any fun x => (rebuilding s).contains x.1

/-- Place of a band in the order of R456. -/
def rebuildRank (b : Band) (s : State) : Nat :=
  let f := failedIn b s
  (if b.p ≤ f then 0 else if 0 < f then 2 else 4) + b2n (!b.isMeta && 0 < f)

/-- The first band to rebuild (R456). -/
def rebuildNext (s : State) : Option Band :=
  (rebuildList s).foldl (fun (m : Option Band) b => match m with
    | none => some b
    | some c => if rebuildRank b s < rebuildRank c s || (rebuildRank b s == rebuildRank c s && decide (b.bseq < c.bseq)) then some b else some c) none

/-- The free fraction leaves no room for rebuild (R458). -/
def rebuildTight (s : State) : Bool := decide (freePm s ≤ getF F.ftuSpaceGcResPct s * 10)

/-- REBUILD_PLAN_TICK (R456, R458, R466): the planning step notes a rebuild that waits for space. -/
def execRebuildPlanTick (s : State) : Res :=
  live s (if running .par s && onF F.parCtrlRebuildEn s && rebuildTight s && !(rebuildList s).isEmpty then note .par E.parRebuildSpace 0xFF s else s)

/-- REBUILD_START (R456). -/
def execRebuildStart (m : Nat) (s : State) : Res :=
  live s (
    if running .par s && onF F.parCtrlRebuildEn s && s.par.rebuilds.any fun r => r.member == m && !r.started && decide (r.dueAt ≤ s.now) then
      { s with par.rebuilds := modFirst (fun r => r.member == m) (fun r => { r with started := true }) s.par.rebuilds }
    else s)

/-- REBUILD_BAND (R456–R459): the first band in order, once its stripes are complete; an Open one is sealed first. -/
def execRebuildBand (band : Nat) (s : State) : Res :=
  live s (
    match rebuildNext s with
    | none => s
    | some b =>
      if !running .par s || !running .ftu s || !onF F.parCtrlRebuildEn s || b.no != band || rebuildTight s then s
      else if b.st = .open_ then sealBand band true s
      else if bandQuiet band s then collect band true s else s)

/-- MEMBER_RELEASED (R454, R457, R458): no band of either head names it. -/
def execMemberReleased (m : Nat) (s : State) : Res :=
  live s (
    let x := memOf m s
    if !(x.st == .failed || x.st == .retiring) || s.ftu.bands.any fun b => b.st != .forwarded && b.members.any fun y => y.1 == m then s
    else
      let s := putMem m { x with st := .released } (sendTroys (.member m 4) s)
      setInt .par I.parRebuildDone
        { s with par.rebuilds := s.par.rebuilds.filter fun r => r.member != m,
                 ftu.eblk := tcut s.ftu.eblk (blockKey m 0) (blockKey (m + 1) 0),
                 ftu.extents := tcut s.ftu.extents (65536 * m) (65536 * (m + 1)) })

/-! The lost-extent log and patrol (R462–R465). -/

/-- LOST_LOG_ACK (R463): a write of PAR_LOST_ACK. -/
def execLostLogAck (n : Nat) (s : State) : Res :=
  live s (regWrite .par (fun s =>
    if n = 0 || s.par.lost.length < n then s
    else setF F.parLostStatOverflow 0 { s with par.lost := s.par.lost.drop n }) s)

/-- Stripes that a sweep covers (R464). -/
def patrolSet (s : State) : List (Nat × Nat) :=
  (s.ftu.bands.filter fun b => b.mine && (b.st == .open_ || b.st == .sealed_ || b.st == .collecting)).flatMap fun b =>
    ((List.range b.stripes).filter fun n => (stripeAt b.no n s).isNone).map fun n => (b.no, n)

/-- The stripe's members can all be read (R465). -/
def stripeReadable (b : Band) (n : Nat) (s : State) : Bool :=
  (List.range (bandW b)).all fun pos => (chunkAt b n pos s).any fun c => reachable c.1 s

/-- What patrol does about a mismatch (R465): `oneChunk` is the data position taken as wrong, `failing` the units that still fail
R329. -/
def patrolSettle (b : Band) (n : Nat) (oneChunk : Option Nat) (allUnitsPass : Bool) (failing : List Nat) (s : State) : State :=
  let s := relocPush b.no true (count .par 0x06 1 (raise .par E.parPatrolMismatch 0xFF s))
  let mark := fun (t : State) => match oneChunk with
    | some d => modBand b.no (fun b => { b with wrong := b.wrong ++ [(n, d)] }) t
    | none => t
  if b.p = 2 && oneChunk.isSome then mark s
  else if allUnitsPass then s
  else forEach (failing.filter fun u => uBand u == b.no && uStripe b u == n) (fun u t => loseStored u 2 t) (mark s)

/-- PATROL_STRIPE (R432, R464, R465). -/
def execPatrolStripe (band stripe : Nat) (mismatch : Bool) (oneChunk : Option Nat) (allUnitsPass : Bool) (failing : List Nat) (s : State) : Res :=
  live s (
    match bandOf band s with
    | none => s
    | some b =>
      if !running .par s || !onF F.parCtrlPatrolEn s || !winOpen 1 s || !bgOk s || !(patrolSet s).contains (band, stripe) ||
          s.par.swept.contains (band, stripe) then s
      else
        let s := { s with par.swept := s.par.swept ++ [(band, stripe)] }
        let s := if !stripeReadable b stripe s then s
          else
            let s := count .par 0x05 1 s
            if mismatch then patrolSettle b stripe oneChunk allUnitsPass failing s else s
        if (patrolSet s).all fun p => s.par.swept.contains p then
          setInt .par I.parSweepDone (incF F.parPatrolStatSweeps { s with par.swept := [], par.sweepAt := s.now })
        else s)

/-- PATROL_PERIOD_END (R464): a sweep that has not ended is late. -/
def execPatrolPeriodEnd (s : State) : Res :=
  live s (
    if running .par s && onF F.parCtrlPatrolEn s && decide (3600000000000 * getF F.parPatrolPeriodH s ≤ s.now - s.par.sweepAt) then
      note .par E.parPatrolLate 0xFF { s with par.sweepAt := s.now }
    else s)

end Sys2Proof.Machine
end

