-- ==== Sys2Proof/Machine/Modules.lean ====
section
/-! DEFINITION. Module ports: links, fences, admission, completions of module commands (R469–R498). -/

namespace Sys2Proof.Machine

/-! Fences (R490–R493, R580, R581). -/

/-- This head serves ANA groups: once its role is decided, with a group of its own (R643). -/
def servesGroups (s : State) : Bool := s.pair.role != .none_ && s.hqe.groups.any (·.mine)

/-- A fence of R492 or R644 is being carried out. -/
def fencing (s : State) : Bool := s.mods.cas.any fun c => !c.done

/-- Show a value of YM_FENCE (R493). -/
def fenceShow (m v : Nat) (s : State) : State :=
  setF (F.mptFenceHolder m) (v / 2 ^ 31 % 2) (setF (F.mptFenceGen m) (v % 2 ^ 31) s)

/-- The result of a fence, 1 WON, 2 LOST, 3 UNREACHABLE (R492, R507). -/
def fenceResult (m r : Nat) (s : State) : State := setInt (.mpt m) I.mptFenceDone (setF (F.mptFenceResResult m) r s)

/-- Issue a compare-and-swap: the compare value is the last value seen, or that of the fence that has not been settled (R492,
R580). [DEDUCED: log entry 61] -/
def fenceIssue (m : Nat) (s : State) : State :=
  let old := s.mods.cas.find? fun c => c.m == m && !c.won
  let cmp := match old with
    | some c => c.compare
    | none => fenceWord m s
  let swp := (cmp + 1) % 2 ^ 31 + 2 ^ 31 * (s.pins.headSel % 2)
  let tried := (old.elim [] (·.tried)) ++ [swp]
  { s with mods.cas := (s.mods.cas.filter fun c => c.m != m) ++
      [{ m := m, compare := cmp, swap := swp, tried := tried, at_ := s.now, done := false, won := false }] }

/-- A fence of a module whose link is down: UNREACHABLE, to be fenced before any command is sent (R492, R580).
[DEDUCED: log entry 61] -/
def fenceUnreachable (m : Nat) (s : State) : State :=
  let s := if s.mods.cas.any (fun c => c.m == m && !c.won) then
      { s with mods.cas := modAll (fun c => c.m == m) (fun c => { c with done := true }) s.mods.cas }
    else { s with mods.cas := (s.mods.cas.filter fun c => c.m != m) ++
        [{ m := m, compare := fenceWord m s, swap := 0, tried := [], at_ := s.now, done := true, won := false }] }
  fenceResult m 3 s

/-- A head that another has fenced out (R581). [DEDUCED: log entry 61] -/
def fencedOut (s : State) : State := raise .mir E.mirFenceLost 0xFF s

/-- A reading of YM_FENCE (R493, R581). [DEDUCED: log entry 61] -/
def fenceRead (m v : Nat) (s : State) : State :=
  let peerMade := v / 2 ^ 31 % 2 != s.pins.headSel % 2
  if servesGroups s && !fencing s && getF (F.mptFenceResResult m) s != 3 && (recOf m s).isSome && peerMade &&
      decide (getF (F.mptFenceGen m) s < v % 2 ^ 31) then fencedOut s
  else fenceShow m v s

/-- A command completed with STALE_FENCE: it is submitted again with the new GEN, or the head has been fenced out (R484, R492,
R581). [DEDUCED: log entry 59] -/
def staleCmd (c : YmCmd) (s : State) : State :=
  let s := note (.mpt c.m) E.mptStale 0xFF s
  if servesGroups s && c.gen = getF (F.mptFenceGen c.m) s && !casBusy c.m s then fencedOut s
  else ymSend { c with accepted := false, late := false } (incSatF (F.mptFenceResReissued c.m) 1 s)

/-! Links (R448, R472, R473, R493). -/

/-- What was outstanding for a member whose link is lost: reads are unreadable there, programs have failed, erases wait for the
link; its Open bands are treated as if it were Failed (R448, R450, R473); after a reset of the port programs are handled as
PROGRAM_FAIL (R507). [DEDUCED: log entry 59] -/
def linkLost (m : Nat) (s : State) : State :=
  let reset := blockDown (.mpt m) s
  let mine := (s.mods.cmds ++ s.mods.waiting).filter fun c => c.m == m
  let keep := mine.filter fun c => c.opc == 4 || c.opc == 5
  let cas := s.mods.cas.any fun c => c.m == m && !c.done
  let s := { s with mods.cmds := s.mods.cmds.filter (fun c => c.m != m),
                    mods.waiting := (s.mods.waiting.filter fun c => c.m != m) ++ keep }
  let s := if cas then fenceUnreachable m s else s
  let s := forEach mine (fun c t => match c.for_ with
    | .read r pos => readAdvance r (readGone r pos false t)
    | .program b n pos => if reset then chunkFail b n pos t else t
    | _ => t) s
  let s := forEach (s.ftu.bands.filter fun b => b.members.any fun x => x.1 == m) (fun b t =>
    let t := failChunks m b t
    if b.st == .open_ && b.mine then cutBand b.no (modBand b.no (fun b => { b with degraded := true }) t) else t) s
  if (memOf m s).st = .released then putMem m { memOf m s with st := .absent } s else s

/-- A command or a fence of the module is unanswered. [DEDUCED: log entry 59] -/
def unanswered (m : Nat) (s : State) : Bool := s.mods.cmds.any (fun c => c.m == m) || s.mods.cas.any fun c => c.m == m && !c.done

/-- Take a module link down. [DEDUCED: log entry 60] -/
def mptDown (m : Nat) (s : State) : State :=
  if onF (F.mptLinkStatUp m) s || unanswered m s then linkLost m (mptGone m s) else s

/-- MPT_PERST (R472): a module in reset has no link. -/
def execMptPerst (m : Nat) (assert : Bool) (s : State) : Res :=
  live s (regWrite (.mpt m) (fun s =>
    let s := flagF (F.mptLinkCtrlPerst m) assert s
    if assert then mptDown m s else s) s)

/-- MPT_LINK_UP (R470, R472, R493, R580): speed and width as trained; the fence is read, and a module that could not be fenced
is fenced first. [DESIGN CHOICE: log entry 23; DEDUCED: log entry 60] -/
def execMptLinkUp (m speed width : Nat) (flit : Bool) (fence : Nat) (s : State) : Res :=
  live s (
    if onF (F.mptLinkStatUp m) s || onF (F.mptLinkCtrlPerst m) s || blockDown (.mpt m) s || speed = 0 || width = 0 then s
    else
      let s := mptDown m s
      let s := setF (F.mptLinkStatSpeed m) (min speed (getF (F.mptLinkCtrlMaxSpeed m) s)) (setF (F.mptLinkStatWidth m) (min width 2) s)
      let s := setInt (.mpt m) I.mptLinkUp (flagF (F.mptLinkStatFlit m) flit (setF (F.mptLinkStatUp m) 1 s))
      let s := { s with par.members := tmod s.par.members m fun x => { x with downAt := none } }
      let owed := getF (F.mptFenceResResult m) s = 3
      let s := if owed then fenceIssue m s else s
      ymPump m (fenceRead m fence s))

/-- MPT_LINK_DOWN (R448, R450, R473). [DEDUCED: log entry 60] -/
def execMptLinkDown (m : Nat) (s : State) : Res := live s (mptDown m s)

/-! Admission (R454, R455, R495–R498). -/

/-- The record and the register block pass R496. [DEDUCED: log entry 62] -/
def admitOk (r : ModRec) (y : YmRegs) : Bool :=
  r.crcOk && r.magic == 0x494D4B48 && r.version == 1 && r.major == 1 &&
  y.id == 0x4D594B48 && y.ver == 0x100 && y.cap % 32 == 15 && y.cap / 256 % 256 == 8 &&
  r.holdup && bit y.stat 3 && decide (r.pusPerBlock ≤ 2048) && decide (73728 ≤ r.puBytes) &&
  decide (r.luns * r.blocksPerLun * r.pusPerBlock * 65536 ≤ 2 ^ 48)

/-- SERIAL and bytes 44–59 agree (R497). [DEDUCED: log entry 62] -/
def sameModule (a b : ModRec) : Bool :=
  a.serial == b.serial && a.luns == b.luns && a.planes == b.planes && a.blocksPerLun == b.blocksPerLun &&
  a.pusPerBlock == b.pusPerBlock && a.sysBlocks == b.sysBlocks && a.puBytes == b.puBytes

/-- Admit a new module: In service, new erase block table entries, its bad list asked for, its blocks erased (R418, R455, R497,
R498). [DEDUCED: log entry 62] -/
def admitNew (m : Nat) (r : ModRec) (s : State) : State :=
  let s := putMem m { st := .present, serial := r.serial, timeouts := [], arounds := 0, declared := 0, downAt := none, fatal := false } s
  let s := { s with mods.mir := tset s.mods.mir m r, ftu.eblk := tcut s.ftu.eblk (blockKey m 0) (blockKey (m + 1) 0),
                    mods.sysRecs := if s.mods.sysRecs.length < 3 && !s.mods.sysRecs.contains m then s.mods.sysRecs ++ [m] else s.mods.sysRecs }
  let s := ymSend (ymCmd m 5 0 0 0 0 .badList) s
  let s := forEach (freeBlocks m s) (fun b t => ymSend (ymCmd m 4 b 0 0 0 (.erase 0)) (setBlk m b 2 t)) s
  modeEval false s

/-- A record read on the sideband of a module that takes part: the same module goes on with it, a different one is a new
module, for which the member fails first (R455, R497). -/
def recordRead (m : Nat) (r : ModRec) (s : State) : State :=
  let st := (memOf m s).st
  match recOf m s with
  | some o =>
    if sameModule o r then { s with mods.mir := tset s.mods.mir m r }
    else if st = .present || st = .retiring then declareFail m s else s
  | none => s

/-- MODULE_ADMIT (R454, R472, R493, R496–R498). [DEDUCED: log entry 62] -/
def execModuleAdmit (m : Nat) (rec : ModRec) (ym : YmRegs) (s : State) : Res :=
  live s (
    if !onF (F.mptLinkStatUp m) s || !running (.mpt m) s then s
    else
      let s := flagF (F.mptModStatI3c m) rec.i3c (setF (F.mptModStatYstat m) (ym.stat / 2 % 32)
        (flagF (F.mptModStatMirValid m) (rec.crcOk && rec.magic == 0x494D4B48) s))
      if !admitOk rec ym then note (.mpt m) E.mptAdmitRefused 0xFF s
      else
        let st := (memOf m s).st
        let s := flagF (F.mptModStatAdmitted m) true s
        if st = .absent || st = .released then admitNew m rec s else recordRead m rec s)

/-- MODULE_ALERT (R494, R497): in I3C mode the record is read again. -/
def execModuleAlert (m : Nat) (rec : ModRec) (s : State) : Res :=
  live s (
    if !onF (F.mptModStatI3c m) s then s
    else
      let s := setInt (.mpt m) I.mptAlert s
      if rec.crcOk && rec.magic = 0x494D4B48 then recordRead m rec (flagF (F.mptModStatMirValid m) true s)
      else flagF (F.mptModStatMirValid m) false (note (.mpt m) E.mptSbErr 0xFF s))

/-- SIDEBAND_POLL (R453, R474, R494): YM_STAT of a module in SMBus-compatible mode; FATAL is a fatal status. -/
def execSidebandPoll (m ystat : Nat) (s : State) : Res :=
  live s (
    if onF (F.mptModStatI3c m) s || !onF (F.mptModStatAdmitted m) s then s
    else
      let s := setF (F.mptModStatYstat m) (ystat / 2 % 32) s
      if bit ystat 1 then putMem m { memOf m s with fatal := true } s else s)

/-! Completions (R430, R450, R475–R489, R498). -/

/-- An ERASE is done: ERASES rises, and a worn block is retired (R419). -/
def eraseOk (c : YmCmd) (band : Nat) (s : State) : State :=
  let e := blkOf c.m c.block s
  let s := putBlk c.m c.block { e with erases := e.erases + 1, st := if band = 0 && e.st = 2 then 0 else e.st } s
  if (recOf c.m s).any fun r => decide (r.ratedErases ≤ e.erases + 1) then note .ftu E.ftuBlockWorn 0xFF (retireBlk c.m c.block 3 s) else s

/-- A status other than SUCCESS or STALE_FENCE of a READ, ERASE or BAD_LIST (R430, R450, R453, R481, R489). -/
def ymError (c : YmCmd) (status : Nat) (s : State) : State :=
  let s := note (.mpt c.m) E.mptCmdErr 0xFF s
  let s := if status = 11 then retireBlk c.m c.block 4 s else s
  let s := if status = 0xFF then putMem c.m { memOf c.m s with fatal := true } s else s
  let s := match c.for_ with
    | .read r pos => readAdvance r (readGone r pos false s)
    | .erase _ =>
      if status = 7 then note .ftu E.ftuEraseFail 0xFF (retireBlk c.m c.block 2 s)
      else if status = 11 || status = 0xFF then s else { s with mods.waiting := s.mods.waiting ++ [c] }
    | _ => s
  if 1 ≤ status && status ≤ 3 then raise (.mpt c.m) E.mptProtoErr 0xFF s else s

/-- YM_COMPLETION (R418, R419, R427, R450, R475–R489, R498): of a READ, an ERASE or a BAD_LIST, whose list is `detail`. -/
def execYmCompletion (m q cid status : Nat) (detail : List Nat) (s : State) : Res :=
  live s (
    match ymOf m q cid s with
    | none => s
    | some c =>
      if c.opc = 3 || !onF (F.mptLinkStatUp m) s then s
      else
        let s := ymEnd c s
        if status = 4 then staleCmd c s
        else if status != 0 then ymError c status s
        else match c.for_ with
        | .read r _ =>
          let s := count (.mpt m) 0x05 ((if c.opc = 2 then 13824 else 4608) * c.cws) s
          modURead r (fun x =>
            let new := ((List.range c.cws).map fun k => (m, c.block, c.pu, c.cw + k)).filter fun w => !x.cws.contains w
            { x with cws := x.cws ++ new }) s
        | .erase b => eraseOk c b s
        | .badList => forEach detail (fun b t => retireBlk m b 4 t) s
        | _ => s)

/-- PROGRAM_ACCEPTED (R260, R443, R483): the image is in the module's hold-up-protected buffer. -/
def execProgramAccepted (m q cid : Nat) (s : State) : Res :=
  live s (
    match ymOf m q cid s with
    | none => s
    | some c => match c.for_ with
      | .program b n pos =>
        if c.accepted || !onF (F.mptLinkStatUp m) s then s
        else setChunk b n pos .accepted
          { s with mods.cmds := modFirst (fun d => d.m == m && d.q == q && d.cid == cid) (fun d => { d with accepted := true }) s.mods.cmds }
      | _ => s)

/-- The image of a failed head lies in the chunk already: it is read, and counts as the chunk's content; its bytes are a free
value here (R488). [DESIGN CHOICE: log entry 63] -/
def takeContent (b n pos : Nat) (s : State) : State :=
  match bandOf b s, stripeAt b n s with
  | some bd, some x =>
    let s := match (List.range bd.d).find? fun d => dataPos bd n d == pos with
      | none => s
      | some d =>
        let c := drawBytes chunkLen s
        putStripe { x with stream := x.stream.take (d * chunkLen) ++ c.1 ++ x.stream.drop ((d + 1) * chunkLen) } c.2
    setChunk b n pos .programmed s
  | _, _ => s

/-- PROGRAM_FINAL (R430, R443, R447, R481, R483, R484, R486, R488, R489): an accepted program succeeds or fails; one refused
before acceptance carries the refusal. [DESIGN CHOICE: log entry 63] -/
def execProgramFinal (m q cid status : Nat) (s : State) : Res :=
  live s (
    match ymOf m q cid s with
    | none => s
    | some c => match c.for_ with
      | .program b n pos =>
        if !onF (F.mptLinkStatUp m) s || (status == 0) && !c.accepted then s
        else
          let s := ymEnd c s
          if status = 0 then durCheck (setChunk b n pos .programmed s)
          else if status = 4 then staleCmd c s
          else
            let s := note (.mpt m) E.mptCmdErr 0xFF s
            if status = 5 && !c.again then ymSend { c with again := true } s
            else if status = 9 && (stripeAt b n s).any (·.recover) then takeContent b n pos s
            else if status = 0xFF then putMem m { memOf m s with fatal := true } (setChunk b n pos .failed s)
            else
              let s := if status = 11 then retireBlk m c.block 4 s else s
              let s := chunkFail b n pos s
              if 1 ≤ status && status ≤ 3 then raise (.mpt m) E.mptProtoErr 0xFF s else s
      | _ => s)

/-- SYSTEM_RECORD_MOVE (R242, R498): the records go to the next lowest-numbered member In service. -/
def execSystemRecordMove (s : State) : Res :=
  live s (
    let keep := s.mods.sysRecs.filter fun m => (inSvc s).contains m
    let more := (inSvc s).filter fun m => !keep.contains m
    if keep.length = s.mods.sysRecs.length then s
    else { s with mods.sysRecs := keep ++ more.take (3 - keep.length) })

end Sys2Proof.Machine
end

