-- ==== Sys2Proof/Machine/Eph.lean ====
section
/-! DEFINITION. Time: the servo, PTP, PPS and set requests, and the background windows (R179–R182, R508–R514, R520). -/

namespace Sys2Proof.Machine

/-! The servo (R509–R512). -/

/-- EPH changes state (R510, R553). -/
def ephState (v : Nat) (s : State) : State :=
  if getF F.ephStatState s = v then s else setInt .eph I.ephStateChange (setF F.ephStatState v s)

/-- Two's complement of a number in `n` bits, saturating. -/
def twos (n : Nat) (v : Int) : Nat :=
  let m : Int := 2 ^ (n - 1)
  ((min (m - 1) (max (1 - m) v)) % (2 ^ n : Int)).toNat

/-- The number a two's complement field holds. [DEDUCED: log entry 65] -/
def signed (n v : Nat) : Int := if v < 2 ^ (n - 1) then v else (v : Int) - 2 ^ n

/-- A time moved by an amount, in whole steps of 8 ns (R508). -/
def moveTime (t : Nat) (d : Int) : Nat := ((t : Int) + d).toNat / 8 * 8

/-- A PPS_IN edge arrived in the last 2 s. -/
def ppsRecent (s : State) : Bool := s.eph.lastPps.any fun t => decide (s.now - t < 2000000000)

/-- PPS_IN gives phase (R509). -/
def ppsPhase (s : State) : Bool :=
  ppsRecent s && (getF F.ephCtrlSrc s == 2 || (getF F.ephCtrlSrc s == 1 && !onF F.ephStatPpsDisagree s))

/-- The timestamp error of the source (R181, R511): 4 ns at 400 GbE, 8 ns at 200 GbE or from PPS_IN. -/
def srcErr (s : State) : Nat :=
  if ppsPhase s then 8
  else match ptpBest s with
    | some p => if getF (F.fabLinkStatSpeed p) s = 2 then 4 else 8
    | none => 8

/-- What the selected source gives: a measured offset, unless no source is there (R509). [DEDUCED: log entry 65] -/
def srcOffset (o : Option Int) (s : State) : Option Int :=
  if getF F.ephCtrlSrc s ≤ 1 then (if (ptpBest s).isSome then o else none)
  else if getF F.ephCtrlSrc s = 2 && ppsRecent s && !timeUnset s then o else none

/-- Every source is lost, or stays lost (R510–R512). -/
def holdover (s : State) : State :=
  let st := getF F.ephStatState s
  if st = 1 || st = 2 then
    note .eph E.ephSrcLost 0xFF (ephState 3 { s with eph.holdSince := some s.now, eph.slew := 0, eph.good := 0 })
  else if st = 3 && decide (getF F.ephTerrMaxTerrMax s < terrNow s) then note .eph E.ephFreeRun 0xFF (ephState 4 s)
  else s

/-- A measured offset of EPH from its source (R510–R512): time is taken from Unset; a small offset is slewed off, one of 1 ms or more
stepped off. The frequency estimate is a free value. [DEDUCED: log entry 65] -/
def servo (o : Int) (s : State) : State :=
  let st := getF F.ephStatState s
  let d := drawNat s
  let s := setF F.ephFreqFreq d.1 (setF F.ephOffsetOffset (twos 32 o) d.2)
  let a := o.natAbs
  let s := { s with eph.terr := a + srcErr s, eph.holdSince := none }
  if st = 0 then ephState 1 { s with eph.time := moveTime s.eph.time (-o), eph.good := 0, eph.slew := 0 }
  else
    let s := if a < 1000000 then { s with eph.slew := o }
      else note .eph E.ephStepped 0xFF { s with eph.time := moveTime s.eph.time (-o), eph.slew := 0 }
    let g := if 1000 < a then 0 else if 3 ≤ st then 1 else min 8 (s.eph.good + 1)
    let s := { s with eph.good := g }
    if 3 ≤ st then ephState 1 s else if g = 8 then ephState 2 s else if 1000 < a then ephState 1 s else s

/-- SERVO_UPDATE (R509–R512): every 125 ms; `source` is the measured offset of EPH time from the source, none when it gave none.
[DEDUCED: log entry 65] -/
def execServoUpdate (source : Option Int) (s : State) : Res :=
  live s (
    if !running .eph s then s
    else match srcOffset source s with
      | some o => servo o s
      | none => holdover s)

/-! PTP (R180–R182). -/

/-- The port takes part in time transmitter selection and its link is up (R182). -/
def ptpOn (p : Nat) (s : State) : Bool := running (.fab p) s && onF (F.fabPtpPtpEn p) s && onF (F.fabLinkStatUp p) s

/-- PTP_EVENT_MESSAGE (R181, R182): the offset from the time transmitter, after FAB_PTP_ASYM's correction. -/
def execPtpEventMessage (port : Nat) (offset : Int) (s : State) : Res :=
  live s (if ptpOn port s then setF (F.fabPtpStatOffset port) (twos 16 offset) s else s)

/-- PTP_ANNOUNCE (R180, R182). -/
def execPtpAnnounce (port quality : Nat) (s : State) : Res :=
  live s (
    if !ptpOn port s then s
    else
      let s := setF (F.fabPtpStatAnnounceOk port) 1 s
      ptpSelect { s with fab.announce := (s.fab.announce.filter fun a => a.port != port) ++ [{ port := port, quality := quality }] })

/-- PTP_ANNOUNCE_TIMEOUT (R182). -/
def execPtpAnnounceTimeout (port : Nat) (s : State) : Res :=
  live s (
    if s.fab.announce.any fun a => a.port == port then
      ptpSelect (setF (F.fabPtpStatAnnounceOk port) 0 { s with fab.announce := s.fab.announce.filter fun a => a.port != port })
    else s)

/-! PPS and set requests (R509, R513, R514). -/

/-- IN_DELAY in ns. [DEDUCED: log entry 65] -/
def inDelay (s : State) : Int := signed 16 (getF F.ephPpsInDelay s)

/-- A time lies further than 1 µs from a whole second. [DEDUCED: log entry 65] -/
def offSecond (t : Nat) : Bool := 1000 < min (t % 1000000000) (1000000000 - t % 1000000000)

/-- PPS_EDGE (R509, R510, R513): the timestamp, the agreement with PTP, and a pending set request, which takes its second.
[DEDUCED: log entry 65] -/
def execPpsEdge (s : State) : Res :=
  live s (
    if !running .eph s then s
    else
      let s := { s with eph.lastPps := some s.now }
      let ts := moveTime s.eph.time (-inDelay s)
      let s := set64 F.ephPpsTsLoPpsTs F.ephPpsTsHiPpsTs ts s
      if onF F.ephStatSetPend s && getF F.ephCtrlSrc s == 2 then
        let v := get64 F.ephSetLoSet F.ephSetHiSet s
        let s := { s with eph.time := moveTime v (inDelay s), eph.setAt := none, eph.slew := 0, eph.good := 0, eph.holdSince := none, eph.terr := 8 }
        ephState 1 (setF F.ephStatSetPend 0 s)
      else if getF F.ephCtrlSrc s = 1 && !timeUnset s then
        let bad := offSecond ts
        let s := if bad && !onF F.ephStatPpsDisagree s then note .eph E.ephPpsDisagree 0xFF s else s
        flagF F.ephStatPpsDisagree bad s
      else s)

/-- EPH_SET (R513): honoured only while SRC is 2. -/
def execEphSet (s : State) : Res :=
  live s (regWrite .eph (fun s =>
    if getF F.ephCtrlSrc s = 2 then setF F.ephStatSetPend 1 { s with eph.setAt := some s.now } else s) s)

/-- EPH_SET_TIMEOUT (R513). -/
def execEphSetTimeout (s : State) : Res :=
  live s (
    if s.eph.setAt.any fun t => decide (2000000000 ≤ s.now - t) then setF F.ephStatSetPend 0 { s with eph.setAt := none } else s)

/-- PPS_OUT may be driven (R514). -/
def ppsOutOn (s : State) : Bool :=
  onF F.ephCtrlPpsOutEn s && (getF F.ephStatState s == 2 || getF F.ephStatState s == 3)

/-- PPS_OUT_RISE (R514): within 8 ns of a whole TAI second. -/
def execPpsOutRise (s : State) : Res :=
  live s (
    let r := s.eph.time % 1000000000
    if ppsOutOn s && (decide (r ≤ 8) || decide (1000000000 - 8 ≤ r)) then { s with pins := { s.pins with ppsOut := true } } else s)

/-- PPS_OUT_FALL (R514): WIDTH_MS after the second, or at once when PPS_OUT may not be driven. -/
def execPpsOutFall (s : State) : Res :=
  live s (
    let r := s.eph.time % 1000000000
    let w := 1000000 * getF F.ephPpsWidthMs s
    if !ppsOutOn s || (decide (w ≤ r) && decide (r < 1000000000 - 8)) then { s with pins := { s.pins with ppsOut := false } } else s)

/-! Windows (R518, R520). -/

/-- WINDOW_CLOSE (R520). -/
def execWindowClose (k : Nat) (s : State) : Res :=
  live s { s with eph.open_ := s.eph.open_.filter fun w => !(w.1 == k && decide (w.2 ≤ s.eph.time)) }

end Sys2Proof.Machine
end

