-- ==== Sys2Proof/Machine/Regs.lean ====
section
/-! DEFINITION. The fields that a register write stores, block enables, soft reset, commits, injection, counters and power requests (R9,
R51–R70, R619–R621, R630, R694). -/

namespace Sys2Proof.Machine

/-! Register writes (R9, R51–R54, R60). -/

/-- Fields whose write starts something: block enables of R694, lane and bank enables, doorbells, commands. What they do is
in RegWrite.lean; storing passes over them. -/
def ownRow (b : Block) (pg off lo : Nat) : Bool :=
  match b with
  | .hpe _ => (off == 0x40 && (lo == 10 || lo == 11)) || (0x400 ≤ off && lo == 7)
  | .mge => (off == 0x40 && lo == 10) ||
      (0x100 ≤ off && (off % 32 == 0x14 || off % 32 == 0x18 || (off % 32 == 0x10 && 30 ≤ lo)))
  | .fab _ => (off == 0x40 && lo == 3) || (off == 0xA0 && lo == 0)
  | .toe => off == 0x40 && (lo < 2 || lo == 4)
  | .hqe => pg == 0 && off == 0x40
  | .dge => pg == 0 && (off == 0x40 || off == 0x44)
  | .fiu => pg == 0 && (off == 0x40 || off == 0x48)
  | .cmp => pg == 0 && (off == 0x40 || off == 0x44 || off == 0x48)
  | .cry => pg == 0 && (off == 0x40 || off == 0x44)
  | .ldc => pg == 0 && (off == 0x40 || off == 0x44)
  | .ftu => pg == 0 && off == 0x40 && (lo < 2 || lo == 3)
  | .mca => off == 0x40 || (off == 0x48 && lo == 1)
  | .par => off == 0x40 || off == 0x68 || off == 0x78
  | .mpt _ => off == 0x40 && (lo == 4 || lo == 5)
  | .tl _ => (off == 0x40 && lo == 9) || off == 0x64
  | .mir | .ocu => off == 0x40
  | .eph => pg == 0 && ((off == 0x40 && lo < 2) || off == 0x70)
  | .fco => off == 0x60 && lo == 0
  | .evr => off == 0x5C || off == 0x80
  | .sec => pg == 1 && off == 0x40
  | .pwc => (off == 0x40 && lo == 0) || off == 0x4C
  | .bld => off == 0x88
  | _ => false

/-- Index and selection registers whose writes are ignored while SHADOW_DIRTY is 1 (R246, R295, R352, R466). -/
def indexReg (b : Block) (pg off : Nat) : Bool :=
  match b, pg, off with
  | .hqe, 1, 0x40 | .hqe, 2, 0x40 | .fiu, 2, 0x40 | .cmp, 2, 0x40 | .cry, 1, 0x40 => true
  | .par, 0, 0x44 | .par, 0, 0x60 | .par, 0, 0x74 => true
  | _, _, _ => false

/-- A write that the spec says is ignored as the block stands: base, size and vector of an enabled management queue
(R79), an index while the page's shadow is dirty, the nonce while a quote runs (R385), GRAVE_OK in production (R620). -/
def writeIgnored (b : Block) (pg off lo : Nat) (s : State) : Bool :=
  match b with
  | .mge => 0x100 ≤ off &&
      (onF (F.mqCfgSqEn ((off - 0x100) / 32)) s || onF (F.mqCfgCqEn ((off - 0x100) / 32)) s)
  | .sec => pg == 1 && 0x80 ≤ off && off < 0xA0 && onF F.secQstatBusy s
  | .fco => off == 0x60 && lo == 9 && !(s.bld.lifecycle == 0 || s.bld.lifecycle == 2)
  | _ => indexReg b pg off && shadowDirty b pg s

/-- What a write of one field does by its access type (R9). -/
def writeField (b : Block) (pg off v : Nat) (r : RegRow) (s : State) : State :=
  let f : Fld := ⟨base b + 0x1000 * pg + off, r.hi, r.lo, r.reset, r.sh⟩
  let x := bits v r.hi r.lo
  if ownRow b pg off r.lo || writeIgnored b pg off r.lo s then s
  else match r.acc with
    | .rw | .rws => setF f x s
    | .w1c => setF f (bclrMask (getF f s) x) s
    | .ro | .w1s | .wo => s

/-- The row lies at this offset. -/
def rowAt (off : Nat) (r : RegRow) : Bool :=
  r.off ≤ off && off < r.off + r.count * r.stride && (off - r.off) % r.stride == 0

/-- What follows a write beside the field: a new index shows its record (R246), a window selector its standby set
(R561), the standby set is kept per window, MQ_STAT.ERR clears (R80), and the time transmitter is selected anew when a
port's rank changes (R182); a write of FCO_INJ_CTL between the two of the arming sequence ends it (R619). -/
def afterWrite (b : Block) (pg off v : Nat) (s : State) : State :=
  match b with
  | .hqe | .fiu => if indexReg b pg off && !shadowDirty b pg s then loadIndexed b pg (indexOf b pg s) s else s
  | .par => if off = 0x44 && !shadowDirty b pg s then loadIndexed b pg (indexOf b pg s) s else s
  | .tl n =>
    let w := getF (F.tlWinSelWin n) s
    if off = 0x48 then
      setF (F.tlWinBaseLoBaseLo n) (bankF (F.tlWinBaseLoBaseLo n) w 0 s)
        (setF (F.tlWinBaseHiBaseHi n) (bankF (F.tlWinBaseHiBaseHi n) w 0 s)
          (setF (F.tlWinSizeSize n) (bankF (F.tlWinSizeSize n) w 0 s) s))
    else if off = 0x4C then setBankF (F.tlWinBaseLoBaseLo n) w (getF (F.tlWinBaseLoBaseLo n) s) 0 s
    else if off = 0x50 then setBankF (F.tlWinBaseHiBaseHi n) w (getF (F.tlWinBaseHiBaseHi n) s) 0 s
    else if off = 0x54 then setBankF (F.tlWinSizeSize n) w (getF (F.tlWinSizeSize n) s) 0 s
    else if off = 0x40 && onF (F.tlLinkCtrlTxOff n) s then tlDown n s
    else s
  | .mge =>
    let q := (off - 0x100) / 32
    if 0x100 ≤ off && off % 32 = 0x10 && v < 0x40000000 && !onF (F.mqCfgSqEn q) s && !onF (F.mqCfgCqEn q) s then
      setF (F.mqStatErr q) 0 s
    else s
  | .fco => if off = 0x60 && v % 256 != 0x3C && v % 256 != 0xC3 then { s with fco.armAt := none } else s
  | .fab n => if off = 0xA0 then ptpSelect s else if off = 0x40 && onF (F.fabLinkCtrlTxOff n) s && onF (F.fabLinkStatUp n) s then fabDown n s else s
  | _ => s

/-- A write of a block-specific word: discarded with a Notice while the block is power-gated or in reset (R60). -/
def writeBlockWord (b : Block) (pg off v : Nat) (s : State) : State :=
  if getF (H.pwrState b) s = 2 || getF (H.state b) s = 5 then fcoNotice s
  else afterWrite b pg off v (forEach ((rowsOf b pg).filter (rowAt off)) (fun r t => writeField b pg off v r t) s)

/-- A write of a header word (R54–R59); page 1 and higher hold only VIEW_ACTIVE, TXN and TXN_ID of HDR_CTRL. TXN and
TXN_ID hold while the page is armed (R71). In the Grave state only ERR_STAT, INT_STAT and HDR_SPARE are written (R616). -/
def writeHeader (b : Block) (pg off v : Nat) (s : State) : State :=
  if pg = 0 && off = 0x10 then withWin (windowOf b) (fun t => setF (H.errStat b) (bclrMask (getF (H.errStat b) t) v) t) s
  else if pg = 0 && off = 0x20 then
    withWin (windowOf b) (fun t => setF (H.intStat b) (bclrMask (getF (H.intStat b) t) (v &&& 0xFFFF001E)) t) s
  else if pg = 0 && off = 0x3C then setF (H.spare b) v s
  else if graved s then s
  else if off = 0x8 then
    let s := setF (H.viewActive b pg) (bits v 4 4) s
    if txnPending b pg s then s else setF (H.txn b pg) (bits v 5 5) (setF (H.txnId b pg) (bits v 15 8) s)
  else if pg ≠ 0 then s
  else if off = 0x14 then withWin (windowOf b) (setF (H.errMask b) v) s
  else if off = 0x18 then setF (H.classMap b) v s
  else if off = 0x24 then withWin (windowOf b) (setF (H.intEn b) v) s
  else if off = 0x28 then setF (H.pwrAuto b) (bits v 2 2) s
  else if off = 0x30 then setF (H.cntEvent b) (bits v 7 0) (setF (H.cntFreeze b) (bits v 8 8) s)
  else s

/-- What a 32-bit register write stores (R51, R53, R616). -/
def writeWord (addr v : Nat) (s : State) : State :=
  match blockAt addr with
  | none => s
  | some (b, pg) =>
    let off := addr % 0x1000
    if off < 0x40 then writeHeader b pg off v s
    else if graved s then
      if b = .fco && (off = 0x40 || off = 0x44) then writeBlockWord b pg off v s else s
    else writeBlockWord b pg off v s

/-! Block enables (R56, R694). -/

/-- Who may set a block-specific enable that resets to 0, and what clearing it does (R694). -/
inductive EnGroup where
  | mainRoad | service | policy
  deriving DecidableEq, Repr

/-- The enable at a bit of a block's control word, with its group (R694). -/
def enableOf (b : Block) (bit : Nat) : Option (Fld × EnGroup) :=
  match b, bit with
  | .ftu, 0 => some (F.ftuCtrlMapEn, .mainRoad)
  | .ftu, 1 => some (F.ftuCtrlGcEn, .service)
  | .ftu, 3 => some (F.ftuCtrlCkptEn, .mainRoad)
  | .par, 0 => some (F.parCtrlParityEn, .mainRoad)
  | .par, 1 => some (F.parCtrlRebuildEn, .service)
  | .par, 2 => some (F.parCtrlPatrolEn, .service)
  | .cry, 0 => some (F.cryCtrlXtsEn, .mainRoad)
  | .cmp, 0 => some (F.cmpCtrlCompEn, .service)
  | .cmp, 1 => some (F.cmpCtrlExpEn, .mainRoad)
  | .dge, 0 => some (F.dgeCtrlUnitEn, .mainRoad)
  | .dge, 1 => some (F.dgeCtrlJobEn, .mainRoad)
  | .ldc, 0 => some (F.ldcCtrlDecEn, .mainRoad)
  | .ldc, 1 => some (F.ldcCtrlEncEn, .mainRoad)
  | .mir, 0 => some (F.mirCtrlMirrorEn, .mainRoad)
  | .mir, 1 => some (F.mirCtrlFwdEn, .mainRoad)
  | .mir, 2 => some (F.mirCtrlEclEn, .service)
  | .fiu, 0 => some (F.fiuCtrlSearchEn, .service)
  | .fiu, 1 => some (F.fiuCtrlInsertEn, .service)
  | .fiu, 2 => some (F.fiuCtrlBgdEn, .policy)
  | .mca, 0 => some (F.mcaCtrlCacheEn, .service)
  | .eph, 0 => some (F.ephCtrlFireEn, .service)
  | .eph, 1 => some (F.ephCtrlPpsOutEn, .policy)
  | .ocu, 0 => some (F.ocuCtrlCmpEn, .service)
  | .hqe, 0 => some (F.hqeCtrlHostSan, .policy)
  | .hqe, 1 => some (F.hqeCtrlFetchHold, .policy)
  | .toe, 0 => some (F.toeCtrlTcpEn, .policy)
  | .toe, 1 => some (F.toeCtrlRoceEn, .policy)
  | .toe, 4 => some (F.toeCtrlDiscEn, .policy)
  | .fab p, 0 => some (F.fabPtpPtpEn p, .policy)
  | _, _ => none

/-- The blocks the main road of an I/O command runs through (R18, R21, R29). DEDUCED: log entry 12.
[DEDUCED: log entry 12] -/
def onMainRoad (b : Block) : Bool :=
  match b with
  | .hqe | .dge | .fiu | .cmp | .cry | .ftu | .mca | .par | .ldc | .mir => true
  | _ => false

/-- EN of the block's page cleared or set (R56): set, the block runs unless it is in reset or fault; cleared, it stops,
and a main-road block takes its plane down. EN is RO in the Memory and Control Planes and in summary pages.
[DEDUCED: log entry 12] -/
def enWrite (b : Block) (on : Bool) (s : State) : State :=
  match planeOf b, b with
  | .memory, _ | .control, _ | _, .wsp _ => s
  | p, _ =>
    let s := flagF (H.en b) on s
    if blockDown b s then s
    else if on then setState b 2 s
    else
      let s := setState b 4 s
      if onMainRoad b && inService s then planeReset p s else s

/-- BLOCK_ENABLE_WRITE (R56, R694). -/
def execBlockEnableWrite (b : Block) (bit : Option Nat) (on microcode : Bool) (s : State) : Res :=
  live s (
    match bit with
    | none => enWrite b on s
    | some n =>
      match enableOf b n with
      | none => s
      | some (f, g) =>
        if getF (H.pwrState b) s = 2 || getF (H.state b) s = 5 then fcoNotice s
        else match g, on, microcode with
          | .mainRoad, true, true => setF f 1 s
          | .mainRoad, true, false => s
          | .mainRoad, false, _ =>
            if inService s then planeReset (planeOf b) (setF f 0 s) else setF f 0 s
          | .policy, _, true => s
          | .service, _, _ | .policy, _, false =>
            let s := flagF f on s
            match b with
            | .fab _ => ptpSelect s
            | .hqe => s
            | _ => s)

/-! Soft reset (R57). -/

/-- SRST is honoured in this page (R57). -/
def srstHonoured (b : Block) : Bool :=
  match planeOf b, b with
  | .memory, _ | .control, _ | _, .wsp _ => false
  | _, _ => true

/-- SOFT_RESET (R57): a Class 2 reset of the block, recorded as a Notice (R608). -/
def execSoftReset (b : Block) (s : State) : Res :=
  live s (when_ (srstHonoured b)
    (fun t => evrEvent (mkRec 0x0010 0 (latchBit b) (inst b) 0xFF 0 (blockCode b) 0) (blockReset b t)) s)

/-- The main-road enables of a block, which microcode sets again when it brings a plane back (R694). -/
def reEnable (b : Block) (s : State) : State :=
  forEach (List.range 5) (fun n t =>
    match enableOf b n with
    | some (f, .mainRoad) => if inService t then setF f 1 t else t
    | _ => t) s

/-- SOFT_RESET_DONE (R57, R596): the reset of a block ends: STATE 2, or 4 while EN is 0, and RST_DONE sets. Held
commands resume when no plane is in reset any more (R600). -/
def execSoftResetDone (b : Block) (s : State) : Res :=
  live s (when_ (getF (H.state b) s == 5) (fun t =>
    let t := setF (H.rstBusy b) 0 (setState b (if onF (H.en b) t then 2 else 4) t)
    let t := setInt b 3 (reEnable b t)
    if [Plane.host, .reduction, .media, .pair].any (fun p => planeDown p t) then t
    else { t with hqe.planeHold := false }) s)

/-! Commits (R64–R70). -/

/-- The value of a field in a capture. -/
def capVal (f : Fld) (c : Capture) : Nat := tget c.vals (fkey f) f.reset

/-- Queue pairs offered on a port by its physical and virtual functions (R107). [DEDUCED: log entry 17] -/
def portPairs (p : Nat) (get : Fld → Nat) (s : State) : Nat :=
  get (F.hpePfQpQpMax p) + ((List.range (portOf p s).totalVfs).map fun k => get (F.hpeVfQpQpMax p k)).sum

/-- Sum of R108 with the fields of one page read from a capture. [DEDUCED: log entry 17] -/
def pairSum (c : Capture) (s : State) : Nat :=
  let get := fun (f : Fld) => if H.page c.blk c.pg / 0x1000 = f.addr / 0x1000 then capVal f c else getF f s
  get F.toeQpResQpRes + ((List.range 4).map fun p => portPairs p get s).sum

/-- The present sum of R108. -/
def pairSumNow (s : State) : Nat :=
  getF F.toeQpResQpRes s + ((List.range 4).map fun p => portPairs p (fun f => getF f s) s).sum

/-- The error that abandons a commit when it applies (R108, R161, R246, R295, R434, R437, R466, R520).
[DEDUCED: log entry 17] -/
def commitRefused (c : Capture) (s : State) : Option Nat :=
  let v := fun f => capVal f c
  let ref := fun (bad : Bool) (e : Nat) => if bad then some e else none
  match c.blk, c.pg with
  | .hpe _, 0 => ref (65536 < pairSum c s && pairSumNow s < pairSum c s) E.hpeQpOver
  | .toe, 0 => ref (65536 < pairSum c s && pairSumNow s < pairSum c s) E.toeQpOver
  | .hqe, 1 => ref (v F.hqeQosCfgWeight == 0) E.hqeQosCfg
  | .fiu, 1 => ref (onF F.fiuCtrlSearchEn s || onF F.fiuCtrlInsertEn s) E.fiuCfgRefused
  | .ftu, 0 => ref (!(v F.ftuSpaceAdmitResPct < v F.ftuSpaceGcResPct && v F.ftuSpaceGcResPct < v F.ftuSpaceStartPct &&
      v F.ftuSpaceStartPct < v F.ftuSpaceStopPct)) E.ftuCfgRefused
  | .par, 0 =>
    let p := v F.parClassCfgP
    let d := v F.parClassCfgD
    ref (!((p == 1 && 3 ≤ d && d ≤ 31) || (p == 2 && 4 ≤ d && d ≤ 30))) E.parCfgRefused
  | .eph, 1 => ref ((List.range 3).any fun k =>
      v (F.ephWinPeriodPeriodS k) != 0 && v (F.ephWinPeriodPeriodS k) ≤ v (F.ephWinDurDurS k)) E.ephCfgRefused
  | _, _ => none

/-- The first occurrence of a series after instant `t` (R519, R520). -/
def nextOcc (first period t : Nat) : Nat := if t < first then first else first + ((t - first) / period + 1) * period

/-- Microcode places entries 0 to 2 from the active window values (R516, R520). -/
def placeWindows (s : State) : State :=
  let mk := fun k => 
    let p := 1000000000 * getF (F.ephWinPeriodPeriodS k) s
    let o := 1000000000 * getF (F.ephWinOffsetOffsetS k) s
    if p = 0 then none
    else
      let i := nextOcc o p s.eph.time
      some { no := k, kind := [EntKind.winGc, .winPatrol, .winDedup].getD k .winGc, start := i, next := i, period := p,
             left := 0, skipLate := true, requireTime := false, ref := k, dormant := false : Entry }
  { s with eph.entries := (List.range 3).filterMap mk ++ s.eph.entries.filter fun e => 3 ≤ e.no }

/-- Apply one capture, or abandon it with its error (R64, R65). -/
def commitOne (c : Capture) (s : State) : State :=
  match commitRefused c s with
  | some e => note c.blk e 0xFF (dropCap c.blk c.pg s)
  | none =>
    let s := setInt c.blk 1 (applyCap c s)
    if c.blk = .eph && c.pg = 1 then placeWindows s else s

/-- COMMIT (R64, R67, R71): the capture; ignored while one is waiting, and under TXN with TXN_ID 0. -/
def execCommit (b : Block) (page : Nat) (s : State) : Res :=
  live s (when_ (exists_ b && page < pages b && !commitBusy b page s &&
      !(onF (H.txn b page) s && getF (H.txnId b page) s == 0))
    (fun t => capture b page (if onF (H.txn b page) t then getF (H.txnId b page) t else 0) t) s)

/-- COMMIT_APPLY (R65): a captured commit outside a transaction becomes active. -/
def execCommitApply (b : Block) (page : Nat) (s : State) : Res :=
  live s (
    match capOf b page s with
    | some c => if c.txn = 0 then commitOne c s else s
    | none => s)

/-- DISCARD (R68): shadow values go back to those captured, or to the active ones. -/
def execDiscard (b : Block) (page : Nat) (s : State) : Res :=
  let back := match capOf b page s with
    | some c => c.vals
    | none => s.regs.act
  live s { s with regs.shd := treplace s.regs.shd (pageLo b page) (pageHi b page) back }

/-! Injection (R59, R619–R621). -/

/-- The kind of lane an error belongs to, by the LANE of its first lane; none for an error without a lane (R351, R386,
R500, R622, R696). An error of CMP lanes takes either kind. -/
def laneErr (b : Block) (n lane : Nat) : Bool :=
  isLane b (if lane = 0xFF then 0 else lane) &&
  match b with
  | .cpc => n < 3
  | .dge => n == E.dgeLaneFault
  | .fiu => n == E.fiuBankParity
  | .cmp => n == E.cmpLaneEcc || n == E.cmpLaneFault
  | .cry => n == E.cryLaneFault
  | .ldc => n == E.ldcLaneEcc || n == E.ldcLaneFault
  | _ => false

/-- ERR_INJECT_WRITE (R59, R619, R620): arms an injection, replacing the block's earlier one, or is refused.
[DEDUCED: log entry 18] -/
def execErrInjectWrite (b : Block) (bit lane : Nat) (s : State) : Res :=
  live s (
    let grave := errClass? b bit == some 4
    if getF F.fcoInjCtlInjEn s = 0 || (grave && getF F.fcoInjCtlGraveOk s = 0) then
      evrEvent (mkRec 0x0021 0 (latchBit b) (inst b) 0xFF 0 (bit + 256 * latchBit b) 0) (note .fco E.fcoInjRefused 0xFF s)
    else { s with regs.armed := s.regs.armed.filter (fun a => a.blk != b) ++ [{ blk := b, bit := bit, lane := lane }] })

/-- The lane that an armed injection is taken by now: the named one when it runs, the lowest-numbered powered one of the
kind for 0xFF; none while it waits (R59, R621). [DEDUCED: log entry 18] -/
def injectLane (a : Armed) (s : State) : Option Nat :=
  if laneErr a.blk a.bit a.lane then
    if a.lane = 0xFF then (kindOf a.blk 0).find? fun l => laneReady a.blk l s
    else if laneReady a.blk a.lane s then some a.lane else none
  else some 0xFF

/-! Counter and power (R59, R630). -/

/-- COUNTER_CLEAR (R59): CNT_SEL.CLEAR. -/
def execCounterClear (b : Block) (s : State) : Res := live s { s with regs.cnt := terase s.regs.cnt (base b) }

/-- POWER_REQUEST (R630): PWR_CTRL.REQ; 3 is reserved, and the DDR channels and VLT are switched by PWC only. -/
def execPowerRequest (b : Block) (req : Nat) (s : State) : Res :=
  live s (
    match b with
    | .dmc _ | .vlt | .wsp _ => s
    | _ =>
      if 3 ≤ req then s
      else setF (H.pwrMoving b) 1 (setF (H.pwrReq b) req
        { s with pwc.moving := s.pwc.moving.filter (fun m => m.1 != b) ++ [(b, req)] }))

/-- POWER_TRANSITION_DONE (R630): the request is carried out. -/
def execPowerTransitionDone (b : Block) (s : State) : Res :=
  live s (
    match s.pwc.moving.find? (fun m => m.1 == b) with
    | none => s
    | some (_, req) =>
      setInt b 4 (setF (H.pwrMoving b) 0 (setF (H.pwrState b) req
        { s with pwc.moving := s.pwc.moving.filter fun m => m.1 != b })))

end Sys2Proof.Machine
end

