-- ==== Sys2Proof/Machine/Mgmt.lean ====
section
/-! DEFINITION. Management queues and configuration transactions (R71–R90, R698). -/

namespace Sys2Proof.Machine

/-- MGE takes no register write of its own: power-gated or in reset (R60). -/
def mgeOff (s : State) : Bool := getF (H.pwrState .mge) s = 2 || getF (H.state .mge) s = 5

/-- A write of an MGE register with a command of its own (R60). -/
def mgeWrite (f : State → State) (s : State) : State := if mgeOff s then fcoNotice s else f s

/-- ERR clears by a write to MQ_CFG after which both enables are 0 (R80). -/
def mqErrClear (q : Nat) (s : State) : State :=
  if onF (F.mqCfgSqEn q) s || onF (F.mqCfgCqEn q) s then s else setF (F.mqStatErr q) 0 s

/-- MQ_SQ_ENABLE (R79, R80). -/
def execMqSqEnable (q : Nat) (on : Bool) (s : State) : Res :=
  live s (mgeWrite (fun s =>
    if !on then mqErrClear q (setF (F.mqCfgSqEn q) 0 s)
    else if onF (F.mqCfgSqEn q) s then s
    else if getF (F.mqSqBaseLoAddr q) s % 0x1000 != 0 || getF (F.mqCfgSqSize q) s == 0 then setF (F.mqStatErr q) 1 s
    else setF (F.mqStatSqHead q) 0 (setF (F.mqSqTailTail q) 0 (setF (F.mqCfgSqEn q) 1 s))) s)

/-- MQ_CQ_ENABLE (R79, R80, R83). -/
def execMqCqEnable (q : Nat) (on : Bool) (s : State) : Res :=
  live s (mgeWrite (fun s =>
    if !on then mqErrClear q (setF (F.mqCfgCqEn q) 0 s)
    else if onF (F.mqCfgCqEn q) s then s
    else if getF (F.mqCqBaseLoAddr q) s % 0x1000 != 0 || getF (F.mqCfgCqSize q) s == 0 || getF (F.mqCfgVector q) s < 8 then
      setF (F.mqStatErr q) 1 s
    else
      setF (F.mqCqHeadHead q) 0 (setF (F.mqCfgCqEn q) 1
        { s with mgmt.queues := tset s.mgmt.queues q { cqTail := 0, phase := true } })) s)

/-- MQ_SQ_DOORBELL (R79): ignored while disabled; an index beyond the queue sets DB_ERR. -/
def execMqSqDoorbell (q tail : Nat) (s : State) : Res :=
  live s (mgeWrite (fun s =>
    if !onF (F.mqCfgSqEn q) s then s
    else if getF (F.mqCfgSqSize q) s < tail then setF (F.mqStatDbErr q) 1 s
    else setF (F.mqSqTailTail q) tail s) s)

/-- MQ_CQ_DOORBELL (R79, R83). -/
def execMqCqDoorbell (q head : Nat) (s : State) : Res :=
  live s (mgeWrite (fun s =>
    if !onF (F.mqCfgCqEn q) s then s
    else if getF (F.mqCfgCqSize q) s < head then setF (F.mqStatDbErr q) 1 s
    else setF (F.mqCqHeadHead q) head s) s)

/-- Opcodes of R88, and those that are INLINE (R698). -/
def opKnown (o : Nat) : Bool :=
  [0x0000, 0x0010, 0x0011, 0x0012, 0x0013, 0x0020, 0x0021, 0x0030, 0x0031, 0x0032, 0x0038, 0x0039, 0x003A, 0x003B,
   0x0040, 0x0041, 0x0050, 0x0051, 0x0052, 0x0060, 0x0061, 0x0070, 0x0080].contains o
def opInline (o : Nat) : Bool :=
  [0x0011, 0x0013, 0x0020, 0x0021, 0x0031, 0x003B, 0x0039, 0x0041, 0x0050, 0x0051, 0x0061, 0x0070, 0x0080].contains o

/-- Entries of completion queue `q` that are free and not owed to a fetched entry (R83, R190).
[DEDUCED: log entry 19] -/
def mqRoom (q : Nat) (s : State) : Nat :=
  if onF (F.mqCfgCqEn q) s then
    let n := getF (F.mqCfgCqSize q) s + 1
    let used := ((mqOf q s).cqTail + n - getF (F.mqCqHeadHead q) s) % n
    n - 1 - used - (s.mgmt.cmds.filter fun c => c.q == q).length
  else 0

/-- MGE fetches from the queue now (R56, R80, R83). [DEDUCED: log entry 19] -/
def mqFetchable (q : Nat) (s : State) : Bool :=
  running .mge s && onF (F.mqCfgSqEn q) s && !onF (F.mqStatErr q) s &&
  getF (F.mqStatSqHead q) s != getF (F.mqSqTailTail q) s && 0 < mqRoom q s

/-- The status that a descriptor completes with at once (R80, R84, R87, R88, R698). [DEDUCED: log entry 19] -/
def descReject (d : MgmtDesc) (bodyErr : Bool) : Option Nat :=
  let body := !opInline d.opcode && d.opcode != 0 && !d.inline
  if !opKnown d.opcode then some stInvalidOpcode
  else if opInline d.opcode && !d.inline then some stInvalidField
  else if 65536 < d.bodyLen || 0x100000 < d.dataLen then some stInvalidField
  else if body && bodyErr then some stBusError
  else if body && d.bodyVer != 1 then some stBodyVersion
  else none

/-- MQ_FETCH (R80, R83, R85): the entry, or none for a bus error that stops the queue. -/
def execMqFetch (q : Nat) (d : Option MgmtDesc) (bodyErr : Bool) (s : State) : Res :=
  live s (when_ (mqFetchable q s) (fun s =>
    match d with
    | none => setF (F.mqStatErr q) 1 s
    | some d =>
      let h := getF (F.mqStatSqHead q) s
      let s := setF (F.mqStatSqHead q) (if h = getF (F.mqCfgSqSize q) s then 0 else h + 1) s
      let st := descReject d bodyErr
      let s := { s with mgmt.cmds := s.mgmt.cmds ++
        [{ q := q, tag := d.tag, opcode := d.opcode, fence := d.fence, dataLen := d.dataLen, started := false,
           reject := st, unposted := false }] }
      let s := setF (F.mqStatIdle q) 0 s
      mgmtRejects q (if st = some stBusError then setF (F.mqStatErr q) 1 s else s)) s)

/-- NOP (R88). -/
def execNop (q tag : Nat) (s : State) : Res := live s (mgmtRun q tag 0x0000 (mgmtPost q tag stSuccess 0) s)

/-! Transactions (R71–R77, R90). -/

/-- TIME_UNSET (R90). -/
def stTimeUnset : Nat := 0x0116

/-- The pages armed with a transaction (R72). -/
def armedPages (id : Nat) (s : State) : List (Block × Nat) :=
  (s.regs.caps.filter fun c => c.txn == id).map fun c => (c.blk, c.pg)

/-- Freeze the membership; a member whose block stands in STATE 7 aborts the transaction (R72, R74). -/
def txnFreeze (id : Nat) (s : State) : State :=
  let ms := armedPages id s
  if ms.any fun m => getF (H.state m.1) s = 7 then txnAbort id s
  else { s with txn.sched := modFirst (fun t => t.id == id) (fun t => { t with frozen := some ms }) s.txn.sched }

/-- The lowest free Ephemeris entry from 16 (R516). -/
def freeEntry (s : State) : Option Nat := leastFree (s.eph.entries.map (·.no)) 4080 16

/-- TXN_COMMIT (R72, R76, R89, R90). -/
def execTxnCommit (q tag id instant : Nat) (s : State) : Res :=
  live s (mgmtRun q tag 0x0080 (fun s =>
    checks q tag
      [(id == 0 || instant % 8 != 0, stInvalidField),
       (instant != 0 && timeUnset s, stTimeUnset),
       (instant != 0 && instant < s.eph.time + 50000, stTimePast),
       (s.txn.sched.any (fun t => t.id == id) || s.txn.holding.any (fun t => t.id == id), stTxnBusy),
       (instant != 0 && (32 ≤ (s.txn.sched.filter fun t => t.instant != 0).length || (freeEntry s).isNone), stResource)]
      (fun s =>
        let s := { s with txn.sched := s.txn.sched ++ [{ id := id, instant := instant, q := q, tag := tag, frozen := none }] }
        if instant = 0 then txnFreeze id s
        else
          let e : Entry := { no := (freeEntry s).getD 16, kind := .txn, start := instant, next := instant, period := 0,
                             left := 1, skipLate := false, requireTime := false, ref := id, dormant := false }
          { s with eph.entries := s.eph.entries ++ [e] }) s) s)

/-- TXN_ABORT_ONLY (R74, R89, R90). -/
def execTxnAbortOnly (q tag id : Nat) (s : State) : Res :=
  live s (mgmtRun q tag 0x0080 (fun s =>
    if id = 0 then mgmtPost q tag stInvalidField 0 s
    else
      let any := !(armedPages id s).isEmpty || s.txn.sched.any fun t => t.id == id
      mgmtPost q tag (if any then stAborted else stTxnEmpty) s.eph.time (txnAbort id s)) s)

/-- TXN_FREEZE (R72, R74). -/
def execTxnFreeze (id : Nat) (s : State) : Res :=
  live s (when_ (s.txn.sched.any fun t => t.id == id && t.instant != 0 && t.frozen.isNone) (txnFreeze id) s)

/-- Entries fire: EPH is out of state 0 and FIRE_EN is 1 (R510, R518). -/
def ephFires (s : State) : Bool := !timeUnset s && onF F.ephCtrlFireEn s

/-- TXN_APPLY (R73, R75): at the instant HQE and destage hold, and every member page applies its capture; without a
member the control block completes with TXN_EMPTY; cuts of the same instant come first (R517). Captures armed after the freezing stay armed (R72). -/
def execTxnApply (id : Nat) (s : State) : Res :=
  live s (
    match s.txn.sched.find? (fun t => t.id == id) with
    | none => s
    | some t =>
      match t.frozen with
      | none => s
      | some ms =>
        let cuts := s.eph.entries.any fun e => (e.kind == .snapCut || e.kind == .replCut) && !e.dormant && decide (e.next ≤ t.instant)
        if s.txn.holding.isSome || (t.instant != 0 && (!ephFires s || decide (s.eph.time < t.instant) || cuts)) then s
        else
          let at_ := if t.instant = 0 then s.eph.time else t.instant
          let s := { s with txn.sched := s.txn.sched.filter (fun u => u.id != id),
                            eph.entries := s.eph.entries.filter fun e => !(e.kind == .txn && e.ref == id) }
          if ms.isEmpty then mgmtPost t.q t.tag stTxnEmpty at_ s
          else
            let caps := s.regs.caps.filter fun c => c.txn == id && ms.contains (c.blk, c.pg)
            modeEval false (forEach caps commitOne { s with txn.holding := some { t with instant := at_ } }))

/-- TXN_HOLD_END (R73, R75): HQE and destage resume, TXN_DONE sets at every member, and the control block completes. -/
def execTxnHoldEnd (id : Nat) (s : State) : Res :=
  live s (
    match s.txn.holding with
    | none => s
    | some t =>
      if t.id = id then
        mgmtPost t.q t.tag stSuccess t.instant
          (txnDone ((t.frozen.getD []).map (·.1)) { s with txn.holding := none })
      else s)

end Sys2Proof.Machine
end

