-- ==== Sys2Proof/Machine/Epochs.lean ====
section
/-! DEFINITION. The Ephemeris, snapshots and clones (R515–R537). -/

namespace Sys2Proof.Machine

/-! Statuses (R523). -/

def stSnapNotFound : Nat := 0x0110
def stSnapHasClones : Nat := 0x0111
def stSnapInUse : Nat := 0x0112
def stSkippedLate : Nat := 0x0113
def stSkippedTime : Nat := 0x0114
def stCutCancelled : Nat := 0x0115
def stEntryNotFound : Nat := 0x0117
def stEntryProtected : Nat := 0x0118
def stCloneDepth : Nat := 0x0119
def stEpochReserve : Nat := 0x011D

/-! Occurrences (R515–R518). -/

/-- ACTION codes (R516). -/
def actionCode (k : EntKind) : Nat :=
  match k with
  | .txn => 1 | .snapCut => 2 | .replCut => 3 | .winGc => 0x10 | .winPatrol => 0x11 | .winDedup => 0x12

/-- An active entry whose instant has come (R517, R519). -/
def dueEntry (e : Entry) (s : State) : Bool := !e.dormant && e.kind != .txn && decide (e.next ≤ s.eph.time)

/-- Order of firing: instant, ACTION, ENTRY (R517). [DEDUCED: log entry 66] -/
def firesBefore (a b : Entry) : Bool :=
  decide (a.next < b.next) || (a.next == b.next &&
    (decide (actionCode a.kind < actionCode b.kind) || (actionCode a.kind == actionCode b.kind && decide (a.no < b.no))))

/-- Fired more than 1 µs after its instant: a missed occurrence (R517, R518). [DEDUCED: log entry 66] -/
def lateNow (e : Entry) (s : State) : Bool := decide (e.next + 1000 < s.eph.time)

/-- An occurrence is over with a result, 1 fired, 2 late, 3 skipped; a periodic entry goes on to the first member of its series after
the present time, and the last occurrence removes the entry (R517, R518). -/
def entryDone (e : Entry) (res : Nat) (s : State) : State :=
  let p := tget s.eph.past e.no { result := 0, firings := 0, last := 0 }
  let s := { s with eph.past := tset s.eph.past e.no { result := res, firings := if res = 3 then p.firings else min 65535 (p.firings + 1), last := e.next } }
  let s := if res = 3 then s else count .eph 0x01 1 s
  let s := if res = 2 then count .eph 0x02 1 (note .eph E.ephFiredLate 0xFF s) else s
  if e.period = 0 || e.left = 1 then { s with eph.entries := s.eph.entries.filter fun x => x.no != e.no }
  else
    let n := max (e.next + e.period) (nextOcc e.start e.period s.eph.time)
    { s with eph.entries := modFirst (fun x => x.no == e.no) (fun x => { x with next := n, left := x.left - 1 }) s.eph.entries }

/-! Snapshot cuts (R521, R524–R527, R533–R535). -/

def cutOf (n : Nat) (s : State) : Option CutDef := s.eph.cuts.find? fun c => c.no == n
def modCut (n : Nat) (f : CutDef → CutDef) (s : State) : State := { s with eph.cuts := modFirst (fun c => c.no == n) f s.eph.cuts }

/-- SNAP_CREATE completes once every epoch it cut is Ready (R533). -/
def cutDone (n : Nat) (s : State) : State :=
  match cutOf n s with
  | none => s
  | some c => match c.mgmt with
    | none => s
    | some (q, tag) =>
      if s.eph.epochs.any fun e => e.mgmt == c.mgmt && e.st == .pending then s
      else
        let s := { s with eph.cuts := s.eph.cuts.filter (fun d => d.no != n),
                          eph.epochs := modAll (fun e => e.mgmt == c.mgmt) (fun e => { e with mgmt := none }) s.eph.epochs }
        mgmtPost q tag c.status c.time (emit (.snapData q tag c.got) s)

/-- Delete the oldest snapshots of a schedule beyond RETAIN, but for those with clones or held (R521). -/
def retain (sched keep nsid : Nat) (s : State) : State :=
  let l := s.eph.epochs.filter fun e => e.sched == sched && e.nsid == nsid && e.st != .deleting
  if keep = 0 then s
  else forEach (l.take (l.length - keep)) (fun e t => if e.clones != 0 || heldEpoch e.no t then t else dropEpoch e.no t) s

/-- An occurrence of a cut is skipped (R518, R533). -/
def cutSkip (e : Entry) (c : CutDef) (st : Nat) (s : State) : State :=
  let s := entryDone e 3 (note .eph E.ephCutSkipped 0xFF s)
  cutDone c.no (modCut c.no (fun d => { d with status := st, got := c.nsids.map fun n => (n, 0) }) s)

/-- A snapshot cut fires: this head's namespaces of it, at one CUT_SEQ; epochs of the peer's namespaces carry numbers of the peer's
reserve, free values here (R524, R525, R534). [DEDUCED: log entry 120] -/
def cutFire (e : Entry) (c : CutDef) (s : State) : State :=
  let mine := c.nsids.filter fun n => (nsOf n s).any fun x => ownsNs x s
  let sched := if e.period = 0 then 0xFFFF else e.no
  let late := lateNow e s
  let at_ := s.eph.time
  let r := takeCut mine c.groupId sched c.retain false false late c.mgmt (sysClause 0 e.no e.next s)
  let d := drawNat r.2
  let got := c.nsids.map fun n => (n, ((r.1.find? fun p => p.1 == n).map (·.2)).getD ((d.1 + n) % 2 ^ 20))
  let bad := r.1.any fun p => p.2 == 0
  let s := if bad then note .eph E.ephCutSkipped 0xFF d.2 else d.2
  let s := modCut c.no (fun d => { d with status := if bad then stEpochReserve else stSuccess, time := at_, got := got }) s
  let s := forEach mine (fun n t => retain sched c.retain n t) s
  cutDone c.no (entryDone e (if late then 2 else 1) s)

/-- A replication cut (R541): skipped while a transfer runs, or for lack of a number (R524). [DEDUCED: log entry 120] -/
def replCut (e : Entry) (s : State) : State :=
  match streamOf e.ref s with
  | none => entryDone e 3 s
  | some x =>
    let skip := fun (t : State) => entryDone e 3 (modStream e.ref (fun x => { x with skipped := min 65535 (x.skipped + 1) }) t)
    if x.cut.isSome then skip s
    else
      let r := takeCut (x.body.ns.map (·.1)) 0 e.no 0 true false (lateNow e s) none (sysClause 0 e.no e.next s)
      if r.1.any fun p => p.2 == 0 then
        skip (forEach (r.1.filter fun p => p.2 != 0) (fun p t => dropEpoch p.2 t) (note .eph E.ephCutSkipped 0xFF r.2))
      else entryDone e (if lateNow e s then 2 else 1) (modStream e.ref (fun x => { x with cut := some (s.eph.time, r.1) }) r.2)

/-- A window opens for the rest of its duration, or is skipped when that has passed (R518, R520).
[DEDUCED: log entry 66] -/
def winFire (e : Entry) (s : State) : State :=
  let dur := 1000000000 * getF (F.ephWinDurDurS e.ref) s
  let at_ := e.start + (s.eph.time - e.start) / max 1 e.period * e.period
  if at_ + dur ≤ s.eph.time then entryDone e 3 s
  else
    let s1 := { s with eph.open_ := (s.eph.open_.filter fun w => w.1 != e.ref) ++ [(e.ref, at_ + dur)] }
    entryDone e (if at_ + 1000 < s.eph.time then 2 else 1) s1

/-- ENTRY_FIRE (R516–R521, R524–R526, R533–R535, R541): the first due entry in order; a TXN_APPLY entry has a command of its own. -/
def execEntryFire (e : Nat) (s : State) : Res :=
  live s (
    match s.eph.entries.find? fun x => x.no == e with
    | none => s
    | some x =>
      if !ephFires s || !dueEntry x s || s.eph.entries.any fun y => dueEntry y s && firesBefore y x then s
      else match x.kind with
        | .txn => s
        | .snapCut => match cutOf x.ref s with
          | none => entryDone x 3 s
          | some c =>
            if !jrnlRoom s then s
            else if x.skipLate && lateNow x s then cutSkip x c stSkippedLate s
            else if x.requireTime && unsure s then cutSkip x c stSkippedTime s
            else cutFire x c s
        | .replCut => if jrnlRoom s then replCut x s else s
        | .winGc | .winPatrol | .winDedup => winFire x s)

/-- CUT_GUARD_END (R526): the completions it delayed are posted. [DEDUCED: log entry 66] -/
def execCutGuardEnd (epoch : Nat) (s : State) : Res :=
  live s (
    if s.eph.guards.any fun g => g.1 == epoch && decide (g.2 ≤ s.eph.time) then
      let s := { s with eph.guards := s.eph.guards.filter fun g => g.1 != epoch }
      settleAll { s with hqe.cmds := s.hqe.cmds.map fun c => if guardHeld c s then c else { c with guard := false } }
    else s)

/-- An epoch's pre-cut versions are all in the map (R525, R529). [DEDUCED: log entry 67] -/
def epochSettled (e : Epoch) (s : State) : Bool :=
  !(s.wb.own.any fun p => p.2.nsid == e.nsid && decide (p.2.seq < e.cutSeq)) &&
  !(s.wb.mir.any fun p => p.2.nsid == e.nsid && decide (p.2.seq < e.cutSeq)) && !nsBusy e.nsid e.cutSeq s

/-- EPOCH_READY (R529, R533). [DEDUCED: log entry 67] -/
def execEpochReady (epoch : Nat) (s : State) : Res :=
  live s (
    match s.eph.epochs.find? fun e => e.no == epoch with
    | none => s
    | some e =>
      if e.st != .pending || !((nsOf e.nsid s).any fun x => ownsNs x s) || !epochSettled e s || !jrnlRoom s then s
      else
        let s := { s with eph.epochs := modAll (fun x => x.no == epoch) (fun x => { x with st := .ready }) s.eph.epochs }
        let s := setInt .eph I.ephCutReady (sysClause e.nsid epoch 2 s)
        let s := forEach ((s.repl.streams.filter fun x => x.mine && !x.body.target && x.cut.any fun c => c.2.any fun b => b.2 == epoch).map (·.slot))
          (fun k t => sendCut k t) s
        match s.eph.cuts.find? fun c => c.mgmt.isSome && c.mgmt == e.mgmt with
        | some c => cutDone c.no s
        | none => s)

/-- EPOCH_RESERVE_REFILL (R524): numbers agreed with the peer over a Troys link. -/
def execEpochReserveRefill (numbers : List Nat) (s : State) : Res :=
  live s (
    if !troysUp s then s
    else
      let ok := fun (n : Nat) => decide (1 ≤ n ∧ n ≤ 1048575) && !s.eph.reserve.contains n && s.eph.epochs.all fun e => e.no != n
      let l := (s.eph.reserve ++ (numbers.filter ok).eraseDups).take 4096
      sendTroys .epochReserve { s with eph.reserve := l })

/-! Control blocks (R521–R523, R533–R537). -/

/-- A list of namespaces has 1 to 1,024 items. [DESIGN CHOICE: log entry 68] -/
def nsListOk (l : List Nat) : Bool := decide (1 ≤ l.length ∧ l.length ≤ 1024)

/-- Some namespace is owned by the peer. [DESIGN CHOICE: log entry 68] -/
def peerNs (l : List Nat) (s : State) : Bool := l.any fun n => (nsOf n s).any fun x => !ownsNs x s

/-- Place an entry in the lowest free place from 16 (R516). [DESIGN CHOICE: log entry 68] -/
def placeEntry (e : Entry) (s : State) : State :=
  { s with eph.entries := s.eph.entries ++ [e], eph.past := terase s.eph.past e.no }

/-- SNAP_CREATE (R519, R523, R533, R534). [DESIGN CHOICE: log entry 68] -/
def execSnapCreate (q tag : Nat) (body : SnapBody) (s : State) : Res :=
  live s (mgmtRun q tag 0x0030 (fun s =>
    let b := body
    let at_ := if b.instant = 0 then (s.eph.time + 100000 + 7) / 8 * 8 else b.instant
    checks q tag
      [(!nsListOk b.nsids || b.instant % 8 != 0, stInvalidField), (b.instant != 0 && timeUnset s, stTimeUnset),
       (b.instant != 0 && b.instant < s.eph.time + 50000, stTimePast), (b.nsids.any fun n => (nsOf n s).isNone, stNsNotFound),
       (peerNs b.nsids s && !troysUp s, stDegraded), ((freeEntry s).isNone, stResource)]
      (fun s =>
        let n := s.eph.nextCut
        let c : CutDef := { no := n, nsids := b.nsids, groupId := b.groupId, retain := 0, mgmt := some (q, tag), status := stSuccess, time := 0, got := [] }
        let e : Entry := { no := (freeEntry s).getD 16, kind := .snapCut, start := at_, next := at_, period := 0, left := 1,
                           skipLate := b.skipLate, requireTime := b.requireTime, ref := n, dormant := false }
        sendTroys (.nsRequest 2 e.no) (placeEntry e { s with eph.cuts := s.eph.cuts ++ [c], eph.nextCut := n + 1 })) s) s)

/-- SNAP_DELETE (R523, R536). -/
def execSnapDelete (q tag nsid epoch : Nat) (s : State) : Res :=
  live s (mgmtRun q tag 0x0031 (fun s =>
    match s.eph.epochs.find? fun e => e.no == epoch && e.nsid == nsid && e.st != .deleting with
    | none => mgmtPost q tag (if (nsOf nsid s).isNone then stNsNotFound else stSnapNotFound) 0 s
    | some e =>
      checks q tag
        [((nsOf nsid s).any fun x => !ownsNs x s, stNotOwner), (e.clones != 0, stSnapHasClones), (heldEpoch epoch s, stSnapInUse)]
        (fun s => mgmtPost q tag stSuccess 0 (dropEpoch epoch s)) s) s)

/-- SNAP_DELETE_WALK (R532, R536): pages that no other map shares are freed with the references they hold; the number and the place
are free again. -/
def execSnapDeleteWalk (epoch : Nat) (s : State) : Res :=
  live s (
    match s.eph.epochs.find? fun e => e.no == epoch with
    | none => s
    | some e =>
      if e.st != .deleting || !running .ftu s then s
      else
        let ps := s.ftu.pages.filter fun p => p.epoch == epoch
        let alone := ps.filter fun p => s.ftu.pages.all fun x => x.pid != p.pid || x.epoch == epoch
        let vs := alone.flatMap fun p => (tslice (mapOf epoch e.nsid s) (p.page * 512) (p.page * 512 + 512)).map (·.2)
        let s := setMap epoch e.nsid [] { s with ftu.pages := s.ftu.pages.filter (fun p => p.epoch != epoch),
                                                 mca.lines := s.mca.lines.filter fun l => l.epoch != epoch }
        let s := forEach (alone.filter fun p => p.flash != 0) (fun p t => subLive p.flash t) s
        forEach vs refDrop { s with eph.epochs := s.eph.epochs.filter (fun x => x.no != epoch),
                                    eph.guards := s.eph.guards.filter fun g => g.1 != epoch })

/-- Clones above a namespace, itself not counted (R537). -/
def cloneDepth : Nat → Nat → State → Nat
  | 0, _, _ => 0
  | f + 1, nsid, s => match nsOf nsid s with
    | none => 0
    | some x =>
      if x.cloneOf = 0 then 0
      else match s.eph.epochs.find? fun e => e.no == x.cloneOf with
        | some e => 1 + cloneDepth f e.nsid s
        | none => 1

/-- CLONE_CREATE (R222, R228, R523, R537): the clone's current map starts as the epoch's pages, shared.
[DESIGN CHOICE: log entry 68] -/
def execCloneCreate (q tag : Nat) (body : CloneBody) (s : State) : Res :=
  live s (mgmtRun q tag 0x0032 (fun s =>
    let b := body
    match nsOf b.srcNsid s with
    | none => mgmtPost q tag stNsNotFound 0 s
    | some x =>
      let n := if b.nsid = 0 then freeNsid [] s else some b.nsid
      let src := s.eph.epochs.find? fun e => e.no == b.srcEpoch && e.nsid == b.srcNsid && e.st == .ready
      checks q tag
        [(decide (32768 < b.nsid) || b.group == 0 || decide (1024 < b.group) || decide (4091 < b.tenant), stInvalidField),
         (src.isNone, stSnapNotFound), ((groupOf b.group s).isNone, stGroupNotFound),
         (!ownsNs x s || (groupOf b.group s).all fun g => !g.mine, stNotOwner), (sanActive s, stSanitizeActive), (!troysUp s, stDegraded),
         (16 ≤ cloneDepth 17 b.srcNsid s, stCloneDepth), (b.nsid != 0 && nsidTaken b.nsid s, stNsidInUse), (n.isNone, stResource),
         (!(keyOk b.key s && keyOk b.nextKey s), stKeyNotLoaded)]
        (fun s =>
          let n := n.getD 0
          let y : Namespace := { x with nsid := n, group := b.group, tenant := b.tenant, key := b.key, nextKey := b.nextKey,
                                        nguid := if b.nguid = 0 then formNguid n s else b.nguid, resv := noResv, mixed := false, format := none,
                                        deleting := none, cloneOf := b.srcEpoch, protect := false }
          let s := nsAdd y (sendTroys (.nsRequest 0 n) s)
          let s := setMap 0 n (mapOf b.srcEpoch b.srcNsid s) s
          let shared := (s.ftu.pages.filter fun p => p.epoch == b.srcEpoch && p.nsid == b.srcNsid).map fun p => { p with epoch := 0, nsid := n }
          let s := { s with ftu.pages := s.ftu.pages ++ shared,
                            eph.epochs := modAll (fun e => e.no == b.srcEpoch) (fun e => { e with clones := e.clones + 1 }) s.eph.epochs }
          mgmtPost q tag stSuccess n (modeEval false s)) s) s)

/-- A period is 0, or a multiple of 8 and at least 1 s (R515). -/
def periodOk (p : Nat) : Bool := p == 0 || (p % 8 == 0 && decide (1000000000 ≤ p))

/-- EPH_PLACE (R515, R516, R519, R521, R523). [DESIGN CHOICE: log entry 68] -/
def execEphPlace (q tag : Nat) (body : PlaceBody) (s : State) : Res :=
  live s (mgmtRun q tag 0x003A (fun s =>
    let b := body
    checks q tag
      [(!nsListOk b.nsids || b.instant == 0 || b.instant % 8 != 0 || !periodOk b.period || decide (4095 < b.retain), stInvalidField),
       (timeUnset s, stTimeUnset), (b.instant < s.eph.time + 50000, stTimePast), (b.nsids.any fun n => (nsOf n s).isNone, stNsNotFound),
       (!runsAlone s && !troysUp s, stDegraded), ((freeEntry s).isNone, stResource)]
      (fun s =>
        let n := s.eph.nextCut
        let no := (freeEntry s).getD 16
        let c : CutDef := { no := n, nsids := b.nsids, groupId := b.groupId, retain := b.retain, mgmt := none, status := stSuccess, time := 0, got := [] }
        let mine := b.nsids.any fun n => (nsOf n s).any fun x => ownsNs x s
        let e : Entry := { no := no, kind := .snapCut, start := b.instant, next := b.instant, period := b.period,
                           left := if b.period = 0 then 1 else b.count, skipLate := b.skipLate, requireTime := b.requireTime, ref := n, dormant := !mine }
        let s := placeEntry e { s with eph.cuts := s.eph.cuts ++ [c], eph.nextCut := n + 1 }
        mgmtPost q tag stSuccess no (sendTroys (.nsRequest 2 no) (sysClause 0 no b.instant s))) s) s)

/-- EPH_REMOVE (R522, R523): RESULT is the instant of the entry's last occurrence. [DESIGN CHOICE: log entry 69] -/
def execEphRemove (q tag entry : Nat) (s : State) : Res :=
  live s (mgmtRun q tag 0x003B (fun s =>
    match s.eph.entries.find? fun e => e.no == entry with
    | none => mgmtPost q tag stEntryNotFound 0 s
    | some e =>
      if e.kind != .snapCut then mgmtPost q tag stEntryProtected 0 s
      else
        let c := cutOf e.ref s
        let s := { s with eph.entries := s.eph.entries.filter (fun x => x.no != entry), eph.cuts := s.eph.cuts.filter fun d => d.no != e.ref }
        let s := match c.bind (·.mgmt) with
          | some (q', tag') => mgmtPost q' tag' stCutCancelled 0 s
          | none => s
        mgmtPost q tag stSuccess ((tget? s.eph.past entry).elim 0 (·.last)) (sendTroys (.nsRequest 3 entry) (sysClause 0 entry 0 s))) s)

end Sys2Proof.Machine
end

