-- ==== Sys2Proof/Machine/Repl.lean ====
section
/-! DEFINITION. Replication streams: setup and teardown, connections, frames, transfers and synchronous writes (R176, R538–R551). -/

namespace Sys2Proof.Machine

def stStreamExists : Nat := 0x011A
def stStreamNotFound : Nat := 0x011B
def stStreamWrap : Nat := 0x011C

/-! Setup and teardown (R538–R540, R551). -/

/-- The REPL_SETUP body holds legal values (R515, R538). -/
def replBodyOk (b : ReplBody) : Bool :=
  b.streamId != 0 && nsListOk (b.ns.map (·.1)) && decide (b.ports < 16 ∧ b.wrapSlot < 16) &&
  decide (100 ≤ b.graceUs ∧ b.graceUs ≤ 1000000) && b.firstCut % 8 == 0 && periodOk b.period &&
  (!b.sync || (b.period == 0 && b.firstCut == 0)) && (b.ns.map (·.1)).eraseDups.length == b.ns.length

/-- The stream keys, unwrapped (R344, R538). -/
def streamKeys (b : ReplBody) (s : State) : Nat × List Byte × List Byte :=
  match (keySlot 2 b.wrapSlot s).bind fun k => if k.st = .loaded then some k.key else none with
  | none => (stStreamWrap, [], [])
  | some w => match Config.kwUnwrap w b.macKey, Config.kwUnwrap w b.xferKey with
    | some m, some x => (stSuccess, m, x)
    | _, _ => (stAuthFailed, [], [])

/-- The lowest free stream slot (R539). -/
def freeStream (s : State) : Option Nat := leastFree (s.repl.streams.map (·.slot)) 64 0

/-- A stream of an identifier on this head. -/
def streamId? (n : Nat) (s : State) : Option Stream := s.repl.streams.find? fun x => x.body.streamId == n

/-- REPL_SETUP (R369, R516, R519, R523, R538–R540). [DEDUCED: log entry 75] -/
def execReplSetup (q tag : Nat) (body : ReplBody) (s : State) : Res :=
  live s (mgmtRun q tag 0x0038 (fun s =>
    let b := body
    let ns := b.ns.map (·.1)
    let k := streamKeys b s
    let cuts := !b.target && !b.sync
    checks q tag
      [(!replBodyOk b, stInvalidField), (b.firstCut != 0 && timeUnset s, stTimeUnset),
       (b.firstCut != 0 && b.firstCut < s.eph.time + 50000, stTimePast), (ns.any fun n => (nsOf n s).isNone, stNsNotFound),
       (peerNs ns s, stNotOwner),
       (s.repl.streams.any fun x => x.body.streamId == b.streamId || x.body.ns.any fun p => ns.contains p.1, stStreamExists),
       (!runsAlone s && !troysUp s, stDegraded), (k.1 != stSuccess, k.1),
       ((freeStream s).isNone || (cuts && (freeEntry s).isNone), stResource)]
      (fun s =>
        let n := (freeStream s).getD 0
        let x : Stream := { slot := n, body := b, mine := true, st := .setup, mac := k.2.1, xfer := k.2.2, base := [], baseAt := 0, cut := none,
                            sending := false, fpq := [], batches := [], nData := 0, nDup := 0, nUnmap := 0, rcut := none, synced := [], skipped := 0,
                            changed := [], sent := 0, saved := 0, lastCut := 0, acks := [], tried := [], authBad := 0 }
        let s := { s with repl.streams := s.repl.streams ++ [x], dge.jobKeys := tset s.dge.jobKeys n k.2.1 }
        let s := if b.target then forEach ns (fun m t => modNs m (fun y => { y with protect := true }) t) s else s
        let at_ := if b.firstCut = 0 then (s.eph.time + 7) / 8 * 8 else b.firstCut
        let e : Entry := { no := (freeEntry s).getD 16, kind := .replCut, start := at_, next := at_, period := b.period, left := 0,
                           skipLate := false, requireTime := false, ref := n, dormant := false }
        let s := if cuts then placeEntry e s else s
        mgmtPost q tag stSuccess n (sendTroys (.nsRequest 3 n) (sysClause 0 b.streamId n s))) s) s)

/-- The newest RECEIVED epoch of a namespace (R543, R551). [DEDUCED: log entry 75] -/
def newestRecv (nsid : Nat) (s : State) : Option Epoch :=
  (s.eph.epochs.filter fun e => e.nsid == nsid && e.received && e.st != .deleting).foldl
    (fun (m : Option Epoch) e => match m with
      | some a => if a.cutSeq ≤ e.cutSeq then some e else some a
      | none => some e) none

/-- The current map of a namespace is replaced by an epoch's, page by page; what only the old one held is dropped with its slots, and the
namespace is writable (R528, R532, R551). [DEDUCED: log entry 75] -/
def promoteNs (nsid : Nat) (s : State) : State :=
  let s := modNs nsid (fun x => { x with protect := false }) s
  match newestRecv nsid s with
  | none => s
  | some e =>
    let r := takeSeq s
    let s := dropSlots nsid 0 (2 ^ 52) r.1 (sysClause nsid e.no r.1 r.2)
    let ps := s.ftu.pages.filter fun p => p.epoch == 0 && p.nsid == nsid
    let alone := ps.filter fun p => s.ftu.pages.all fun x => x.pid != p.pid || (x.epoch == 0 && x.nsid == nsid)
    let vs := alone.flatMap fun p => (tslice (mapOf 0 nsid s) (p.page * 512) (p.page * 512 + 512)).map (·.2)
    let s := setMap 0 nsid (mapOf e.no nsid s)
      { s with ftu.pages := s.ftu.pages.filter (fun p => !(p.epoch == 0 && p.nsid == nsid)),
               mca.lines := s.mca.lines.filter fun l => !(l.epoch == 0 && l.nsid == nsid) }
    let shared := (s.ftu.pages.filter fun p => p.epoch == e.no && p.nsid == nsid).map fun p => { p with epoch := 0 }
    let s := forEach (alone.filter fun p => p.flash != 0) (fun p t => subLive p.flash t) { s with ftu.pages := s.ftu.pages ++ shared }
    forEach vs refDrop s

/-- Remove a stream, its entry and its MAC key state (R369, R519). -/
def removeStream (slot : Nat) (s : State) : State :=
  { s with repl.streams := s.repl.streams.filter (fun x => x.slot != slot),
           eph.entries := s.eph.entries.filter (fun e => !(e.kind == .replCut && e.ref == slot)),
           dge.jobKeys := terase s.dge.jobKeys slot }

/-- Close every connection of a stream. -/
def closeConns (slot : Nat) (s : State) : State :=
  forEach ((s.repl.conns.filter fun r => r.slot == slot).map (·.conn)) (fun n t => closeConn n t) s

/-- REPL_TEARDOWN (R536, R551): a promotion waits until the newest RECEIVED epochs are Ready. [DEDUCED: log entry 75] -/
def execReplTeardown (q tag streamId : Nat) (promote keepBase : Bool) (s : State) : Res :=
  live s (
    let unready := (streamId? streamId s).any fun x => x.body.target && promote && x.body.ns.any fun p =>
      (newestRecv p.1 s).any fun e => e.st != .ready
    if unready then s
    else mgmtRun q tag 0x0039 (fun s =>
      match streamId? streamId s with
      | none => mgmtPost q tag stStreamNotFound 0 s
      | some x =>
        let s := modStream x.slot (fun y => { y with st := .broken }) s
        let s := closeConns x.slot (stopXfer x.slot s)
        let s := removeStream x.slot { s with hqe.cmds := s.hqe.cmds.map fun c => { c with waitSync := c.waitSync.filter (· != x.slot) } }
        let s :=
          if x.body.target then
            if promote then forEach (x.body.ns.map (·.1)) (fun n t => promoteNs n t) s else s
          else
            let cuts := (x.cut.elim [] (·.2)).map (·.2)
            let s := forEach cuts dropEpoch s
            let base := x.base.map (·.2)
            if keepBase then { s with eph.epochs := modAll (fun e => base.contains e.no) (fun e => { e with internal := false }) s.eph.epochs }
            else forEach base dropEpoch s
        mgmtPost q tag stSuccess 0 (settleAll (sysClause 0 streamId 0 s))) s)

/-! Frames (R544–R547). -/

/-- The header of a frame as its bytes (R544). -/
def frameHeader (typ : Nat) (f : Frame) : List Byte :=
  toBytes 4 f.magic ++ toBytes 1 f.version ++ toBytes 1 typ ++
  toBytes 1 (f.dir % 2 + 2 * b2n f.fua + 4 * b2n f.flush + 8 * b2n f.last) ++ toBytes 1 0 ++ toBytes 4 f.streamId ++
  toBytes 4 f.payload.length ++ toBytes 8 f.fseq ++ toBytes 8 f.ref

/-- The MAC over nonce, header and payload holds (R544). [DEDUCED: log entry 71] -/
def macOk (key nonce : List Byte) (typ : Nat) (f : Frame) : Bool :=
  f.mac == Config.hmac256 key (nonce ++ frameHeader typ f ++ f.payload)

/-- MAGIC of a frame (R544). -/
def frameMagic : Nat := 0x46524B48

/-- A connection closes with REPL_AUTH (R547). [DEDUCED: log entry 71] -/
def authFail (conn : Nat) (s : State) : State := note .eph E.ephReplAuth 0xFF (closeConn conn s)

/-- Little-endian field of a payload. -/
def fieldAt (p : List Byte) (at_ n : Nat) : Nat := ofBytes ((p.drop at_).take n)

/-- A frame of an open connection: counted, checked by R547, then `k`. `well` says that the payload is well formed.
[DESIGN CHOICE: log entry 74] -/
def recvFrame (conn typ dir : Nat) (f : Frame) (well : Stream → Bool) (k : ReplConn → Stream → State → State) (s : State) : State :=
  match s.repl.conns.find? fun r => r.conn == conn && r.up with
  | none => s
  | some r => match streamOf r.slot s with
    | none => s
    | some x =>
      if x.body.target != (dir == 0) then s
      else
        let s := count .eph 0x05 1 s
        if f.magic = frameMagic && f.version = 1 && f.streamId == x.body.streamId && f.dir = dir && f.fseq = r.rxSeq + 1 &&
            decide (f.payload.length ≤ 1114112) && macOk x.mac r.nonce typ f && well x then
          k r x { s with repl.conns := modAll (fun c => c.conn == conn) (fun c => { c with rxSeq := f.fseq, lastRx := s.now }) s.repl.conns }
        else authFail conn s

/-- A frame whose effect must wait is not taken yet: nothing changes (R408, R527, R543). -/
def recvWait (conn typ dir : Nat) (f : Frame) (well : Stream → Bool) (hold : Stream → Bool) (k : ReplConn → Stream → State → State)
    (s : State) : State :=
  match (s.repl.conns.find? fun r => r.conn == conn && r.up).bind fun r => streamOf r.slot s with
  | some x => if well x && hold x then s else recvFrame conn typ dir f well k s
  | none => s

/-- FP_CHECK of a namespace (R545). -/
def fpCheck (nsid : Nat) (s : State) : Option Nat :=
  ((nsOf nsid s).bind fun x => domKey x.domain s).map fun k =>
    ofBytes ((Config.hmac256 k ("holkai fp check".toList.map fun c => BitVec.ofNat 8 c.toNat)).take 8)

/-! Connections (R545, R547, R549). -/

/-- Namespace entries of a HELLO: remote NSID and FP_CHECK. [DEDUCED: log entry 70] -/
def helloNs (p : List Byte) : List (Nat × Nat) :=
  (List.range ((p.length - 32) / 16)).map fun i => (fieldAt p (32 + 16 * i) 4, fieldAt p (32 + 16 * i + 4) 8)

/-- HELLO at the target (R545, R547): answered by HELLO_ACK; `nonce` is TARGET_NONCE. [DEDUCED: log entries 70, 71] -/
def execHello (conn : Nat) (f : Frame) (nonce : List Byte) (s : State) : Res :=
  live s (
    if nonce.length != 16 || !(s.fab.conns.any fun c => c.id == conn && c.kind == .repl) || s.repl.conns.any fun r => r.conn == conn then s
    else
      let s := count .eph 0x05 1 s
      if f.magic != frameMagic || f.dir != 0 || f.fseq != 0 || f.payload.length < 32 || f.payload.length % 16 != 0 then authFail conn s
      else match s.repl.streams.find? fun x => x.body.streamId == f.streamId && x.body.target with
        | none => sendFrame conn 2 0 [1] 20 s
        | some x =>
          let ns := helloNs f.payload
          let n := 20 + 4 * ns.length
          if !macOk x.mac (zeros 32) 1 f then authFail conn s
          else if f.version != 1 then sendFrame conn 2 0 [2] n s
          else if ns.map (·.1) != x.body.ns.map (·.1) || ns.any fun p => (nsOf p.1 s).isNone then sendFrame conn 2 0 [3] n s
          else
            let ok := ns.filter fun p => fpCheck p.1 s == some p.2
            let r : ReplConn := { conn := conn, slot := x.slot, up := true, nonce := f.payload.take 16 ++ nonce, connId := fieldAt f.payload 16 4,
                                  fpOk := ok.map (·.1), txSeq := 0, rxSeq := 0, lastRx := s.now, lastTx := s.now }
            let s := { s with repl.conns := s.repl.conns ++ [r] }
            let s := sendFrame conn 2 0 (0 :: ns.map fun p => 1 + 2 * b2n (ok.contains p)) n s
            if x.st == .setup then setStream x.slot .initial s else s)

/-- A synchronous stream cuts what its next transfer carries (R549). [DEDUCED: log entry 73] -/
def catchUp (slot : Nat) (s : State) : State :=
  match streamOf slot s with
  | none => s
  | some x =>
    if !x.body.sync || x.body.target || x.cut.isSome || !(x.st == .initial || x.st == .fractured) || (connsUp slot s).isEmpty || !jrnlRoom s then s
    else
      let r := takeCut (x.body.ns.map (·.1)) 0 0xFFFF 0 true false false none s
      if r.1.any fun p => p.2 == 0 then forEach (r.1.filter fun p => p.2 != 0) (fun p t => dropEpoch p.2 t) (note .eph E.ephCutSkipped 0xFF r.2)
      else modStream slot (fun x => { x with cut := some (s.eph.time, r.1) }) r.2

/-- A connection is up at the source: the first transfer or an interrupted one starts, and strict waiters are sent again (R540, R543,
R549). [DEDUCED: log entry 73] -/
def connUp (slot : Nat) (s : State) : State :=
  let s := modStream slot (fun x => { x with authBad := 0 }) s
  let s := if (streamOf slot s).any fun x => x.st == .setup then setStream slot .initial s else s
  let s := catchUp slot s
  if (connsUp slot s).length != 1 then s
  else
    let s := sendCut slot (modStream slot (fun x => { x with acks := [] }) s)
    forEach ((s.hqe.cmds.filter fun c => c.waitSync.contains slot && c.waitLand.isEmpty && c.phase == .running).map (·.h)) syncSend s

/-- HELLO_ACK at the source (R540, R545, R547). [DEDUCED: log entry 71] -/
def execHelloAck (conn : Nat) (f : Frame) (s : State) : Res :=
  live s (
    match s.repl.conns.find? fun r => r.conn == conn && !r.up with
    | none => s
    | some r => match streamOf r.slot s with
      | none => s
      | some x =>
        if x.body.target then s
        else
          let s := count .eph 0x05 1 s
          let st := fieldAt f.payload 16 4
          let len := 20 + 4 * x.body.ns.length
          let hdr := f.magic = frameMagic && f.version = 1 && f.streamId == x.body.streamId && f.dir = 1 && f.fseq = 0 &&
            decide (20 ≤ f.payload.length) && (st != 0 || f.payload.length == len)
          if st = 1 && hdr then note .eph E.ephReplBroken 0xFF (setStream x.slot .broken (closeConn conn s))
          else if !hdr || !macOk x.mac (zeros 32) 2 f then
            let s := modStream x.slot (fun x => { x with authBad := x.authBad + 1 }) (authFail conn s)
            if 3 ≤ x.authBad + 1 then note .eph E.ephReplBroken 0xFF (setStream x.slot .broken s) else s
          else if st != 0 then note .eph E.ephReplBroken 0xFF (setStream x.slot .broken (closeConn conn s))
          else
            let ok := (x.body.ns.zip (List.range x.body.ns.length)).filter fun p => bit (fieldAt f.payload (20 + 4 * p.2) 4) 1
            let up := fun (c : ReplConn) => { c with up := true, nonce := c.nonce ++ f.payload.take 16, fpOk := ok.map (·.1.1), lastRx := s.now }
            connUp x.slot { s with repl.conns := modAll (fun c => c.conn == conn) up s.repl.conns })

/-- REPL_CONNECT_RETRY (R176, R547): `opened` says that the TCP connection was made; HELLO follows.
[DESIGN CHOICE: log entry 10] -/
def execReplConnectRetry (streamId port : Nat) (opened : Bool) (s : State) : Res :=
  live s (
    match streamId? streamId s with
    | none => s
    | some x =>
      let busy := s.repl.conns.any fun r => r.slot == x.slot && s.fab.conns.any fun c => c.id == r.conn && c.port == port
      let recent := (tget? x.tried port).any fun t => decide (s.now - t < 1000000000)
      if x.body.target || !x.mine || x.st == .broken || 4 ≤ port || !bit x.body.ports port || busy || recent ||
          !onF (F.fabLinkStatUp port) s || !running .toe s then s
      else
        let s := modStream x.slot (fun x => { x with tried := tset x.tried port s.now }) s
        if !opened then s
        else
          let n := s.fab.nextConn
          let d := drawBytes 16 s
          let s := d.2
          let addr := x.body.addrs.getD (ones port x.body.ports) 0
          let c : Conn := { id := n, port := port, kind := .repl, remote := addr, rport := x.body.remotePort, ready := true, hdgst := false,
                            ddgst := false, ctl := none, qid := 0, retx := 0, unacked := 0, cnp := 0 }
          let r : ReplConn := { conn := n, slot := x.slot, up := false, nonce := d.1, connId := n % 2 ^ 32, fpOk := [], txSeq := 0, rxSeq := 0,
                                lastRx := s.now, lastTx := s.now }
          let s := { s with fab.conns := s.fab.conns ++ [c], fab.nextConn := n + 1, repl.conns := s.repl.conns ++ [r] }
          sendFrame n 1 0 (x.body.ns.map (·.2)) (32 + 16 * x.body.ns.length) (count .toe 0x01 1 s))

/-- REPL_CONN_IDLE_TIMEOUT (R547). -/
def execReplConnIdleTimeout (conn : Nat) (s : State) : Res :=
  live s (if s.repl.conns.any fun r => r.conn == conn && decide (10000000000 ≤ s.now - r.lastRx) then closeConn conn s else s)

/-- KEEPALIVE (R545): it only shows that the connection lives. [DESIGN CHOICE: log entry 74] -/
def execKeepalive (conn : Nat) (f : Frame) (s : State) : Res :=
  live s (recvFrame conn 0x30 f.dir f (fun _ => f.payload.isEmpty && f.ref == 0 && decide (f.dir < 2)) (fun _ _ s => s) s)

/-- KEEPALIVE_SEND (R545). -/
def execKeepaliveSend (conn : Nat) (s : State) : Res :=
  live s (if s.repl.conns.any fun r => r.conn == conn && r.up && decide (1000000000 ≤ s.now - r.lastTx) then sendFrame conn 0x30 0 [] 0 s else s)

/-- ABORT (R543, R545): the exchange on this connection is over, so the connection closes.
[DESIGN CHOICE: log entry 74] -/
def execReplAbort (conn : Nat) (f : Frame) (s : State) : Res :=
  live s (recvFrame conn 0x31 f.dir f (fun _ => f.payload.length == 4 && f.ref == 0 && decide (f.dir < 2)) (fun r x s =>
    closeConn conn (if x.body.target then modStream r.slot (fun x => { x with rcut := none }) s else s)) s)

/-! Transfers at the target (R541–R543, R546, R549). -/

/-- Local namespace of an NS index. [DEDUCED: log entry 70] -/
def nsAt (x : Stream) (i : Nat) : Option Nat := (x.body.ns[i]?).map (·.1)

/-- A unit of a stream's namespace by its index. -/
def unitOk (x : Stream) (i u n : Nat) (s : State) : Bool :=
  ((nsAt x i).bind fun m => nsOf m s).any fun y => decide (u + n ≤ unitsOf y)

/-- CUT_BEGIN (R543). -/
def execCutBegin (conn : Nat) (f : Frame) (s : State) : Res :=
  live s (recvFrame conn 0x10 0 f (fun _ => f.payload.length == 8) (fun r _ s =>
    modStream r.slot (fun x => { x with rcut := some f.ref, synced := if x.rcut == some f.ref then x.synced else [] }) s) s)

/-- Records of an FP_BATCH: NS index, unit and fingerprint. [DESIGN CHOICE: log entry 72] -/
def fpRecs (p : List Byte) : List (Nat × Nat × List Byte) :=
  (List.range (p.length / 48)).map fun i => (fieldAt p (48 * i) 2, fieldAt p (48 * i + 8) 8, (p.drop (48 * i + 16)).take 32)

/-- A unit that the target holds already: the FPT index of a Live entry (R280, R281). [DESIGN CHOICE: log entry 72] -/
def fpFind (fp : List Byte) (dom : Nat) (s : State) : Option Nat :=
  if !running .fiu s || !onF F.fiuCtrlSearchEn s || !domOn dom s then none
  else
    let l := tagHits fp dom s ++ (List.range 4).map (fpBkt fp s * 4 + ·)
    l.find? fun i => verified fp dom i s && ((tget? s.fiu.fpt i).any fun e => e.st == .live) && !countFull i s

/-- Write a unit as a duplicate of an index entry (R282, R542). -/
def writeDup (nsid unit i : Nat) (s : State) : State :=
  let r := takeSeq s
  let s := dropSlots nsid unit 1 r.1 (modFpt i (fun e => { e with pendref := e.pendref + 1 }) r.2)
  clause (mkClause cMapDup 0 nsid unit i r.1) s

/-- FP_BATCH (R281, R542): the answer names the records asked for. [DESIGN CHOICE: log entry 72] -/
def execFpBatch (conn : Nat) (f : Frame) (s : State) : Res :=
  let recs := fpRecs f.payload
  let well := fun (x : Stream) => f.payload.length % 48 == 0 && decide (recs.length ≤ 4096) && recs.all (fun e => unitOk x e.1 e.2.1 1 s) && x.rcut == some f.ref
  let hold := fun (x : Stream) => !jrnlRoom s || recs.any fun e => cutHeld ((nsAt x e.1).getD 0) (fun u => u == e.2.1) s
  live s (recvWait conn 0x11 0 f well hold (fun _ x s =>
    let r := recs.foldl (fun (a : List Bool × State) e =>
      let n := (nsAt x e.1).getD 0
      let s := count .fiu 0x01 1 a.2
      if x.synced.contains (n, e.2.1) then (a.1 ++ [false], s)
      else match fpFind e.2.2 ((nsOf n s).elim 0 (·.domain)) s with
        | some i => (a.1 ++ [false], writeDup n e.2.1 i s)
        | none => (a.1 ++ [true], s)) ([], s)
    let asked := ((List.range recs.length).zip r.1).filterMap fun p => if p.2 then some p.1 else none
    sendFrame conn 0x12 f.fseq asked ((recs.length + 7) / 8) r.2) s)

/-- A DATA record: NS index, LOST, COMPRESSED, COUNT, first unit, its place in the frame, and its body. -/
structure DataRec where
  ns    : Nat
  lost  : Bool
  comp  : Bool
  n     : Nat
  unit  : Nat
  idx   : Nat
  body  : List Byte

/-- The DATA records of a payload; none when it is malformed (R546). [DESIGN CHOICE: log entry 74] -/
def dataRecs : Nat → Nat → List Byte → Option (List DataRec)
  | 0, _, p => if p.isEmpty then some [] else none
  | fuel + 1, i, p =>
    if p.isEmpty then some []
    else
      let flags := fieldAt p 2 2
      let n := fieldAt p 4 2
      let len := (fieldAt p 24 4 + 15) / 16 * 16
      let r : DataRec := { ns := fieldAt p 0 2, lost := bit flags 0, comp := bit flags 1, n := n, unit := fieldAt p 8 8, idx := i,
                           body := (p.drop 32).take len }
      if p.length < 32 + len || n = 0 || 256 < n || 3 < flags || (r.lost && fieldAt p 24 4 != 0) ||
          (!r.lost && !r.comp && fieldAt p 24 4 != 4096 * n) then none
      else (dataRecs fuel (i + 1) (p.drop (32 + len))).map (r :: ·)

/-- The plaintext of a record (R330, R546). -/
def recPlain (r : ReplConn) (x : Stream) (fseq : Nat) (d : DataRec) : Option (List Byte) :=
  let pt := Config.xtsDec x.xfer (fseq + 2 ^ 64 * d.idx + 2 ^ 96 * r.connId) d.body
  if d.lost then some []
  else if !d.comp then some pt
  else
    let e := bulkExpand (4096 * d.n) (pt.length + 1) pt [] 0 0
    if e.1 = 0 && e.2.1.length == 4096 * d.n then some e.2.1 else none

/-- The units that a record writes, with their bytes; none for a lost one. -/
def recUnits (x : Stream) (d : DataRec) (plain : List Byte) : List (Nat × Nat × Option (List Byte)) :=
  (List.range d.n).map fun k => ((nsAt x d.ns).getD 0, d.unit + k, if d.lost then none else some ((plain.drop (4096 * k)).take 4096))

/-- All units of a frame; none when it is malformed. -/
def frameUnits (r : ReplConn) (x : Stream) (f : Frame) (s : State) : Option (List (Nat × Nat × Option (List Byte))) :=
  (dataRecs (f.payload.length / 32 + 1) 0 f.payload).bind fun l =>
    if l.all fun d => unitOk x d.ns d.unit d.n s then
      (l.foldr (fun d (a : Option (List (Nat × Nat × Option (List Byte)))) =>
        a.bind fun t => (recPlain r x f.fseq d).map fun p => recUnits x d p ++ t) (some []))
    else none

/-- The units of a frame on this connection. -/
def unitsOn (conn : Nat) (x : Stream) (f : Frame) (s : State) : Option (List (Nat × Nat × Option (List Byte))) :=
  (s.repl.conns.find? fun r => r.conn == conn).bind fun r => frameUnits r x f s

/-- Units cannot land yet: no slots, an earlier write landing, a version that a cut needs, no journal room. -/
def landHeld (us : List (Nat × Nat × Option (List Byte))) (s : State) : Bool :=
  decide (freeSlots s < us.length) || !jrnlRoom s ||
  us.any fun e => landingIn e.1 [e.2.1] s || cutHeld e.1 (fun u => u == e.2.1) s

/-- A unit that the source has lost: its entry is Lost, with its record (R462, R541). -/
def landLost (nsid unit seq : Nat) (s : State) : State :=
  lostAdd nsid unit 0 2 false (dropSlots nsid unit 1 seq (clause (mkClause cMapSet 0 nsid unit lostEntry seq) s))

/-- Land one received unit as a write of tenant group 4,095 (R543). -/
def landUnit (nsid unit : Nat) (bytes : Option (List Byte)) (s : State) : State :=
  let r := takeSeq s
  match bytes with
  | none => landLost nsid unit r.1 r.2
  | some b =>
    let t := takeSlot 0 nsid unit r.1 0 b true false (charge 4095 4096 r.2)
    landSlot t.1 t.2

/-- DATA (R543, R546, R549): a record of a unit that a SYNC_WRITE has written since is discarded. -/
def execReplData (conn : Nat) (f : Frame) (s : State) : Res :=
  let us := fun (x : Stream) => (unitsOn conn x f s).getD []
  let well := fun (x : Stream) => (unitsOn conn x f s).isSome && x.rcut == some f.ref
  let hold := fun (x : Stream) => landHeld (us x) s
  live s (recvWait conn 0x13 0 f well hold (fun _ x s =>
    forEach (us x) (fun e t => if x.synced.contains (e.1, e.2.1) then t else landUnit e.1 e.2.1 e.2.2 t) s) s)

/-- Records of an UNMAP frame: NS index, first unit, count. -/
def unmapRecs (p : List Byte) : List (Nat × Nat × Nat) :=
  (List.range (p.length / 24)).map fun i => (fieldAt p (24 * i) 2, fieldAt p (24 * i + 8) 8, fieldAt p (24 * i + 16) 8)

/-- Units of a run that the map or the write buffer holds. -/
def heldUnits (nsid first n : Nat) (s : State) : List Nat :=
  (mappedIn [0] nsid first n s ++ (s.wb.own.filter fun p => p.2.nsid == nsid && decide (first ≤ p.2.unit ∧ p.2.unit < first + n)).map (·.2.unit)).eraseDups

/-- UNMAP (R431, R541, R545, R549). -/
def execReplUnmap (conn : Nat) (f : Frame) (s : State) : Res :=
  let recs := unmapRecs f.payload
  let well := fun (x : Stream) => f.payload.length % 24 == 0 && recs.all (fun e => unitOk x e.1 e.2.1 e.2.2 s) && x.rcut == some f.ref
  let hold := fun (x : Stream) => !jrnlRoom s || recs.any fun e =>
    cutHeld ((nsAt x e.1).getD 0) (fun u => decide (e.2.1 ≤ u ∧ u < e.2.1 + e.2.2)) s
  live s (recvWait conn 0x14 0 f well hold (fun _ x s =>
    forEach recs (fun e t =>
      let n := (nsAt x e.1).getD 0
      forEach ((heldUnits n e.2.1 e.2.2 t).filter fun u => !x.synced.contains (n, u)) (fun u v =>
        let r := takeSeq v
        unmapUnits n u 1 r.1 r.2) t) s) s)

/-- The older RECEIVED epochs beyond the newest two go (R543). -/
def keepTwo (nsid : Nat) (s : State) : State :=
  let l := s.eph.epochs.filter fun e => e.nsid == nsid && e.received && e.st != .deleting
  forEach (l.take (l.length - 2)) (fun e t => if e.clones != 0 then t else dropEpoch e.no t) s

/-- CUT_END (R543): once every unit has landed, the RECEIVED epochs are cut and CUT_COMMIT goes back; it waits while the journal or the
number reserve is empty. [DEDUCED: log entry 75] -/
def execCutEnd (conn : Nat) (f : Frame) (s : State) : Res :=
  let well := fun (x : Stream) => f.payload.length == 24 && x.rcut == some f.ref
  let hold := fun (x : Stream) => !jrnlRoom s || decide (s.eph.reserve.length < x.body.ns.length) ||
    x.body.ns.any fun p => s.wb.own.any fun y => y.2.nsid == p.1 && y.2.st == .landing && y.2.cmd == 0
  live s (recvWait conn 0x15 0 f well hold (fun r x s =>
    let ns := x.body.ns.map (·.1)
    let c := takeCut ns 0 0xFFFF 0 false true false none s
    let s := forEach ns (fun n t => keepTwo n t) c.2
    let s := modStream r.slot (fun x => { x with rcut := none, synced := [], lastCut := f.ref }) s
    setStream r.slot .active (sendFrame conn 0x16 f.ref [] 0 s)) s)

/-! Transfers at the source (R542, R543). -/

/-- NEED (R542): the units asked for go as data. -/
def execNeed (conn : Nat) (f : Frame) (s : State) : Res :=
  let batch := fun (x : Stream) => x.batches.find? fun b => b.1 == f.ref
  let well := fun (x : Stream) => (batch x).any fun b => f.payload.length == (b.2.length + 7) / 8
  live s (recvFrame conn 0x12 1 f well (fun r x s =>
    let recs := (batch x).elim [] (·.2)
    let mark := (recs.zip (List.range recs.length)).map fun p => (p.1, bit (ofBytes f.payload) p.2)
    let asked := (mark.filter (·.2)).map (·.1)
    let k := recs.length - asked.length
    let s := modStream r.slot (fun x => { x with batches := x.batches.filter (fun b => b.1 != f.ref), nDup := x.nDup + k, saved := x.saved + k }) s
    let s := count .eph 0x07 k s
    xferPump r.slot (forEach (pieces 256 asked) (fun l t => sendUnits r.slot false l t) s)) s)

/-- CUT_COMMIT (R540, R541, R543, R549): the cut becomes the base. -/
def execCutCommit (conn : Nat) (f : Frame) (s : State) : Res :=
  live s (recvFrame conn 0x16 1 f (fun x => f.payload.isEmpty && !x.sending && x.cut.any fun c => c.1 == f.ref) (fun r x s =>
    let s := forEach (x.base.map (·.2)) dropEpoch s
    let s := modStream r.slot (fun x => { x with base := x.cut.elim [] (·.2), baseAt := f.ref, cut := none, changed := [], lastCut := f.ref }) s
    setStream r.slot .active s) s)

/-! Synchronous writes (R548, R549). -/

/-- The command record that a SYNC_WRITE's units wait in, made by its first frame. -/
def syncCmd (conn ref nsid : Nat) (s : State) : Nat × State :=
  match s.hqe.cmds.find? fun c => c.repl == some (conn, ref) with
  | some c => (c.h, s)
  | none =>
    let h := s.hqe.nextH
    let e : Sqe := { cid := 0, opc := 1, fused := false, nsid := nsid, slba := 0, nlb := 0, len := 0, fua := false, deac := false, ranges := [], bufs := [] }
    let r := takeSeq (admitCmd none 0 0 e s)
    (h, modCmd h (fun c => { c with phase := .running, repl := some (conn, ref), seq := r.1, waitPart := 1 }) r.2)

/-- Land one unit of a SYNC_WRITE for its command. -/
def syncUnit (h nsid unit : Nat) (bytes : Option (List Byte)) (fua : Bool) (s : State) : State :=
  match cmdOf h s with
  | none => s
  | some c => match bytes with
    | none => landLost nsid unit c.seq s
    | some b =>
      let t := takeSlot h nsid unit c.seq 0 b true fua (charge 4095 4096 s)
      let s := modCmd h (fun d => { d with waitLand := d.waitLand.filter (· != t.1) ++ [t.1],
                                           waitAck := if peerIn t.2 then d.waitAck.filter (· != t.1) ++ [t.1] else d.waitAck,
                                           waitDur := if fua then d.waitDur ++ [(nsid, unit, c.seq)] else d.waitDur }) t.2
      s

/-- SYNC_WRITE (R211, R213, R543, R548, R549): the last frame lets the command's SYNC_ACK go, at R22 or R23, with FUA at R211, and with
FLUSH at R213. [DESIGN CHOICE: log entry 74] -/
def execSyncWrite (conn : Nat) (f : Frame) (s : State) : Res :=
  let units := fun (x : Stream) => (unitsOn conn x f s).getD []
  let well := fun (x : Stream) => (unitsOn conn x f s).isSome
  let hold := fun (x : Stream) => landHeld (units x) s
  live s (recvWait conn 0x20 0 f well hold (fun r x s =>
    let us := units x
    let ns := x.body.ns.map (·.1)
    let c := syncCmd conn f.ref ((us.head?.map (·.1)).getD (ns.headD 0)) s
    let s := modStream r.slot (fun x => { x with synced := if x.rcut.isSome then (x.synced ++ us.map fun e => (e.1, e.2.1)).eraseDups else x.synced }) c.2
    let s := landPrefix c.1 (forEach us (fun e t => syncUnit c.1 e.1 e.2.1 e.2.2 f.fua t) s)
    let s := if f.flush then forEach ns (fun n t => match cmdOf c.1 t with
        | some d => flushNs d n t
        | none => t) s else s
    let s := if f.last then modCmd c.1 (fun d => { d with waitPart := 0 }) s else s
    durCheck (settle c.1 s)) s)

/-- SYNC_ACK (R548). -/
def execSyncAck (conn : Nat) (f : Frame) (s : State) : Res :=
  live s (recvFrame conn 0x21 1 f (fun _ => f.payload.isEmpty) (fun r x s =>
    match x.acks.find? fun a => a.1 == f.ref with
    | none => s
    | some a =>
      let s := modStream r.slot (fun x => { x with acks := x.acks.filter fun b => b.1 != f.ref }) s
      settle a.2.1 (modCmd a.2.1 (fun c => { c with waitSync := c.waitSync.filter (· != r.slot) }) s)) s)

/-- SYNC_GRACE_EXPIRY (R549). -/
def execSyncGraceExpiry (h : Nat) (s : State) : Res :=
  live s (forEach (s.repl.streams.filter fun x => x.acks.any fun a => a.2.1 == h && decide (1000 * x.body.graceUs ≤ s.now - a.2.2))
    (fun x t => fracture x.slot t) s)

/-- REPL_RECONNECT (R549): the catch-up cut of a fractured stream that is connected again. -/
def execReplReconnect (streamId : Nat) (s : State) : Res :=
  live s (match streamId? streamId s with
    | some x => if x.st == .fractured && x.mine then catchUp x.slot s else s
    | none => s)

end Sys2Proof.Machine
end

