-- ==== Sys2Proof/Machine/Fabric.lean ====
section
/-! DEFINITION. Fabric ports and TOE: links, connections, capsules, timeouts and the frames that microcode answers (R149–R187). -/

namespace Sys2Proof.Machine

/-! Links (R151, R175, R185). -/

/-- FAB_LINK_UP (R151): `speed` is what the partner offers, 1 for 200 GbE and 2 for 400 GbE; MODE 0 takes either, modes 1 and 2 only
400, mode 3 only 200. [DESIGN CHOICE: log entry 23] -/
def execFabLinkUp (port speed : Nat) (s : State) : Res :=
  live s (
    let mode := getF (F.fabLinkCtrlMode port) s
    let ok := if mode = 0 then speed == 1 || speed == 2 else if mode = 3 then speed == 1 else speed == 2
    if 4 ≤ port || blockDown (.fab port) s || onF (F.fabLinkCtrlTxOff port) s || onF (F.fabLinkStatUp port) s || !ok then s
    else
      let s := flagF (F.fabLinkStatAnDone port) (mode == 0) (setF (F.fabLinkStatSpeed port) speed s)
      setInt (.fab port) I.fabLinkUp (setF (F.fabLinkStatUp port) 1 s))

/-- FAB_LINK_DOWN (R164, R175, R185): no fault when the head itself went silent. -/
def execFabLinkDown (port : Nat) (s : State) : Res :=
  live s (
    if 4 ≤ port || !onF (F.fabLinkStatUp port) s then s
    else fabDown port (if onF (F.fabLinkCtrlTxOff port) s then s else note (.fab port) E.fabLinkLost 0xFF s))

/-- FAB_LINK_RESTART (R60, R151): the link goes down and is brought up again under the active MODE. -/
def execFabLinkRestart (port : Nat) (s : State) : Res :=
  live s (if 4 ≤ port then s else regWrite (.fab port) (fun s => if onF (F.fabLinkStatUp port) s then fabDown port s else s) s)

/-! Connections (R153–R159, R162). -/

/-- An address of 128 bits holds an IPv4-mapped one. -/
def isV4 (a : Nat) : Bool := a / 2 ^ 32 == 0xFFFF

/-- The port takes frames to its address of this family (R155). -/
def portServes (port : Nat) (v4 : Bool) (s : State) : Bool :=
  decide (port < 4) && onF (F.fabLinkStatUp port) s && onF (if v4 then F.fabIpv4CfgV4En port else F.fabIpv6CfgV6En port) s

/-- A frame arrived on a port, or leaves it (R185). -/
def fabRx (port : Nat) (s : State) : State := count (.fab port) 0x01 1 s
def fabTx (port : Nat) (s : State) : State := count (.fab port) 0x02 1 s

/-- Open a connection; CONN_HIGH past 90 % of the limit (R159, R186). -/
def openConn (port : Nat) (k : ConnKind) (remote rport : Nat) (ready : Bool) (s : State) : State :=
  let c : Conn := { id := s.fab.nextConn, port := port, kind := k, remote := remote, rport := rport, ready := ready, hdgst := false,
                    ddgst := false, ctl := none, qid := 0, retx := 0, unacked := 0, cnp := 0 }
  let s := count .toe 0x01 1 { s with fab.conns := s.fab.conns ++ [c], fab.nextConn := s.fab.nextConn + 1 }
  if s.fab.conns.length = 58983 then setInt .toe I.toeConnHigh s else s

/-- What listens at a TCP port: NVMe/TCP, discovery, or a stream's target end (R157, R538). -/
def listens (port dst : Nat) (s : State) : Option ConnKind :=
  if dst = getF F.toePortsNvmePort s && onF F.toeCtrlTcpEn s then some .tcp
  else if dst = getF F.toePortsDiscPort s && onF F.toeCtrlDiscEn s then some .disc
  else if s.repl.streams.any fun x => x.body.target && x.body.remotePort == dst && bit x.body.ports port then some .repl
  else none

/-- TCP_SYN (R155–R159, R162): a port without a listener answers RST too. -/
def execTcpSyn (port dstPort remote rport : Nat) (s : State) : Res :=
  live s (
    if !portServes port (isV4 remote) s || !running .toe s then s
    else
      let s := fabTx port (fabRx port s)
      match listens port dstPort s with
      | none => emit (.rst port) s
      | some k =>
        if 65536 ≤ s.fab.conns.length then note .toe E.toeConnFull 0xFF (emit (.rst port) s)
        else
          let n := s.fab.nextConn
          emit (.synAck n) (openConn port k remote rport (k == .repl) s))

/-- RDMA_CONNECT_REQUEST (R156–R159, R162). -/
def execRdmaConnectRequest (port service remote rqpn : Nat) (unsupported : Bool) (s : State) : Res :=
  live s (
    if !portServes port (isV4 remote) s || !running .toe s then s
    else
      let s := fabTx port (fabRx port s)
      if !onF F.toeCtrlRoceEn s || service != getF F.toePortsNvmePort s || unsupported then emit (.rdmaReject port) s
      else if 65536 ≤ s.fab.conns.length then note .toe E.toeConnFull 0xFF (emit (.rdmaReject port) s)
      else
        let n := s.fab.nextConn
        emit (.rdmaAccept n) (openConn port .roce remote rqpn true s))

def connOf (n : Nat) (s : State) : Option Conn := s.fab.conns.find? fun c => c.id == n
def modConn (n : Nat) (f : Conn → Conn) (s : State) : State := { s with fab.conns := modFirst (fun c => c.id == n) f s.fab.conns }

/-- A digest mismatch or a malformed PDU or packet closes the connection (R168): error `e`. -/
def pduError (x : Conn) (e : Nat) (s : State) : State :=
  let s := note .toe e 0xFF s
  let s := if e = E.toeDigestErr then count .toe 0x08 1 s else s
  loseConn x.id (if x.kind == .roce then s else emit (.termReq x.id) s)

/-- ICREQ (R156–R158, R168): digests are granted as TOE_CTRL allows; a feature that is not offered is refused. -/
def execIcreq (conn : Nat) (hdgst ddgst unsupported : Bool) (s : State) : Res :=
  live s (
    match connOf conn s with
    | none => s
    | some x =>
      if !(x.kind == .tcp || x.kind == .disc) || !running .toe s then s
      else if x.ready then pduError x E.toeProtoErr s
      else if unsupported then loseConn conn (emit (.termReq conn) s)
      else
        let h := hdgst && onF F.toeCtrlHdgstOk s
        let d := ddgst && onF F.toeCtrlDdgstOk s
        emit (.icresp conn h d) (modConn conn (fun c => { c with ready := true, hdgst := h, ddgst := d }) s))

/-! Capsules and data (R156, R162, R168–R170). -/

/-- CAPSULE_RECEIVED (R156, R162, R164, R168, R170, R173, R188–R191, R197): it waits in the receive window while HQE takes no command,
the tenant group is throttled or a store is full. [DESIGN CHOICE: log entry 44] -/
def execCapsuleReceived (conn : Nat) (e : Sqe) (hdgstBad ddgstBad malformed : Bool) (s : State) : Res :=
  live s (
    match connOf conn s with
    | none => s
    | some x =>
      if x.kind == .repl || !running .toe s then s
      else if (hdgstBad && x.hdgst) || (ddgstBad && x.ddgst) then pduError x E.toeDigestErr s
      else if malformed || !x.ready then pduError x E.toeProtoErr s
      else match x.ctl with
        | none => pduError x E.toeProtoErr s
        | some i =>
          let c := Ctl.fab i
          let k := ctlOf c s
          let qsize := (sqOf c x.qid s).elim 0 (·.size)
          let used := (s.hqe.cmds.filter fun m => m.ctl == some c && m.qid == x.qid).length
          if !hqeOpen s || (x.qid != 0 && (!k.en || !k.rdy || k.cfs)) || qsize ≤ used then s
          else if throttled (tenantOf c s) s then count .hqe 0x0B 1 s
          else if heldByWb x.qid e s || heldByFwd x.qid e s then s
          else deliver c x.qid e (count .toe 0x07 1 s))

/-- H2CDATA_RECEIVED (R156, R157): write data of a fabric command. [DESIGN CHOICE: log entry 44] -/
def execH2cdataReceived (h bytes : Nat) (s : State) : Res :=
  live s (
    match cmdOf h s with
    | some c => match c.ctl with
      | some (.fab _) => if c.need = 0 || !running .toe s then s else dataArrived h (min (min 131072 bytes) c.need) s
      | _ => s
    | none => s)

/-- TRANSMIT_ACKNOWLEDGED (R156, R169): held data is freed; a NAK starts go-back-N. -/
def execTransmitAcknowledged (conn bytes : Nat) (nak : Bool) (s : State) : Res :=
  live s (
    match connOf conn s with
    | none => s
    | some x =>
      if !running .toe s then s
      else if nak && x.kind == .roce then count .toe 0x04 1 (emit (.retransmit conn) s)
      else modConn conn (fun c => { c with unacked := c.unacked - bytes, retx := 0 }) s)

/-- CONGESTION_NOTIFICATION_PACKET (R156, R186): the rate is reduced while CC_EN is 1. -/
def execCongestionNotificationPacket (conn : Nat) (s : State) : Res :=
  live s (
    match connOf conn s with
    | none => s
    | some x =>
      if x.kind != .roce || !running .toe s then s
      else
        let s := count .toe 0x05 1 s
        if onF F.toeRoceCcEn s then modConn conn (fun c => { c with cnp := c.cnp + 1 }) s else s)

/-! Ends and timeouts (R164–R168). -/

/-- ASSOCIATION_END (R164): the host closed the connection. -/
def execAssociationEnd (conn : Nat) (s : State) : Res := live s (loseConn conn s)

/-- KEEP_ALIVE_TIMEOUT (R164, R165): 0 disables the timer. -/
def execKeepAliveTimeout (index : Nat) (s : State) : Res :=
  live s (if s.hqe.ctls.any fun k => k.id == .fab index && k.kato != 0 then endAssoc index (note .toe E.toeKatoExpired 0xFF s) else s)

/-- TCP_RTO_EXPIRY (R164, R166). -/
def execTcpRtoExpiry (conn : Nat) (s : State) : Res :=
  live s (
    match connOf conn s with
    | none => s
    | some x =>
      if x.kind == .roce || !running .toe s then s
      else if getF F.toeTcpRetxMax s ≤ x.retx then loseConn conn (note .toe E.toeRetxFail 0xFF s)
      else count .toe 0x03 1 (emit (.retransmit conn) (modConn conn (fun c => { c with retx := c.retx + 1 }) s)))

/-- ROCE_RETRY_TIMEOUT (R164, R167): `limit` is the retry count agreed at connection. -/
def execRoceRetryTimeout (conn limit : Nat) (s : State) : Res :=
  live s (
    match connOf conn s with
    | none => s
    | some x =>
      if x.kind != .roce || !running .toe s then s
      else if limit ≤ x.retx then loseConn conn (note .toe E.toeRetxFail 0xFF s)
      else count .toe 0x04 1 (emit (.retransmit conn) (modConn conn (fun c => { c with retx := c.retx + 1 }) s)))

/-! Frames for microcode, and flow control (R153, R155, R185). -/

/-- MAC address of a port, and the link-local address formed from it (R153). [DESIGN CHOICE: log entry 103] -/
def macOf (port : Nat) (s : State) : Nat := get64 (F.fabMacLoMac port) (F.fabMacHiMac port) s
def linkLocal (mac : Nat) : Nat :=
  0xFE80 * 2 ^ 112 + 2 ^ 40 * ((mac / 2 ^ 24) ^^^ 0x020000) + 0xFFFE * 2 ^ 24 + mac % 2 ^ 24

/-- IPv6 address of a port. -/
def ipv6Of (port : Nat) (s : State) : Nat := (List.range 4).foldl (fun a k => a + getF (F.fabIpv6WAddr port k) s * 2 ^ (32 * k)) 0

/-- ARP_REQUEST (R153, R155): only an address whose enable bit is 1 is answered. -/
def execArpRequest (port addr : Nat) (v6 : Bool) (s : State) : Res :=
  live s (
    if 4 ≤ port || !onF (F.fabLinkStatUp port) s then s
    else
      let s := fabRx port s
      let mine := if v6 then addr == ipv6Of port s || addr == linkLocal (macOf port s) else addr == getF (F.fabIpv4Addr port) s
      if portServes port (!v6) s && mine then fabTx port (emit (.arpReply port addr) s) else s)

/-- LLDP_FRAME (R153): received by microcode, with no effect but the count. -/
def execLldpFrame (port : Nat) (s : State) : Res :=
  live s (if 4 ≤ port || !onF (F.fabLinkStatUp port) s then s else fabRx port s)

/-- PFC_FRAME (R153, R185): honoured on the RoCEv2 priority while PFC_EN is 1. -/
def execPfcFrame (port : Nat) (pause : Bool) (s : State) : Res :=
  live s (
    if 4 ≤ port || !onF (F.fabLinkStatUp port) s then s
    else
      let s := count (.fab port) 0x08 1 (fabRx port s)
      if !onF (F.fabVlanPfcEn port) s then s
      else if pause then { s with fab.paused := tset s.fab.paused port ((tget? s.fab.paused port).getD s.now) }
      else { s with fab.paused := terase s.fab.paused port })

/-- PFC_STORM (R185): paused without a break for 100 ms. -/
def execPfcStorm (port : Nat) (s : State) : Res :=
  live s (if (tget? s.fab.paused port).any fun t => decide (100000000 ≤ s.now - t) then note (.fab port) E.fabPfcStorm 0xFF s else s)

end Sys2Proof.Machine
end

