-- ==== Sys2Proof/Machine/Pair.lean ====
section
/-! DEFINITION. The pair: Troys packets and links, windows, the mirror half, the join and resynchronisation, forwarded commands,
reference counts, and moving ownership (R554–R568, R585–R591). -/

namespace Sys2Proof.Machine

/-- The other head's index. -/
def peerHead (s : State) : Nat := 1 - s.pins.headSel % 2

/-! Packets received (R556–R558, R562). -/

/-- Take a packet: its HCRC, then its CSEQ; what it carries is taken in CSEQ order and acknowledged (R558). A packet is answered with
NAK while the one before it is missing. A link of a refused join carries only JOIN records (R566).
[DEDUCED: log entry 77] -/
def takePkt (link : Nat) (p : Pkt) (f : State → State) (s : State) : State :=
  if !onF (F.tlLinkStatUp link) s || blockDown (.tl link) s then s
  else
    let s := count (.tl link) 0x04 (32 + p.len) (count (.tl link) 0x02 1 s)
    let c := chanOf p.ch s
    let nak := fun (n cause : Nat) => onLink link (.nak p.ch n cause) s
    if !p.hcrcOk then nak (c.taken + 1) 2
    else if !s.pair.joined || p.cseq ≤ c.taken then s
    else if p.cseq != c.taken + 1 then nak (c.taken + 1) 3
    else onLink link (.ack p.ch p.cseq) (f (putChan p.ch { c with taken := p.cseq } s))

/-! The mirror half (R249, R250, R560). -/

/-- Key of a 4 KiB page of a window. [DEDUCED: log entry 81] -/
def memKey (win page : Nat) : Nat := 2 ^ 24 * win + page

/-- Bytes of a page of the mirror half; unwritten memory reads as zeros. -/
def mirPage (win page : Nat) (s : State) : List Byte := tget s.pair.mirMem (memKey win page) (zeros 4096)

/-- The pages that bytes from `off` on touch, with each page's first byte and part. -/
def pageParts (off : Nat) (data : List Byte) : List (Nat × Nat × List Byte) :=
  let a := off % 4096
  (off / 4096, a, data.take (4096 - a)) :: (if data.length ≤ 4096 - a then [] else [(off / 4096 + 1, 0, data.drop (4096 - a))])

/-- Write bytes into a window. [DEDUCED: log entry 81] -/
def mirWrite (win off : Nat) (data : List Byte) (s : State) : State :=
  forEach (pageParts off data) (fun x t => { t with pair.mirMem := tset t.pair.mirMem (memKey win x.1) (overlay (mirPage win x.1 t) x.2.1 x.2.2) }) s

/-- A number in bytes `lo` on of a record. -/
def field (d : List Byte) (lo n : Nat) : Nat := ofBytes ((d.drop lo).take n)

/-- The CRC at the end of a record of `n` bytes holds. -/
def crcAt (d : List Byte) (n : Nat) : Bool := field d (n - 4) 4 == crc32c (d.take (n - 4))

/-- Slot states by their number (R251). [DEDUCED: log entry 81] -/
def slotSt? : Nat → Option SlotSt
  | 1 => some .landing
  | 2 => some .filled
  | 3 => some .destaging
  | 4 => some .placed
  | 5 => some .releasing
  | _ => none

/-- The slot that a descriptor and the stored data make; none for a Free one (R250). A landing slot whose data is here is whole.
[DEDUCED: log entry 81] -/
def descSlot (n : Nat) (d : List Byte) (s : State) : Option Slot :=
  (slotSt? (field d 20 1)).map fun st =>
    let fl := field d 22 1
    { nsid := field d 0 4, unit := field d 4 8, seq := field d 12 8, st := st, mask := field d 21 1, durable := bit fl 0,
      landed := (tget? s.pair.mirMem (memKey 0 n)).isSome, acked := false, shadow := bit fl 2, replaced := bit fl 3, fillDone := bit fl 1,
      cmd := 0, filledAt := 0, data := mirPage 0 n s }

/-- A descriptor of the mirror half has been written: the slot follows it (R563). [DEDUCED: log entry 81] -/
def descArrived (n : Nat) (d : List Byte) (s : State) : State :=
  if !crcAt d 32 || 1835008 ≤ n then s
  else match descSlot n d s with
    | none => { s with wb.mir := terase s.wb.mir n, pair.mirMem := terase s.pair.mirMem (memKey 0 n) }
    | some x => { s with wb.mir := tset s.wb.mir n x }

/-- A copied descriptor: the copy with the higher SEQ is kept (R585). -/
def copyArrived (n : Nat) (d : List Byte) (s : State) : State :=
  if (tget? s.wb.mir n).any fun x => decide (field d 12 8 < x.seq) then s
  else
    let s := match tget? s.pair.copied n with
      | some b => { s with pair.mirMem := tset s.pair.mirMem (memKey 0 n) b }
      | none => s
    descArrived n d { s with pair.copied := terase s.pair.copied n }

/-! The peer's clauses (R405–R407, R413, R567). -/

/-- A clause as stored, when its CHK and type hold (R406). -/
def clauseOf (d : List Byte) : Option Clause :=
  let t := field d 0 1
  if field d 2 2 != crc32c (d.take 2 ++ (d.drop 4).take 28) % 65536 || !(t ≤ 0xC || t == 0xF || t / 16 == 1) then none
  else some { typ := t, flags := field d 1 1, nsid := field d 4 4, p0 := field d 8 8, p1 := field d 16 8, p2 := field d 24 8 }

/-- The header of a clause block of the peer, when it holds: COUNT and FIRST_CSEQ (R405). [DEDUCED: log entry 85] -/
def blockHdr (d : List Byte) (s : State) : Option (Nat × Nat) :=
  if field d 0 4 == 0x424A4B48 && field d 4 1 == peerHead s && crcAt (d.take 64) 64 && field d 6 2 ≤ 126 then some (field d 6 2, field d 16 8) else none

/-- Put block numbers into the members of a band, in order, K to each (R406, R415). [DEDUCED: log entry 85] -/
def fillBlocks (k : Nat) (ms : List (Nat × List Nat)) (x : Nat) : List (Nat × List Nat) :=
  modFirst (fun m => decide (m.2.length < k)) (fun m => (m.1, m.2 ++ [x])) ms

/-- The peer opens a band (R406, R415): the clause names no members. When more are in service than it takes, which they are is a free
choice. [DEDUCED: log entry 83] -/
def peerBandOpen (c : Clause) (cseq : Nat) (s : State) : State :=
  let d := c.p2 % 256
  let p := c.p2 / 256 % 256
  let ms := inSvc s
  let r := drawNat s
  let s := if ms.length = d + p then s else r.2
  let pick := if ms.length = d + p then ms else
    ((List.range (d + p)).map fun i => ms.getD ((r.1 + i) % max 1 ms.length) 0).mergeSort (· ≤ ·)
  let b : Band := { no := c.p0, st := .open_, d := d, p := p, k := c.p2 / 2 ^ 16 % 16, cls := c.p2 / 2 ^ 20 % 8, bseq := c.p1, live := 0,
                    stripes := 0, cbits := 0, isMeta := bit c.p2 23, isGc := bit c.p2 24, reloc := false, short := false, degraded := false,
                    mine := false, members := pick.map fun m => (m, []), fwd := 0, openCseq := cseq, wrong := [] }
  { s with ftu.bands := (s.ftu.bands.filter fun x => x.no != c.p0) ++ [b] }

/-- CONT: seven block numbers of the band opened last (R406). [DEDUCED: log entry 84] -/
def peerCont (c : Clause) (s : State) : State :=
  let half : Nat → List Nat := fun w => [w % 2 ^ 32, w / 2 ^ 32]
  let nums := c.nsid :: (half c.p0 ++ half c.p1 ++ half c.p2)
  match (s.ftu.bands.filter fun b => !b.mine && decide (b.members.any fun m => m.2.length < b.k)).getLast? with
  | none => s
  | some b =>
    let b' := { b with members := nums.foldl (fillBlocks b.k) b.members }
    let s := modBand b.no (fun _ => b') s
    forEach b'.members (fun m t => forEach m.2 (fun x u => setBlk m.1 x 1 u) t) s

/-- A map entry of a peer's namespace, in every map the clause applies to. -/
def peerSet (nsid unit v seq : Nat) (s : State) : State := forEach (mapsFor nsid seq s) (fun e t => mapPut e nsid unit v t) s

/-- Apply a clause of the peer (R407, R567): its map, its bands and its erase blocks. Counts are the peer's until a takeover. The peer's
FPT is not here: what a MAP_DUP of it names is a free value. [DEDUCED: log entry 84] -/
def peerApply (cseq : Nat) (c : Clause) (s : State) : State :=
  match c.typ with
  | 1 =>
    if c.flags % 2 = 0 then peerSet c.nsid c.p0 c.p1 c.p2 s
    else
      let ks := (List.range 4).filter fun k => bit c.flags (4 + k)
      forEach (ks.zip (List.range 4)) (fun k t => peerSet c.nsid (c.p0 + k.1) (c.p1 + k.2) c.p2 t) s
  | 2 =>
    let d := drawNat s
    peerSet c.nsid c.p0 (d.1 % 2 ^ 64) c.p2 d.2
  | 3 =>
    let es := mapsFor c.nsid c.p2 s
    forEach (mappedIn es c.nsid c.p0 c.p1 s) (fun x t => peerSet c.nsid x 0 c.p2 t) s
  | 4 =>
    if bit c.flags 1 then
      let e := epochAt c.nsid (c.flags / 16 + 16 * (c.p0 / 2 ^ 52)) s
      let u := c.p0 % 2 ^ 52
      if mapGet e c.nsid u s = c.p1 then fwdDec c.p1 (mapPut e c.nsid u c.p2 s) else s
    else
      let s := if mapGet 0 c.nsid c.p0 s = c.p1 then mapPut 0 c.nsid c.p0 c.p2 s else s
      let s := { s with ftu.fwd := modAll (fun f => f.new == c.p1) (fun f => { f with new := c.p2 }) s.ftu.fwd }
      let left := (namesOf (fun v => v == c.p1) s).length
      if bit c.flags 0 && 0 < left then
        modBand (uBand c.p1) (fun b => { b with fwd := b.fwd + 1 })
          { s with ftu.fwd := s.ftu.fwd ++ [{ old := c.p1, new := c.p2, remain := left }] }
      else s
  | 5 =>
    let keepLive := (bandOf (uBand c.p2) s).any fun b => (b.st == .open_ || b.st == .sealed_) && unitNamed c.p2 s
    if mapGet 0 c.nsid c.p0 s = c.p1 && keepLive then mapPut 0 c.nsid c.p0 c.p2 s else s
  | 6 => peerBandOpen c cseq s
  | 7 => modBand c.p0 (fun b => { b with st := .sealed_, stripes := c.p1 + 1, short := bit c.p2 0 }) s
  | 8 => modBand c.p0 (fun b => { b with st := .erasing }) s
  | 9 =>
    let s := match bandOf c.p0 s with
      | some b => forEach b.members (fun m t => forEach m.2 (fun x u => if (blkOf m.1 x u).st = 3 then u else setBlk m.1 x 5 u) t) s
      | none => s
    { s with ftu.bands := (modAll (fun b => b.no == c.p0) (fun b => { b with st := .forwarded }) s.ftu.bands).filter
               fun b => b.no != c.p0 || 0 < b.fwd }
  | 0xA => putBlk c.p0 c.p1 { blkOf c.p0 c.p1 s with st := 3, reason := c.p2 } s
  | 0xB => { s with ftu.extents := tset s.ftu.extents (65536 * c.p0 + c.p1) (c.p2 == s.pins.headSel) }
  | 0xC => { s with pair.peerJ := s.pair.peerJ.filter fun j => decide (c.p1 ≤ j.cseq) }
  | 0xF => peerCont c s
  | _ => s

/-- Store one clause of the peer: those follow each other without a gap (R412, R567). [DEDUCED: log entry 84] -/
def peerClause (cseq : Nat) (c : Clause) (s : State) : State :=
  if (s.pair.peerJ.getLast?).any fun j => j.cseq + 1 != cseq then s
  else
    let t := peerApply cseq c s
    { t with pair.peerJ := t.pair.peerJ ++ [{ cseq := cseq, clause := c, eff := effectOf c s t }], pair.peerApplied := cseq + 1 }

/-- A page of the clause journal has been written: take the clauses it now holds, up to the first that fails its check (R405).
[DEDUCED: log entry 85] -/
def journalPage (page : Nat) (s : State) : State :=
  let d := mirPage 2 page s
  match blockHdr d s with
  | none => s
  | some (n, first) =>
    let cs := (List.range n).map fun i => (first + i, clauseOf ((d.drop (64 + 32 * i)).take 32))
    forEach (cs.takeWhile fun c => c.2.isSome) (fun c t => match c.2 with
      | some x => peerClause c.1 x t
      | none => t) s

/-! Output comparison of the peer's stream (R569–R571). -/

/-- CDIG and MDIG of clauses (R570). -/
def cDig (l : List JClause) : List Byte := (Config.sha256 (l.flatMap fun j => clauseBytes j.clause)).take 16
def mDig (l : List JClause) : List Byte :=
  (Config.sha256 (l.flatMap fun j =>
    toBytes 4 j.clause.nsid ++ toBytes 1 j.clause.typ ++ toBytes 1 j.eff.1 ++ toBytes 2 0 ++ toBytes 8 j.eff.2.1 ++ toBytes 8 j.eff.2.2)).take 16

/-- The clauses of a window. -/
def winOf (first n : Nat) (l : List JClause) : List JClause := l.filter fun j => decide (first ≤ j.cseq ∧ j.cseq < first + n)

/-- Conjunction mode. [DEDUCED: log entry 89] -/
def conjunction (s : State) : Bool := getF F.mirPairStatMode s = 1

/-- Arbitration of a window of head `stream`'s stream begins; one runs at a time (R571). -/
def arbBegin (stream first : Nat) (s : State) : State :=
  if s.pair.arb.isSome then s
  else incSatF F.ocuCountsArbitrations 1 (setF F.ocuStatArbitrating 1 { s with pair.arb := some (stream, first) })

/-- A mismatch: it is recorded, and the head that finds it first sends ARBITRATE (R571). -/
def mismatch (stream first : Nat) (s : State) : State :=
  let s := note .ocu E.ocuMismatch 0xFF (incSatF F.ocuCountsMismatches 1 s)
  if s.pair.arb.isSome then s else arbBegin stream first (sendTroys (.arbitrate stream first) s)

/-- Answer a window of the peer whose clauses are all stored, and compare it (R569, R571). -/
def answerWin (w : DigWin) (s : State) : State :=
  let l := winOf w.first w.count s.pair.peerJ
  if l.length != w.count then s
  else
    let c := cDig l
    let m := if conjunction s then mDig l else zeros 16
    let s := { s with pair.peerWins := s.pair.peerWins.filter fun x => x.first != w.first || x.count != w.count }
    let s := set64 F.ocuPeerWinLoPeer F.ocuPeerWinHiPeer w.first (count .ocu 0x02 1 s)
    let s := sendTroys (.digest true (peerHead s) w.first w.count c m) s
    if c != w.cdig || (conjunction s && m != w.mdig) then mismatch (peerHead s) w.first s else s
def answerAll (s : State) : State := forEach s.pair.peerWins answerWin s

/-! TROYS_WRITE (R558–R563, R567, R585). -/

/-- A write within its window has arrived. -/
def writeTaken (p : Pkt) (data : List Byte) (s : State) : State :=
  let n := p.offset / 4096
  if p.ch = 5 && p.win = 0 then { s with pair.copied := tset s.pair.copied n (overlay (tget s.pair.copied n (zeros 4096)) (p.offset % 4096) data) }
  else
    let s := mirWrite p.win p.offset data s
    match p.win with
    | 1 =>
      if 58720256 < p.offset + p.len then s
      else
        let k := p.offset / 32
        forEach (List.range ((p.offset % 32 + p.len + 31) / 32)) (fun i t =>
          let d := ((mirPage 1 ((k + i) / 128) t).drop ((k + i) % 128 * 32)).take 32
          if p.ch = 5 then copyArrived (k + i) d t else descArrived (k + i) d t) s
    | 2 => answerAll (forEach (pageParts p.offset data) (fun x t => journalPage x.1 t) s)
    | _ => s

/-- TROYS_WRITE: refused with NAK WINDOW past the window's active size. [DEDUCED: log entry 77] -/
def execTroysWrite (link : Nat) (pkt : Pkt) (data : List Byte) (s : State) : Res :=
  let w := tget s.pair.wins (link * 8 + pkt.win) { base := 0, size := 0 }
  live s (
    if data.length != pkt.len || pkt.typ != 1 || !(pkt.ch == 0 || pkt.ch == 1 || pkt.ch == 5) || 7 < pkt.win then s
    else if pkt.hcrcOk && s.pair.joined && onF (F.tlLinkStatUp link) s && !blockDown (.tl link) s &&
        (w.size == 0 || decide (4096 * w.size < pkt.offset + pkt.len)) then
      onLink link (.nak pkt.ch pkt.cseq 1) (count (.tl link) 0x04 (32 + pkt.len) (count (.tl link) 0x02 1 s))
    else takePkt link pkt (writeTaken pkt data) s)

/-! Acknowledgement (R558). -/

/-- TROYS_ACK: cumulative; it frees packets, grants credit, and journals the clauses it covers. -/
def execTroysAck (ch cseq credit : Nat) (s : State) : Res :=
  live s (
    if !troysUp s || !s.pair.joined then s
    else
      let gone := s.pair.sent.filter fun x => x.ch == ch && decide (x.cseq ≤ cseq) && x.link < 2
      let s := { s with pair.sent := s.pair.sent.filter fun x => !(x.ch == ch && decide (x.cseq ≤ cseq) && x.link < 2) }
      let s := pumpCh ch (putChan ch { chanOf ch s with credit := some credit } s)
      let cl := gone.filterMap fun x => match x.what with
        | .clause n => some (n + 1)
        | _ => none
      if cl.isEmpty then s else clausesAcked (cl.foldl max 0) s)

/-- TROYS_NAK (R558, R562): WINDOW is a Class 2 fault of the link, which is reset; HCRC and SEQUENCE resend.
[DEDUCED: log entry 77] -/
def execTroysNak (link ch cseq cause : Nat) (s : State) : Res :=
  live s (
    if !onF (F.tlLinkStatUp link) s then s
    else if cause = 1 then tlDown link (raise (.tl link) E.tlWindowNak 0xFF s)
    else if cause = 2 || cause = 3 then resend (fun x => x.ch == ch && decide (cseq ≤ x.cseq)) s
    else s)

/-! Windows (R561). -/

/-- WIN_COMMIT: the standby set becomes active on this link. -/
def execWinCommit (link : Nat) (s : State) : Res :=
  live s (regWrite (.tl link) (fun s =>
    let s := forEach (List.range 8) (fun w t =>
      let x : Win := { base := bankF (F.tlWinBaseLoBaseLo link) w 0 t + 0x100000000 * bankF (F.tlWinBaseHiBaseHi link) w 0 t,
                       size := bankF (F.tlWinSizeSize link) w 0 t }
      { t with pair.wins := tset t.pair.wins (link * 8 + w) x }) s
    setInt (.tl link) I.tlWinDone (incF (F.tlWinCtrlWinSeq link) s)) s)

/-! Links (R554, R565, R576). -/

/-- TROYS_LINK_UP: with the first link a JOIN record goes out, the head is Severed no longer, and windows not answered are sent again
(R565, R573, R576). [DESIGN CHOICE: log entry 23] -/
def execTroysLinkUp (link speed width : Nat) (s : State) : Res :=
  live s (
    if onF (F.tlLinkStatUp link) s || blockDown (.tl link) s || onF (F.tlLinkCtrlTxOff link) s || !(speed == 5 || speed == 6) ||
        !(width == 8 || width == 16) then s
    else
      let first := !troysUp s
      let s := setF (F.tlLinkStatSpeed link) (min speed (getF (F.tlLinkCtrlMaxSpeed link) s))
        (setF (F.tlLinkStatWidth link) (min width (getF (F.tlLinkCtrlMaxWidth link) s)) s)
      let s := setInt (.tl link) I.tlLinkUp (setF (F.tlLinkStatFlit link) 1 (setF (F.tlLinkStatUp link) 1 s))
      let s := if first then peerAna (onLink link .join (setF F.mirPairStatSevered 0 s)) else s
      let s := forEach (List.range 6) pumpCh s
      if !first || !s.pair.joined then s
      else forEach (s.pair.ownWins.filter fun w => s.pair.sent.all fun x => x.what != .digest false s.pins.headSel w.first w.count w.cdig w.mdig)
        (fun w t => sendTroys (.digest false t.pins.headSel w.first w.count w.cdig w.mdig) t) s)

/-! The join (R565, R566, R585). -/

/-- CFG_DIGEST: SHA-256 over the active PAR_CLASS_CFG records and EPH_WIN sets, as 32-bit words (R565). -/
def cfgDigest (s : State) : List Byte :=
  let cls := (List.range 8).map fun i =>
    bankF F.parClassCfgP i 1 s + 2 ^ 8 * bankF F.parClassCfgD i 8 s + 2 ^ 16 * bankF F.parClassCfgEn i (if i = 0 then 1 else 0) s
  let win := (List.range 3).flatMap fun k => [getF (F.ephWinPeriodPeriodS k) s, getF (F.ephWinOffsetOffsetS k) s, getF (F.ephWinDurDurS k) s]
  Config.sha256 ((cls ++ win).flatMap (toBytes 4))

/-- Why this head refuses a JOIN record; 0 when it accepts it (R566, R669). [DEDUCED: log entry 86] -/
def joinCause (r : JoinRec) (s : State) : Nat :=
  if r.pairId != get64 F.hqePairIdLoPairLo F.hqePairIdHiPairHi s then 1
  else if r.head = s.pins.headSel then 2
  else if r.ucodeVer < s.bld.peerMin || s.bld.peerMax < r.ucodeVer then 3
  else if r.cfgDigest != cfgDigest s then 4
  else if s.bld.setVer < r.setVer then 5
  else 0

/-- A head in service resynchronises with a peer that has joined: a standby joins, any other is the server (R585, R643).
[DEDUCED: log entry 78] -/
def resyncStart (s : State) : State :=
  if s.pair.joined && inService s && !onF F.mirPairStatMirrorCurrent s then
    { s with pair.role := if s.pair.role == .standby || s.pair.role == .joining then .joining else .serving,
             pair.resync := some (s.pair.resync.getD false) }
  else s

/-- JOIN (R33, R566, R568, R585): a head in service becomes the server of a resynchronisation; the pair's mode is evaluated.
[DEDUCED: log entries 78, 86] -/
def execJoin (rec : JoinRec) (s : State) : Res :=
  live s (
    let c := joinCause rec s
    if !troysUp s then s
    else if c != 0 then
      let link := if onF (F.tlLinkStatUp 0) s then 0 else 1
      let s := onLink link (.joinRefused c) (note (.tl link) E.tlJoinRefused 0xFF (setF F.mirJoinCause c s))
      let s := if s.pair.joined then peerGone s else s
      if inService s then { s with pair.role := .alone } else s
    else
      let s := { setF F.mirJoinCause 0 (setF F.hbuStatPeerFault 0 s) with pins.peerFaultN := true, pair.peerUcode := rec.ucodeVer }
      let s := if s.pair.joined then s
        else { s with pair.joined := true, pair.chans := [], pair.sent := [], pair.nextWin := s.ftu.csnext, pair.winAt := s.now }
      modeEval true (resyncStart s))

/-- Data keys and dedup keys with a stored copy (R342, R343). [DEDUCED: log entry 87] -/
def keyCopies (s : State) : List (Nat × Nat) :=
  ((s.cry.data.filter fun p => p.2.stored.isSome).map fun p => (0, p.1)) ++ (s.cry.dedup.filter fun p => p.2.stored.isSome).map fun p => (1, p.1)

/-- The number by which a member's state is declared (R454, R455). -/
def memStNo : MemSt → Nat
  | .absent => 0 | .present => 1 | .retiring => 2 | .failed => 3 | .released => 4

/-- RESYNC (R585): the mirror half is given back to the peer, mirroring goes live, and this head's own half, root, keys, entries,
streams and member states are sent. [DEDUCED: log entries 85, 87] -/
def execResync (s : State) : Res :=
  live s (
    if s.pair.resync != some false || !s.pair.joined || !troysUp s || s.wb.own.any fun p => decide (1835008 ≤ p.1) then s
    else
      let s := { setF F.mirCtrlMirrorEn 1 s with wb.alone := false, pair.resync := some true }
      let slots := (s.wb.own.filter fun p => p.2.st != .releasing).map (·.1)
      let s := forEach slots (fun n t => sendPkt (.copyDesc n) (sendPkt (.copySlot n) t)) s
      let s := forEach s.par.stripes (fun x t => sendPkt (.copyStripe x.band x.no) t) s
      let low := s.ftu.root.elim 0 (·.low)
      let s := forEach (s.ftu.jrnl.filter fun j => decide (low ≤ j.cseq)) (fun j t => sendPkt (.copyClause j.cseq) t) s
      let s := sendPkt .copyRegion s
      let s := match s.ftu.root with
        | some r => sendTroys (.root r.gen) s
        | none => s
      let s := forEach (keyCopies s) (fun k t => sendTroys (.keyCopy k.1 k.2) t) s
      let s := forEach (s.eph.entries.filter fun e => (e.kind == .snapCut || e.kind == .replCut) && !e.dormant) (fun e t => sendTroys (.entryCopy e.no) t) s
      let s := forEach (s.repl.streams.filter (·.mine)) (fun x t => sendTroys (.streamCopy x.slot) t) s
      let s := forEach s.par.members (fun m t => sendTroys (.member m.1 (memStNo m.2.st)) t) s
      sendTroys .epochReserve s)

/-- MIRROR_CURRENT is reached (R585, R586): the peer takes part from here on, and what queued while Severed is delivered (R576).
[DEDUCED: log entry 87] -/
def becomeCurrent (s : State) : State :=
  let q := s.pair.queued
  let s := setInt .mir I.mirMirrorCurrent (setF F.mirPairStatMirrorCurrent 1 { s with ftu.cack := s.ftu.csnext, pair.queued := [] })
  let s := { s with pair.resync := none, pair.role := match s.pair.role with
    | .alone => .serving
    | .joining => .standby
    | r => r }
  modeEval true (forEach q sendPkt s)

/-- The copy of a server has been sent and acknowledged. [DEDUCED: log entry 87] -/
def copyAcked (s : State) : Bool := s.pair.resync == some true && s.pair.sent.all fun x => x.ch != 5

/-- MIRROR_CURRENT (R585): on a new standby, which reports it; on a server, once its copy is acknowledged.
[DEDUCED: log entry 87] -/
def execMirrorCurrent (s : State) : Res :=
  live s (
    if !s.pair.joined || !troysUp s then s
    else if s.pair.role == .joining then becomeCurrent (sendTroys .mirrorCurrent s)
    else if copyAcked s then becomeCurrent s
    else s)

/-! Forwarding (R28, R32, R215, R564). -/

/-- FORWARDED_COMMAND: the command arrives here as at its owner; `tag` is the peer's. [DESIGN CHOICE: log entry 44] -/
def execForwardedCommand (tag host : Nat) (e : Sqe) (s : State) : Res :=
  live s (
    if !s.pair.joined || !troysUp s || !running .hqe s || s.hqe.cmds.any fun c => c.ctl.isNone && c.repl.isNone && c.qid == tag then s
    else
      let h := s.hqe.nextH
      let t := takeSeq (admitCmd none tag host e s)
      modCmd h (fun c => { c with seq := t.1 }) t.2)

/-- Data that the owner sent back for a Read goes to the host (R32). [DESIGN CHOICE: log entry 44] -/
def fwdData (h : Nat) (data : List Byte) (s : State) : State :=
  match cmdOf h s with
  | none => s
  | some c =>
    let start := byteStart c s
    forEach (unitsIn start (byteLen c s)) (fun u t =>
      let p := partOf start (byteLen c s) u
      let got := (data.drop (u * 4096 + p.1 - start)).take (p.2 - p.1)
      let t := emit (.hostData h u got) t
      match c.ctl with
      | some (.fab i) => forEach ((t.fab.conns.filter fun k => k.ctl == some i && k.qid == c.qid).map (·.id)) (fun n v => txHold n got.length v) t
      | _ => t) s

/-- FORWARD_COMPLETION: the status that the owner reported is posted where the command arrived; the peer's part of a split Flush counts
toward it (R28). -/
def execForwardCompletion (tag : Nat) (st : NvmeSt) (data : List Byte) (s : State) : Res :=
  live s (
    match s.pair.fwd.find? fun f => f.tag == tag with
    | none => s
    | some f =>
      if !troysUp s || s.pair.ecl.isSome then s
      else
        let s := { s with pair.fwd := s.pair.fwd.filter fun g => g.tag != tag }
        match cmdOf f.h s with
        | none => s
        | some c =>
          if c.phase == .forwarded then
            endCmd f.h st (if c.sqe.opc = 0x02 && st == .success then fwdData f.h data s else s)
          else settle f.h (modCmd f.h (fun c => { c with waitPart := c.waitPart - 1, st := if st == .success then c.st else st }) s))

/-! Reference counts (R284, R589). -/

/-- REFCOUNT_MESSAGE: a reference to a unit of this head's band, journalled as its own count change.
[DEDUCED: log entry 90] -/
def execRefcountMessage (uaddr : Nat) (add : Bool) (s : State) : Res :=
  live s (
    let u := resolve uaddr s
    if !s.pair.joined || !(bandOf (uBand u) s).any (·.mine) || !jrnlRoom s then s
    else
      let s := clause (mkClause cSystem 2 0 u (b2n add) 0) s
      if add then refAdd u s
      else match tget? s.fiu.sut u with
        | none => garbage u s
        | some r => garbage u { s with fiu.sut := tset s.fiu.sut u { r with count := r.count - 1 } })

/-! Messages (R224, R228, R241, R343, R418, R455, R519, R524, R567, R568, R587). -/

/-- Objects of these groups become this head's: dormant entries become active and streams run here (R519, R587).
[DESIGN CHOICE: log entry 88] -/
def takeObjects (groups : List Nat) (s : State) : State :=
  let ns := (s.hqe.ns.filter fun x => groups.contains x.group).map (·.nsid)
  let cuts := (s.eph.cuts.filter fun c => c.nsids.any ns.contains).map (·.no)
  let strs := (s.repl.streams.filter fun x => x.body.ns.any fun p => ns.contains p.1).map (·.slot)
  { s with eph.entries := modAll (fun e => (e.kind == .snapCut && cuts.contains e.ref) || (e.kind == .replCut && strs.contains e.ref))
             (fun e => { e with dormant := false }) s.eph.entries,
           repl.streams := modAll (fun x => strs.contains x.slot) (fun x => { x with mine := true }) s.repl.streams }

/-- Objects of these groups become the peer's: their entries are dormant here, and their streams run there.
[DESIGN CHOICE: log entry 88] -/
def leaveObjects (groups : List Nat) (s : State) : State :=
  let ns := (s.hqe.ns.filter fun x => groups.contains x.group).map (·.nsid)
  let cuts := (s.eph.cuts.filter fun c => c.nsids.any ns.contains).map (·.no)
  let strs := (s.repl.streams.filter fun x => x.body.ns.any fun p => ns.contains p.1).map (·.slot)
  let s := forEach ((s.repl.conns.filter fun r => strs.contains r.slot).map (·.conn)) loseConn s
  { s with eph.entries := modAll (fun e => (e.kind == .snapCut && cuts.contains e.ref) || (e.kind == .replCut && strs.contains e.ref))
             (fun e => { e with dormant := true }) s.eph.entries,
           repl.streams := modAll (fun x => strs.contains x.slot) (fun x => { x with mine := false }) s.repl.streams }

/-- A member's state as the peer declares it: the more severe state holds (R455). -/
def peerMember (m st : Nat) (s : State) : State :=
  let cur := memStNo (memOf m s).st
  if st ≤ cur || cur = 0 then s
  else if st = 2 then memberRetire m s
  else if st = 3 then memberFail m s
  else putMem m { memOf m s with st := .released } s

/-- The extent that this head grants: wholly Free, its own free fraction staying at or above START_PCT (R418, R420). -/
def grantExtent (m : Nat) (s : State) : Option Nat :=
  let own := (ownBlocks m s).length
  let free := freeBlocks m s
  if own < 512 || 1000 * (free.length - 256) / (own - 256) < getF F.ftuSpaceStartPct s * 10 then none
  else (List.range ((recOf m s).elim 0 blockCount / 256)).find? fun e =>
    ownsExtent m e s && (List.range 256).all fun i => free.contains (e * 256 + i)

/-- The identifier is held here, or reserved for the peer already (R228). -/
def idTaken (isGroup : Bool) (id : Nat) (s : State) : Bool :=
  (if isGroup then (groupOf id s).isSome else (nsOf id s).isSome) || s.hqe.reserving.contains (b2n isGroup, id)

/-- A pair entry of the peer, dormant here (R519). -/
def dormantEntry (no kind start period left ref : Nat) (nsids : List Nat) (groupId retain : Nat) (s : State) : State :=
  let n := s.eph.nextCut
  let e : Entry := { no := no, kind := if kind = 0 then .snapCut else .replCut, start := start, next := start, period := period, left := left,
                     skipLate := false, requireTime := false, ref := if kind = 0 then n else ref, dormant := true }
  let s := { s with eph.entries := s.eph.entries.filter fun x => x.no != no }
  let s := if kind = 0 then
      { s with eph.cuts := s.eph.cuts ++ [{ no := n, nsids := nsids, groupId := groupId, retain := retain, mgmt := none, status := 0, time := 0, got := [] }],
               eph.nextCut := n + 1 }
    else s
  placeEntry e s

/-- What a message does. Groups and namespaces of the peer are entered into this head's own tables, journalled and persisted (R567).
[DESIGN CHOICE: log entry 82] -/
def peerMsg (m : PeerMsg) (s : State) : State :=
  match m with
  | .own => s
  | .footprint g => setF F.mirFootPeerGib g s
  | .mode n => if n = 2 then setMode 2 (dropShadow s) else s
  | .caughtUp => if s.pair.shadow then modeEval false { s with pair.peerCaughtUp := true } else s
  | .mirrorCurrent => if copyAcked s then becomeCurrent s else s
  | .joinRefused => peerGone s
  | .reserve g id =>
    let bad := idTaken g id s
    let s := if bad then s else { s with hqe.reserving := s.hqe.reserving ++ [(b2n g, id)] }
    sendTroys (.reserved g id (!bad)) s
  | .nsRecord b p =>
    let x : Namespace := { nsOfBody b.nsid b s with protect := p }
    let s := { s with hqe.reserving := s.hqe.reserving.filter (· != (0, b.nsid)) }
    match nsOf b.nsid s with
    | none => nsAdd x s
    | some y => nsChanged x.tenant x.nsid (systemClause x.nsid
        (modNs x.nsid (fun _ => { x with resv := y.resv, mixed := y.mixed, oldPct := y.oldPct, attrGen := y.attrGen, cloneOf := y.cloneOf }) s))
  | .nsGone n => match nsOf n s with
    | none => s
    | some x => nsChanged x.tenant n (systemClause n { s with hqe.ns := s.hqe.ns.filter fun y => y.nsid != n })
  | .groupRecord g =>
    let s := { s with hqe.reserving := s.hqe.reserving.filter (· != (1, g)) }
    if (groupOf g s).isSome then s else systemClause 0 { s with hqe.groups := s.hqe.groups ++ [{ id := g, mine := false, change := false }] }
  | .groupGone g => systemClause 0 { s with hqe.groups := s.hqe.groups.filter fun x => x.id != g || x.mine }
  | .bind n t => systemClause 0 { s with hqe.binds := (s.hqe.binds.filter fun b => b.1 != n) ++ [(n, t)] }
  | .keyLoad b =>
    let c := keyCheck b s
    sendTroys (.keyStatus b.kind b.slot c.1) (if c.1 = stSuccess && keyBodyOk b then keyStore b c.2 s else s)
  | .keyPurge k n => match keySlot k n s with
    | none => s
    | some x => if x.st = .purging then s else
      let s := startPurge k n none none s
      if k = 1 then ctxPurge n s else s
  | .epochs l => { s with eph.reserve := s.eph.reserve.filter fun n => !l.contains n }
  | .epoch no nsid slot cutSeq instant g =>
    let e : Epoch := { no := no, nsid := nsid, slot := slot, cutSeq := cutSeq, instant := instant, groupId := g, st := .pending, internal := false,
                       received := false, retain := 0, late := false, unsure := false, sched := 65535, clones := 0, mgmt := none }
    if s.eph.epochs.any fun x => x.no == no then s
    else setMap no nsid (mapOf 0 nsid s) { s with eph.epochs := s.eph.epochs ++ [e] }
  | .epochGone no => match s.eph.epochs.find? fun x => x.no == no with
    | none => s
    | some e => setMap no e.nsid [] { s with eph.epochs := s.eph.epochs.filter fun x => x.no != no }
  | .entry no k st p l r ns g ret => dormantEntry no k st p l r ns g ret s
  | .entryGone no => { s with eph.entries := s.eph.entries.filter fun x => x.no != no || !x.dormant }
  | .occurrence no t =>
    { s with eph.entries := modAll (fun e => e.no == no && e.dormant)
               (fun e => { e with next := if e.period = 0 then e.next else nextOcc e.start e.period t, left := e.left - 1 }) s.eph.entries,
             eph.past := tset s.eph.past no { result := 1, firings := (tget? s.eph.past no).elim 1 (·.firings + 1), last := t } }
  | .stream n b mac xfer =>
    let x : Stream := { slot := n, body := b, mine := false, st := .setup, mac := mac, xfer := xfer, base := [], baseAt := 0, cut := none,
                        sending := false, fpq := [], batches := [], nData := 0, nDup := 0, nUnmap := 0, rcut := none, synced := [], skipped := 0,
                        changed := [], sent := 0, saved := 0, lastCut := 0, acks := [], tried := [], authBad := 0 }
    if (streamOf n s).isSome then s else { s with repl.streams := s.repl.streams ++ [x], dge.jobKeys := tset s.dge.jobKeys n mac }
  | .streamGone n => { s with repl.streams := s.repl.streams.filter fun x => x.slot != n || x.mine, dge.jobKeys := terase s.dge.jobKeys n }
  | .member m st => peerMember m st s
  | .sanitize a st ause =>
    if st = 1 then (if sanActive s then s else sanStart a ause none s)
    else if sanActive s && (st == 2 || st == 3) then sanEnd a ause (st == 2) s
    else s
  | .root gen low next ctr seq bseq =>
    { s with pair.peerRoot := some { gen := gen, clean := false, low := low, next := next, storeCtr := ctr, nextSeq := seq, nextBseq := bseq,
                                     time := stamp s, fence := [] } }
  | .handover gs seq =>
    let s := { s with hqe.nextSeq := max s.hqe.nextSeq (seq + 1) }
    setF F.mirPairStatMoveBusy 0 (takeObjects gs (forEach (gs.filter fun g => (groupOf g s).isSome) (fun g t => setGroup g true false t) s))
  | .moving gs on =>
    let s := forEach (gs.filter fun g => (groupOf g s).any fun x => !x.mine) (fun g t => setGroup g false on t) s
    flagF F.mirPairStatMoveBusy on s
  | .extentAsk m => match if jrnlRoom s then grantExtent m s else none with
    | none => sendTroys (.extentGrant m none) s
    | some e => sendTroys (.extentGrant m (some e)) (clause (mkClause cExtent 0 0 m e (peerHead s)) s)

/-- TROYS_MSG. [DESIGN CHOICE: log entry 82] -/
def execTroysMsg (link : Nat) (pkt : Pkt) (msg : PeerMsg) (s : State) : Res :=
  live s (if pkt.typ != 4 || !(pkt.ch == 2 || pkt.ch == 3 || pkt.ch == 4) then s else takePkt link pkt (peerMsg msg) s)

/-! Moving ownership (R587, R588) and the mode (R590). -/

def stPeerNotReady : Nat := 0x0120
def stMoveActive : Nat := 0x0121

/-- The peer can take groups: Serving with MIRROR_CURRENT, and caught up in Conjunction mode. -/
def peerReady (s : State) : Bool :=
  peerIn s && getF F.mirPairStatPeerState s = 2 && (!conjunction s || s.pair.peerCaughtUp)

/-- Nothing of these groups' namespaces is left to do: commands, slots, units in destage.
[DESIGN CHOICE: log entry 88] -/
def drained (groups : List Nat) (s : State) : Bool :=
  let ns := (s.hqe.ns.filter fun x => groups.contains x.group).map (·.nsid)
  s.hqe.cmds.all (fun c => !ns.contains c.sqe.nsid || (c.ctl.any fun _ => c.qid == 0)) && s.wb.own.all (fun p => !ns.contains p.2.nsid) &&
  s.wb.units.all fun u => !ns.contains u.nsid

/-- Steps 3 to 5: HANDOVER is journalled and the groups are the peer's. [DESIGN CHOICE: log entry 88] -/
def moveDone (m : Move) (s : State) : State :=
  let s := sendTroys (.handover m.groups (s.hqe.nextSeq - 1)) (clause (mkClause cSystem 3 0 m.groups.length 0 0) s)
  let s := leaveObjects m.groups (forEach m.groups (fun g t => setGroup g false false t) s)
  mgmtPost m.q m.tag stSuccess (stamp s) (setF F.mirPairStatMoveBusy 0 { s with pair.move := none })

/-- OWNERSHIP_MOVE (R587, R588, R591): the control block puts the groups into the Change state; run again, it completes once their
commands have completed and their slots are destaged. [DESIGN CHOICE: log entry 88] -/
def execOwnershipMove (q tag : Nat) (groups : List Nat) (s : State) : Res :=
  live s (
    match s.pair.move with
    | some m =>
      if m.q = q && m.tag = tag && m.groups == groups then (if drained groups s && jrnlRoom s && troysUp s then moveDone m s else s)
      else mgmtRun q tag 0x0060 (mgmtPost q tag stMoveActive 0) s
    | none => mgmtRun q tag 0x0060 (fun s =>
        checks q tag
          [(groups.isEmpty || decide (1024 < groups.length) || groups.eraseDups.length != groups.length, stInvalidField),
           (groups.any fun g => (groupOf g s).isNone, stGroupNotFound), (groups.any fun g => !(groupOf g s).any (·.mine), stNotOwner),
           (onF F.mirPairStatMoveBusy s, stMoveActive), (!troysUp s, stDegraded), (!peerReady s, stPeerNotReady)]
          (fun s =>
            let s := setF F.mirPairStatMoveBusy 1 { s with pair.move := some { q := q, tag := tag, groups := groups } }
            sendTroys (.moving groups true) (forEach groups (fun g t => setGroup g true true t) s)) s) s)

/-- MODE_RESTORE (R38, R590, R591): it waits until both standbys have caught up. [DESIGN CHOICE: log entry 88] -/
def execModeRestore (q tag : Nat) (s : State) : Res :=
  live s (mgmtRun q tag 0x0061 (fun s =>
    checks q tag [(!troysUp s || !s.pair.joined, stDegraded), (!modeConds 768 s || s.pair.restore.isSome, stUnmet)]
      (fun s => modeEval false { s with pair.arbDrop := false, pair.restore := some (q, tag) }) s) s)

end Sys2Proof.Machine
end

