-- ==== Sys2Proof/Machine/Eclipse.lean ====
section
/-! DEFINITION. Comparison, arbitration, heartbeat, detection, fences and the takeover (R569–R584). -/

namespace Sys2Proof.Machine

/-! Output comparison (R569–R573). -/

/-- OCU compares: CMP_EN in a pair that has formed. -/
def comparing (s : State) : Bool := running .ocu s && onF F.ocuCtrlCmpEn s && s.pair.joined

/-- DIGEST_WINDOW_CLOSE (R569): 256 clauses, or 4 µs after the previous close. -/
def execDigestWindowClose (s : State) : Res :=
  live s (
    let n := min 256 (s.ftu.csnext - s.pair.nextWin)
    if !comparing s || (n < 256 && decide (s.now - s.pair.winAt < 4000)) then s
    else
      let l := winOf s.pair.nextWin n s.ftu.jrnl
      let w : DigWin := { first := s.pair.nextWin, count := n, cdig := cDig l, mdig := mDig l, at_ := s.now, late := false }
      let s := count .ocu 0x01 1 { s with pair.ownWins := s.pair.ownWins ++ [w], pair.nextWin := s.pair.nextWin + n, pair.winAt := s.now }
      sendTroys (.digest false s.pins.headSel w.first w.count w.cdig w.mdig) s)

/-- A DIGEST packet has arrived (R573, R592): STREAM_OK, and the longest interval in units of 10 ns. -/
def digestSeen (s : State) : State :=
  let gap := s.pair.lastDig.elim 0 fun t => (s.now - t) / 10
  setF F.ocuGapGap (min 65535 (max gap (getF F.ocuGapGap s))) (setF F.ocuStatStreamOk 1 { s with pair.lastDig := some s.now })

/-- DIGEST_MESSAGE (R569–R571): an owner digest waits for its clauses and is answered and compared; an answer is compared with the
digest of its window. -/
def execDigestMessage (msg : DigestMsg) (s : State) : Res :=
  live s (
    if !comparing s || !troysUp s then s
    else
      let s := digestSeen s
      if !msg.answer then
        if msg.stream != peerHead s then s
        else
          let w : DigWin := { first := msg.first, count := msg.count, cdig := msg.cdig, mdig := msg.mdig, at_ := s.now, late := false }
          answerAll { s with pair.peerWins := (s.pair.peerWins.filter fun x => x.first != w.first || x.count != w.count) ++ [w] }
      else match s.pair.ownWins.find? fun w => msg.stream == s.pins.headSel && w.first == msg.first && w.count == msg.count with
        | none => s
        | some w =>
          let s := { s with pair.ownWins := s.pair.ownWins.filter fun x => x.first != w.first || x.count != w.count }
          let s := set64 F.ocuOwnWinLoOwn F.ocuOwnWinHiOwn w.first (count .ocu 0x02 1 s)
          if msg.cdig != w.cdig || (conjunction s && msg.mdig != w.mdig) then mismatch s.pins.headSel w.first s else s)

/-- ARBITRATE (R571). [DEDUCED: log entry 89] -/
def execArbitrate (stream first : Nat) (s : State) : Res :=
  live s (if !comparing s || !troysUp s || 1 < stream then s else arbBegin stream first s)

/-- The standby takes the owner's journal and its shadow map again, and the pair drops to Opposition mode (R38, R572).
[DEDUCED: log entry 89] -/
def diverged (owner : Bool) (s : State) : State :=
  let s := setMode 2 (dropShadow { s with pair.arbDrop := true })
  if owner then { s with pair.resync := some false }
  else raise .ocu E.ocuDiverged 0xFF
    { s with pair.peerJ := [], pair.peerWins := [], pair.mirMem := tcut s.pair.mirMem (memKey 2 0) (memKey 3 0) }

/-- ARBITRATION_VERDICT (R571, R572): this head's self-check and the peer's verdict; the table of R572.
[DEDUCED: log entry 89] -/
def execArbitrationVerdict (stream : Nat) (ownOk peerOk : Bool) (s : State) : Res :=
  live s (
    match s.pair.arb with
    | none => s
    | some (o, _) =>
      if o != stream || !running .ocu s then s
      else
        let owner := o == s.pins.headSel
        let s := sendTroys (.verdict ownOk) (setF F.ocuStatArbitrating 0 { s with pair.arb := none })
        match (if owner then ownOk else peerOk), (if owner then peerOk else ownOk) with
        | true, true => diverged owner (setF F.ocuStatVerdict 3 s)
        | true, false => if owner then setF F.ocuStatVerdict 1 s else raise .ocu E.ocuSelfCheck 0xFF s
        | false, true => if owner then raise .ocu E.ocuSelfCheck 0xFF s else setF F.ocuStatVerdict 1 s
        | false, false =>
          let s := setF F.ocuStatVerdict 2 s
          if owner then raise .ocu E.ocuPipeFault 0xFF s else raise .ocu E.ocuSelfCheck 0xFF s)

/-- ANSWER_LATE (R573): 100 µs after its owner digest. -/
def execAnswerLate (first : Nat) (s : State) : Res :=
  live s (
    if !comparing s || !s.pair.ownWins.any fun w => w.first == first && !w.late && decide (100000 ≤ s.now - w.at_) then s
    else note .ocu E.ocuAnswerLate 0xFF { s with pair.ownWins := modAll (fun w => w.first == first) (fun w => { w with late := true }) s.pair.ownWins })

/-! Heartbeat (R574, R575). -/

/-- The head gives way after a Class 3 reset of its Pair Plane, and after an orderly stop (R584, R639).
[DEDUCED: log entry 93] -/
def yielding (s : State) : Bool := blockDown .mir s || onF F.pwcStatShutDone s

/-- STATE of this head's words (R574). [DEDUCED: log entry 93] -/
def hbState (s : State) : Nat :=
  if s.pwc.dumping then 5
  else if yielding s then 4
  else if onF F.mirPairStatSevered s then 6
  else if getF F.bldStatStage s < 7 then 0
  else if getF F.bldStatStage s < 9 then 1
  else if s.pair.resync.isSome || s.pair.role == .joining then 3
  else 2

/-- The 64-bit word of a state: its low 48 bits, then the CRC-16 over their six bytes (R574). [DEDUCED: log entry 93] -/
def hbWordOf (st : Nat) (s : State) : Nat :=
  let w := 0xA5 + 2 ^ 8 * (s.pins.headSel % 2) + 2 ^ 9 * st + 2 ^ 13 * getF (F.tlLinkStatUp 0) s + 2 ^ 14 * getF (F.tlLinkStatUp 1) s +
    2 ^ 16 * (s.pair.hbSeq % 65536) + 2 ^ 32 * (getF F.hqePairIdLoPairLo s % 65536)
  w + 2 ^ 48 * crc16 (toBytes 6 w)

/-- Send a word of a state. [DEDUCED: log entry 93] -/
def hbSend (st : Nat) (s : State) : State :=
  emit (.heartbeat (hbWordOf st s)) { s with pair.hbSeq := s.pair.hbSeq + 1, pair.hbTx := some s.now }

/-- HEARTBEAT_SEND (R574, R614, R636): every 1 µs, from the release of cold reset, during a dump too; not in the Grave state, nor while HBU
alone is in reset. -/
def execHeartbeatSend (s : State) : Res :=
  .next (
    if graved s || s.pwc.held || !onF F.hbuCtrlTxEn s || (blockDown .hbu s && !yielding s) || s.pair.hbTx.any fun t => decide (s.now - t < 1000) then s
    else hbSend (hbState s) s)

/-! Detection (R577, R578). -/

/-- Issue the fence on every MPT whose link is up; the others are UNREACHABLE (R492, R580). [DEDUCED: log entry 91] -/
def fenceAll (s : State) : State :=
  let s := { s with pair.ecl := s.pair.ecl.map fun e => { e with fenced := true } }
  forEach ((List.range 32).filter fun m => (recOf m s).isSome) (fun m t => if onF (F.mptLinkStatUp m) t then fenceIssue m t else fenceUnreachable m t) s

/-- The later of the last valid heartbeat word and the last digest received (R592). -/
def lastSeen (s : State) : Nat := max (s.pair.hbAt.getD 0) (s.pair.lastDig.getD 0)

/-- The survivor goes on without its peer and takes nothing over (R578, R585). [DEDUCED: log entry 91] -/
def goAlone (s : State) : State :=
  let s := peerGone s
  let s := fwdFail { s with pair.role := if inService s then .alone else s.pair.role, wb.alone := inService s && s.wb.mir.isEmpty }
  setMode 0 s

/-- The head detects the failure of its peer (R577–R579): commands for the peer's groups are held from here on, and the fences are
issued, on head 1 after the stagger of causes 4 and 5. [DESIGN CHOICE: log entry 79] -/
def detect (cause : Nat) (s : State) : State :=
  if !onF F.mirCtrlEclEn s || !s.pair.joined || s.pair.ecl.isSome || onF F.mirPairStatSevered s || !s.pwc.inputOk || s.pwc.dumping then s
  else if !onF F.mirPairStatMirrorCurrent s || !(s.hqe.groups.any fun g => !g.mine) then goAlone s
  else
    let stagger := s.pins.headSel % 2 == 1 && (cause == 4 || cause == 5)
    let s := { s with pair.ecl := some { cause := cause, at_ := s.now, fenced := false, stagger := stagger } }
    let s := set64 F.mirEclLastLoLast F.mirEclLastHiLast (stamp s) (setF F.mirPairStatEclipseBusy 1 s)
    let s := setF F.mirEclTimesCause cause (setF F.mirEclTimesDetectUs (min 255 ((s.now - lastSeen s) / 1000)) s)
    if stagger then s else fenceAll s

/-- Detection by silence: both links down, or no digest for 8 µs, while the heartbeat is silent (R577). -/
def detectSilent (s : State) : State :=
  if onF F.hbuStatRxOk s then s
  else if !troysUp s then detect 5 s
  else if s.pair.lastDig.any fun t => decide (8000 ≤ s.now - t) then detect 4 s
  else s

/-- HEARTBEAT_WORD (R574–R577). [DEDUCED: log entry 93] -/
def execHeartbeatWord (w : BitVec 64) (s : State) : Res :=
  live s (
    if blockDown .hbu s then s
    else
      let v := w.toNat
      if bits v 63 48 != crc16 (toBytes 6 (v % 2 ^ 48)) then note .hbu E.hbuCrcErr 0xFF (incSatF F.hbuErrsCrcErrs 1 s)
      else if v % 256 != 0xA5 then incSatF F.hbuErrsCrcErrs 1 s
      else if bits v 47 32 != getF F.hqePairIdLoPairLo s % 65536 then note .hbu E.hbuPairChk 0xFF s
      else
        let st := bits v 12 9
        let changed := getF F.mirPairStatPeerState s != st
        let s := setF F.hbuStatRxOk 1 (setF F.hbuStatPeerState st (setF F.hbuStatPeerHead (bits v 8 8) (setF F.hbuStatRxSeq (bits v 31 16)
          { s with pair.hbAt := some s.now })))
        let s := setF F.mirPairStatPeerState st s
        let s := if changed then setInt .mir I.mirPeerState (setInt .hbu I.hbuPeerState s) else s
        let s := sever s
        if st = 4 then detect 2 s else if st = 5 then detect 3 s else s)

/-- HEARTBEAT_SILENT (R575): no valid word for 2.5 µs. -/
def execHeartbeatSilent (s : State) : Res :=
  live s (
    if !onF F.hbuStatRxOk s || s.pair.hbAt.any fun t => decide (s.now - t < 2500) then s
    else
      let s := note .hbu E.hbuSilent 0xFF (incSatF F.hbuErrsSilences 1 (setF F.hbuStatRxOk 0 (setF F.mirPairStatPeerState 0xF s)))
      detectSilent s)

/-- DIGEST_STREAM_TIMEOUT (R573, R577): no DIGEST packet for 8 µs; with the heartbeat showing the peer Serving no takeover follows. -/
def execDigestStreamTimeout (s : State) : Res :=
  live s (
    if !s.pair.joined || !onF F.ocuStatStreamOk s || !s.pair.lastDig.any fun t => decide (8000 ≤ s.now - t) then s
    else
      let s := setF F.ocuStatStreamOk 0 s
      let s := if onF F.hbuStatRxOk s && getF F.hbuStatPeerState s = 2 then note .ocu E.ocuStreamLost 0xFF s else s
      detectSilent s)

/-- PEER_FAULT (R577): PEER_FAULT_N low for 100 ns. [DEDUCED: log entry 86] -/
def execPeerFault (s : State) : Res :=
  live s (
    let t := setF F.hbuStatPeerFault 1 s
    detect 1 { t with pins.peerFaultN := false })

/-- TROYS_LINK_DOWN (R558, R576, R577). [DESIGN CHOICE: log entry 79] -/
def execTroysLinkDown (link : Nat) (s : State) : Res := live s (detectSilent (tlDown link s))

/-- FENCE_STAGGER_EXPIRY (R577): head 1, 4 µs after detection. -/
def execFenceStaggerExpiry (s : State) : Res :=
  live s (
    match s.pair.ecl with
    | some e => if e.stagger && !e.fenced && decide (4000 ≤ s.now - e.at_) then fenceAll s else s
    | none => s)

/-! Fences (R492, R493, R580). -/

/-- FENCE_CAS_COMPLETE (R492, R493, R580): the former value settles the outcome; a fence owed from an earlier takeover that is LOST
stops the head at once, one of a running takeover at its decision. -/
def execFenceCasComplete (m value : Nat) (s : State) : Res :=
  live s (
    match s.mods.cas.find? fun c => c.m == m && !c.done with
    | none => s
    | some c =>
      if !onF (F.mptLinkStatUp m) s then s
      else
        let won := value == c.compare || c.tried.contains value
        let s := { s with mods.cas := modAll (fun c => c.m == m) (fun c => { c with done := true, won := won }) s.mods.cas }
        let s := fenceResult m (if won then 1 else 2) (fenceShow m (if value == c.compare then c.swap else value) s)
        if won then ymPump m s else if s.pair.ecl.isSome then s else fencedOut s)

/-- FENCE_CAS_TIMEOUT (R580): 6 µs after issue on a link that is up, the MPT takes its link down as a Class 2 reset. -/
def execFenceCasTimeout (m : Nat) (s : State) : Res :=
  live s (
    if !(s.mods.cas.any fun c => c.m == m && !c.done && decide (6000 ≤ s.now - c.at_)) || !onF (F.mptLinkStatUp m) s then s
    else fenceUnreachable m (blockReset (.mpt m) s))

/-! The takeover (R582). -/

/-- Step 1: the next head sequence number lies above every SEQ of the failed head (R582). -/
def seizeSeq (s : State) : State :=
  let a := (s.wb.mir.map fun p => p.2.seq + 1).foldl max s.hqe.nextSeq
  let b := ((s.pair.peerJ.filter fun j => decide (1 ≤ j.clause.typ ∧ j.clause.typ ≤ 3)).map fun j => j.clause.p2 + 1).foldl max a
  { s with hqe.nextSeq := max b (s.pair.peerRoot.elim 0 (·.nextSeq)), ftu.nextBseq := max s.ftu.nextBseq (s.pair.peerRoot.elim 0 (·.nextBseq)) }

/-- Step 2: SYSTEM clauses adopt the failed head's groups, namespaces, streams and entries; EXTENT clauses its extents (R418, R582).
[DEDUCED: log entry 91] -/
def seizeClauses (groups : List Nat) (s : State) : State :=
  let ns := (s.hqe.ns.filter fun x => groups.contains x.group).map (·.nsid)
  let s := forEach groups (fun g t => sysClause 0 g 1 t) s
  let s := forEach ns (fun n t => sysClause n 0 1 t) s
  let s := forEach ((s.repl.streams.filter fun x => !x.mine).map fun x => x.body.streamId) (fun k t => sysClause 0 k 1 t) s
  let s := forEach ((s.eph.entries.filter (·.dormant)).map (·.no)) (fun k t => sysClause 0 k 1 t) s
  forEach (s.mods.mir.map (·.1)) (fun m t =>
    forEach ((List.range (((recOf m t).elim 0 blockCount + 255) / 256)).filter fun e => !ownsExtent m e t)
      (fun e u => clause (mkClause cExtent 0 0 m e u.pins.headSel) u) t) s

/-- The bands and erase blocks of the failed head are this head's: its Collecting bands count as Sealed, and its blocks that no band holds
are Free here (R416, R418, R429). [DEDUCED: log entry 91] -/
def seizeBands (s : State) : State :=
  { s with ftu.bands := s.ftu.bands.map fun b =>
             if b.mine then b else { b with mine := true, st := if b.st = .collecting then .sealed_ else b.st },
           ftu.eblk := s.ftu.eblk.map fun p => if p.2.st = 5 then (p.1, { p.2 with st := 0 }) else p }

/-- Step 3: the pages of the adopted namespaces: in Conjunction mode the shadow map's, in DRAM; in Opposition mode on flash, to be loaded on
demand (R39, R397, R582). Where on flash they lie is the failed head's, a free value here. [DEDUCED: log entry 84] -/
def seizePages (ns : List Nat) (s : State) : State :=
  let inDram := conjunction s
  let ps := (s.ftu.maps.filter fun m => ns.contains m.nsid).flatMap fun m => ((m.entries.map fun e => e.1 / 512).eraseDups).map fun g => (m.epoch, m.nsid, g)
  forEach ps (fun x t =>
    if (pageOf x.1 x.2.1 x.2.2 t).isSome then t
    else if inDram then freshPage x.1 x.2.1 x.2.2 t.ftu.csnext t
    else
      let d := drawNat t
      putPage { epoch := x.1, nsid := x.2.1, page := x.2.2, pid := d.2.ftu.nextPid, resident := false, dirty := false, loading := false, writing := false,
                zero := false, flash := d.1 % 2 ^ 64 + 1, wrote := 0, again := none, dirtyCseq := 0, used := 0 }
        { d.2 with ftu.nextPid := d.2.ftu.nextPid + 1 }) s

/-- Step 4's counts: LIVE of the bands taken over and the shared unit records follow from the map (R284, R415).
[DEDUCED: log entry 91] -/
def seizeCounts (s : State) : State :=
  let us := ((s.ftu.maps.flatMap fun m => m.entries.map fun e => resolve e.2 s).filter fun u => uBand u != 0).eraseDups
  let s := forEach us (fun u t =>
    let n := (namesOf (fun v => resolve v t == u) t).length
    if 1 < n && (tget? t.fiu.sut u).isNone then { t with fiu.sut := tset t.fiu.sut u { count := n, fpt := fptOf u t } } else t) s
  forEach ((us.map uBase).eraseDups) (fun u t => if (bandOf (uBand u) s).any fun b => b.live == 0 then addLive u t else t) s

/-- The clause of a placed slot has reached this head. [DEDUCED: log entry 91] -/
def clauseHeld (x : Slot) (s : State) : Bool :=
  s.pair.peerJ.any fun j => j.clause.nsid == x.nsid && decide (1 ≤ j.clause.typ ∧ j.clause.typ ≤ 2) && j.clause.p2 == x.seq &&
    decide (j.clause.p0 ≤ x.unit ∧ x.unit < j.clause.p0 + 4)

/-- Step 5: the failed head's slots in states 1 to 4 become slots of this head, past its own half; a landing slot without its data is
freed, a placed one whose clause is here is done (R582). [DEDUCED: log entry 91] -/
def seizeSlots (s : State) : State :=
  let take := fun (p : Nat × Slot) => match p.2.st with
    | .landing => p.2.landed && !p.2.replaced
    | .filled | .destaging => !p.2.replaced
    | .placed => !clauseHeld p.2 s && !p.2.replaced
    | .releasing => false
  let l := (s.wb.mir.filter take).mergeSort fun a b => decide (a.2.seq ≤ b.2.seq)
  let s := forEach l (fun p t =>
    let x : Slot := { p.2 with st := .filled, shadow := false, landed := true, acked := true, filledAt := t.now }
    let t := { t with wb.own := tset t.wb.own (1835008 + p.1) x }
    let older := (t.wb.own.filter fun q => q.1 != 1835008 + p.1 && indexed p.2.nsid p.2.unit q).map (·.1)
    if older.isEmpty then filterAdd p.2.nsid p.2.unit t
    else forEach older (fun n u => freeSlot n u) t) s
  { s with wb.mir := [], wb.alone := l.isEmpty }

/-- A stripe journal record of the failed head that is open or has its parity sent (R445, R449). -/
def stripeOfRec (d : List Byte) (s : State) : Option Stripe :=
  let band := field d 8 3
  if field d 0 4 != 0x4A534B48 || !crcAt d 256 || !(field d 4 1 == 1 || field d 4 1 == 2) then none
  else (bandOf band s).map fun b =>
    let n := field d 12 4
    let acc := field d 16 4
    let prog := field d 20 4
    let bad := field d 24 4
    let st := fun (pos : Nat) => if bit bad pos then ChunkSt.failed else if bit prog pos then .programmed
      else if (List.range b.d).any fun k => dataPos b n k == pos && bit acc k then .accepted else .open_
    let fl := field d 5 1
    { band := band, no := n, chunks := (List.range (bandW b)).map st, dataEnd := field d 28 4, stream := [], items := [], parity := field d 4 1 == 2,
      early := bit fl 3, closed := true, degraded := bit fl 2, dueAt := none, held := false, recover := false, isMeta := bit fl 0, isGc := bit fl 1 }

/-- Open stripes of the failed head are this head's to complete (R449). [DEDUCED: log entry 91] -/
def seizeStripes (s : State) : State :=
  let recs := (tslice s.pair.mirMem (memKey 3 0) (memKey 4 0)).flatMap fun p => (List.range 16).map fun i => (p.2.drop (256 * i)).take 256
  { s with par.stripes := s.par.stripes ++ (recs.filterMap fun d => stripeOfRec d s).filter fun x =>
      s.par.stripes.all fun y => y.band != x.band || y.no != x.no }

/-- Synchronous streams of the failed head are Fractured, with its slots of their namespaces as the fracture set (R550). -/
def seizeStreams (s : State) : State :=
  let set := fun (x : Stream) => (s.wb.mir.filter fun p => p.2.st != .releasing && (x.body.ns.map (·.1)).contains p.2.nsid).map fun p => (p.2.nsid, p.2.unit)
  forEach (s.repl.streams.filter fun x => !x.mine && x.body.sync && !x.body.target) (fun x t =>
    setStream x.slot .fractured (modStream x.slot (fun y => { y with changed := (y.changed ++ set x).eraseDups }) t)) s

/-- Step 6: held commands go on, and forwarded commands are executed again in full (R582, R583). -/
def seizeCmds (s : State) : State :=
  let again := s.pair.fwd.length
  let s := { s with pair.fwd := [], hqe.cmds := s.hqe.cmds.map fun c =>
    if c.phase = .held then { c with phase := .fetched }
    else if c.phase = .forwarded || c.waitPart != 0 then { onlyDone c .success with phase := .fetched, guard := false }
    else c }
  count .mir 0x03 again s

/-- The survivor seizes what the failed head held (R582, R583, R588): steps 1 to 7, then what waited for its acknowledgement completes.
[DEDUCED: log entry 91; DESIGN CHOICE: log entry 92] -/
def seize (s : State) : State :=
  let groups := (s.hqe.groups.filter fun g => !g.mine).map (·.id)
  let ns := (s.hqe.ns.filter fun x => groups.contains x.group).map (·.nsid)
  let s := match s.pair.move with
    | some m => mgmtPost m.q m.tag stAborted 0
        (setF F.mirPairStatMoveBusy 0 (forEach m.groups (fun g t => setGroup g true false t) { s with pair.move := none }))
    | none => s
  let s := seizeBands (seizeClauses groups (seizeSeq s))
  let s := seizePages ns s
  let s := seizeStripes (seizeCounts s)
  let s := { seizeSlots (seizeStreams s) with pair.role := .alone }
  let s := seizeCmds s
  let s := takeObjects groups (forEach groups (fun g t => setGroup g true false t) s)
  let s := peerGone { s with fiu.refill := some 0, pair.mirMem := [], pair.copied := [], pair.peerJ := [], pair.peerRoot := none }
  let s := setMode 0 (setF F.fptRefillActive 1 s)
  count .mir 0x04 1 (setInt .mir I.mirEclipseDone (note .mir E.mirEclipse 0xFF s))

/-- FENCE_DECISION (R579, R580, R582): every fence is settled; LOST on any module ends the takeover with FENCE_LOST.
[DEDUCED: log entry 91] -/
def execFenceDecision (s : State) : Res :=
  live s (
    match s.pair.ecl with
    | none => s
    | some e =>
      if !e.fenced || s.mods.cas.any fun c => !c.done then s
      else
        let us := min 255 ((s.now - e.at_) / 1000)
        let s := setF F.mirEclTimesFenceUs us (setF F.mirPairStatEclipseBusy 0 { s with pair.ecl := none })
        if s.mods.cas.any fun c => !c.won && getF (F.mptFenceResResult c.m) s = 2 then raise .mir E.mirFenceLost 0xFF s
        else seize (setF F.mirEclTimesRearmUs us s))

end Sys2Proof.Machine
end

