-- ==== Sys2Proof/Machine/Faults.lean ====
section
/-! DEFINITION. Faults and the event record: error lines, incidents, the watchdog, records, injection (R594–R621), with what an
error destroys or starts beside its class's reaction (R47, R262, R280, R288, R297, R351, R404). -/

namespace Sys2Proof.Machine

/-! Error lines (R594–R605). -/

/-- Reads at a stage of the read path start again at the modules (R262, R351). -/
def restartReads (st : ReadStage) (s : State) : State :=
  forEach ((s.wb.reads.filter fun x => x.stage == st).map (·.id)) readModules s

/-- An uncorrectable STG error in a unit on its way to a module (R47, R288): which unit it strikes is a free value. A unit without an
address starts again at its slot; one in a chunk fails the chunk. [DEDUCED: log entry 102] -/
def stgUnit (s : State) : State :=
  let us := s.wb.units.filter fun u => u.uaddr == 0 || !unitAccepted u.uaddr s
  let d := drawNat s
  match us[d.1 % us.length]? with
  | none => s
  | some u =>
    match bandOf (uBand u.uaddr) s with
    | some b =>
      if u.uaddr = 0 then restartUnits (fun x => x.id == u.id) d.2
      else forEach (uParts b u.uaddr) (fun p t => chunkLost b (uStripe b u.uaddr) (dataPos b (uStripe b u.uaddr) p.1) t) d.2
    | none => restartUnits (fun x => x.id == u.id) d.2

/-- A slot descriptor fails its CRC (R297): it is restored from the peer's copy, or its slot is treated as failed under R117 and
reported as lost with CAUSE 5 (R462). Which slot is a free value. [DEDUCED: log entry 102] -/
def stgSlot (s : State) : State :=
  if peerIn s then s
  else
    let d := drawNat s
    match s.wb.own[d.1 % s.wb.own.length]? with
    | none => s
    | some (n, x) =>
      let s := { d.2 with wb.units := d.2.wb.units.filter fun u => u.src != .slot n }
      let s := if x.shadow || x.replaced then s else filterSub x.nsid x.unit s
      lostAdd x.nsid x.unit 0 5 false (freeSlot n s)

/-- An uncorrectable error in a clean map line (R404): it is invalidated and fetched again. Which line is a free value. -/
def mcaClean (s : State) : State :=
  let ls := s.mca.lines.filter fun l => l.dirty.isNone
  let d := drawNat s
  match ls[d.1 % ls.length]? with
  | none => s
  | some l =>
    { d.2 with mca.lines := d.2.mca.lines.filter (fun x => x != l),
               mca.misses := d.2.mca.misses ++ [{ epoch := l.epoch, nsid := l.nsid, line := l.line, demand := false, waiting := false }] }

/-- An FPT entry's CRC fails (R280). Which entry is a free value. [DEDUCED: log entry 102] -/
def fiuEntry (s : State) : State :=
  let d := drawNat s
  match s.fiu.fpt[d.1 % s.fiu.fpt.length]? with
  | none => s
  | some p => fptBad p.1 d.2

/-- What an error line's condition does beside the reaction of its class. [DEDUCED: log entry 102] -/
def pulseWork (b : Block) (n lane : Nat) (s : State) : State :=
  match b with
  | .stg => if n = E.stgUnitEcc then stgUnit s else if n = E.stgSlotCrc then stgSlot s else s
  | .mca => if n = E.mcaCleanEcc then mcaClean s else s
  | .fiu => if n = E.fiuFptCrc then fiuEntry s else s
  | .cry => if n = E.cryLaneFault || n = E.cryKeystoreEcc then restartReads .decrypt s else s
  | .cmp => if 0x80 ≤ lane && lane < 0xA0 then restartReads .expand s else s
  | _ => s

/-- Lanes and ports that can hold an STG buffer (R262), as block and lane. [DEDUCED: log entry 102] -/
def stgHolders : List (Block × Nat) :=
  (List.range 4).map (fun n => (Block.hpe n, 0xFF)) ++ (List.range 4).map (fun n => (Block.fab n, 0xFF)) ++
  (List.range 16).map (fun l => (Block.dge, l)) ++ (List.range 24).map (fun l => (Block.cmp, l)) ++
  (List.range 32).map (fun l => (Block.cmp, 0x80 + l)) ++ (List.range 16).map (fun l => (Block.cry, l)) ++
  (List.range 32).map (fun l => (Block.ldc, l))

/-- BUF_ECC of STG is a Class 2 error of the lane or port that holds the buffer, a free value (R297): reported from STG, with that
holder as its scope. -/
def stgBuf (inj : Bool) (s : State) : State :=
  let d := drawNat s
  match stgHolders[d.1 % stgHolders.length]? with
  | none => s
  | some (h, l) =>
    let s := setErr .stg E.stgBufEcc d.2
    report { blk := some h, source := latchBit .stg, inst := 0, lane := l, code := 0x1000 + 32 * latchBit .stg + E.stgBufEcc,
             p1 := getF (H.errStat .stg) s, own := none, inj := inj } 2 s

/-- A block error occurs with its effects. -/
def errorLine (inj : Bool) (b : Block) (n lane : Nat) (s : State) : State :=
  if b = .stg && n = E.stgBufEcc then stgBuf inj s else raiseInj inj b n lane (pulseWork b n lane s)

/-- ERROR_PULSE (R594–R605): an error of a lane needs a powered lane; the Grave state stops the reaction, not the record (R605). -/
def execErrorPulse (b : Block) (bit lane : Nat) (s : State) : Res :=
  .next (
    if s.pwc.held || (errClass? b bit).isNone then s
    else
      let l := if laneErr b bit lane && lane != 0xFF then lane else 0xFF
      if l != 0xFF && !lanePowered b l s then s
      else if graved s then raise b bit l s
      else errorLine false b bit l s)

/-- WDOG (R598, R607): the control core is reset and its work goes to the others. -/
def execWdog (core : Nat) (s : State) : Res :=
  .next (if s.pwc.held || !isLane .cpc core || !lanePowered .cpc core s then s else raiseHead 44 0 core 0 2 (some .cpc) s)

/-- INJECT_TAKE_EFFECT (R59, R621): once, when the block and the lane run. [DEDUCED: log entry 18] -/
def execInjectTakeEffect (b : Block) (s : State) : Res :=
  live s (
    match s.regs.armed.find? (fun a => a.blk == b) with
    | none => s
    | some a =>
      if getF (H.pwrState b) s = 2 || getF (H.state b) s = 5 then s
      else match injectLane a s with
        | none => s
        | some l => errorLine true b a.bit l { s with regs.armed := s.regs.armed.filter fun x => x.blk != b })

/-! Incidents (R596, R602). -/

/-- Blocks within a scope. -/
def scopeBlocks : Scope → List Block
  | .lane b _ | .engine b => [b]
  | .plane p => blocksOf p
  | .head => []

/-- Lanes whose reset ends with an incident of this scope. -/
def scopeLane (sc : Scope) (k : Nat) : Bool :=
  match sc with
  | .lane b l => k == laneKey b l
  | _ => (scopeBlocks sc).any fun b => k / 512 == base b / 4096

/-- The reaction of an incident is complete (R602): a lane's reset ends with this command; an engine or a plane has left STATE 5; a
Class 4 incident never closes. -/
def reacted (i : Incident) (s : State) : Bool :=
  i.cls < 4 && match i.scope with
    | .lane _ _ => true
    | .head => false
    | sc => (scopeBlocks sc).all fun b => getF (H.state b) s != 5

/-- INCIDENT_CLOSE (R596, R602, R608). -/
def execIncidentClose (number : Nat) (s : State) : Res :=
  live s (
    match s.fco.incs.find? fun i => i.number == number with
    | none => s
    | some i =>
      if !reacted i s then s
      else
        let s := { s with fco.incs := s.fco.incs.filter (fun j => j.number != number),
                          fco.laneRst := s.fco.laneRst.filter fun k => !scopeLane i.scope k }
        let r := mkRec 0x0001 i.cls i.source i.inst (if i.source = latchBit .stg then 0xFF else i.lane) number
          (min (s.now - i.openedAt) 0xFFFFFFFF) (i.cls + 256 * min i.subs 255)
        evrEvent r (setInt .fco I.fcoIncClosed s))

/-! Records (R610–R613). -/

/-- SUPPRESSION_FLUSH (R610): one second after a code's first suppression. -/
def execSuppressionFlush (code : Nat) (s : State) : Res :=
  let p := pendOf code s
  .next (if p.1 = 0 || decide (s.now - p.2 < 1000000000) then s
    else evrWrite (mkRec 0x0003 0 63 0 0xFF 0 code p.1) (putBucket code (bucketNow code s) 0 s.now s))

/-- Records have been released: recording resumes (R611, R613). -/
def evrFreed (s : State) : State := if s.evr.recs.length < 65535 then setF F.evrStatFull 0 s else s

/-- EVR_READ (R613). -/
def execEvrRead (q tag firstSeq count dataLen : Nat) (release fromOldest : Bool) (s : State) : Res :=
  live s (mgmtRun q tag 0x0070 (fun s =>
    let next := getF F.evrNextNext s
    let first := if fromOldest then (s.evr.recs.head?).elim next (·.seq) else firstSeq
    let before := s.evr.recs.takeWhile fun r => r.seq != first
    let held := decide (before.length < s.evr.recs.length)
    checks q tag
      [(dataLen == 0 || count == 0 || decide (dataLen / 32 < count), stInvalidField),
       (!held && first != next, 0x130)]
      (fun s =>
        let got := (s.evr.recs.drop before.length).take count
        let after := (got.getLast?).elim first fun r => (r.seq + 1) % 2 ^ 32
        let s := if got.isEmpty then s else emit (.evrData (got.map (·.seq))) s
        let s := if release && !got.isEmpty then evrFreed { s with evr.recs := s.evr.recs.drop (before.length + got.length) } else s
        mgmtPost q tag stSuccess (got.length + 2 ^ 32 * after) s) s) s)

/-- EVR_RECORD_SELECT (R612): the record shows in EVR_RD_W0–W7; in every state of the head. -/
def execEvrRecordSelect (seq : Nat) (s : State) : Res := .next (regWrite .evr (setF F.evrRdSeqSeq seq) s)

/-- A record is older than a SEQ, modulo 2³². -/
def olderSeq (a b : Nat) : Bool := let d := (b + 2 ^ 32 - a % 2 ^ 32) % 2 ^ 32; 0 < d && d < 2 ^ 31

/-- EVR_RELEASE (R613, R616). -/
def execEvrRelease (seq : Nat) (s : State) : Res :=
  .next (regWrite .evr (fun s => evrFreed { s with evr.recs := s.evr.recs.filter fun r => !olderSeq r.seq seq }) s)

/-! Arming of injection (R619). -/

/-- INJ_EN sets: MR7, the measurement log and a record show it (R619). [DEDUCED: log entry 102] -/
def injectEnable (s : State) : State :=
  let s := setF F.fcoInjCtlInjEn 1 s
  let s := mrExtend 3 7 0x0031 (Config.sha384 (toBytes 8 s.bld.dsn ++ toBytes 8 s.eph.time)) s
  evrEvent (mkRec 0x0020 0 63 0 0xFF 0 (getF F.fcoInjCtlGraveOk s) 0) s

/-- INJECT_ARM (R619): 0x3C, then 0xC3 within 1 ms, sets INJ_EN; 0x00 clears it; any other write ends the sequence. -/
def execInjectArm (arm : Nat) (s : State) : Res :=
  live s (regWrite .fco (fun s =>
    let at_ := s.fco.armAt
    let s := { s with fco.armAt := if arm = 0x3C then some s.now else none }
    if arm = 0 then setF F.fcoInjCtlInjEn 0 s
    else if arm = 0xC3 && at_.any (fun t => decide (s.now - t ≤ 1000000)) && getF F.fcoInjCtlInjEn s = 0 then injectEnable s
    else s) s)

/-- INJECT_ARM_TIMEOUT (R619). -/
def execInjectArmTimeout (s : State) : Res :=
  live s (if s.fco.armAt.any fun t => decide (1000000 < s.now - t) then { s with fco.armAt := none } else s)

/-! The sideband target (R677). -/

/-- Registers that the sideband target writes: HDR_SPARE, ERR_STAT and INT_STAT of every page, FCO_LATCH, EVR_RD_SEQ, EVR_RELEASE
(R616, R677). -/
def execMgmtSidebandWrite (addr value : Nat) (s : State) : Res :=
  .next (
    if s.pwc.held || s.now < 1000000 || addr % 4 != 0 then s
    else if addr = 0x305C then regWrite .evr (setF F.evrRdSeqSeq value) s
    else if addr = 0x3080 then regWrite .evr (fun s => evrFreed { s with evr.recs := s.evr.recs.filter fun r => !olderSeq r.seq value }) s
    else if addr = 0x2040 || addr = 0x2044 || (addr % 0x1000 == 0x10 || addr % 0x1000 == 0x20 || addr % 0x1000 == 0x3C) then
      writeWord addr (value % 2 ^ 32) s
    else s)

end Sys2Proof.Machine
end

