-- ==== Sys2Proof/Machine/Power.lean ====
section
/-! DEFINITION. Resets of the head, the vault dump, lanes, head power states, the orderly stop and temperature (R614–R617,
R623–R639, R685–R693). -/

namespace Sys2Proof.Machine

/-! What a reset leaves (R46, R82, R595, R609, R628, R629, R697). -/

/-- Fields that a reset of the head keeps: those in VDD_AON, and at a warm reset the RWS fields, FCO_LATCH and what counts since cold
reset. -/
def keptFields (k : ResetKind) : List Fld :=
  (if k = .power then [] else
    [F.pwcDumpLastMs, F.pwcDumpDumps, F.fcoStatGrave, F.fcoGraveCause, F.fcoGraveSource, F.fcoGraveIncident, F.fcoGraveTLoTime,
     F.fcoGraveTHiTime]) ++
  (if k != .warm then [] else
    [F.fcoLatchLoLatchLo, F.fcoLatchHiLatchHi, F.fcoStatMaxClass, F.evrNextNext, F.evrDroppedDropped, F.evrSupprSuppr, F.evrStatFull,
     F.hqePairIdLoPairLo, F.hqePairIdHiPairHi, F.pwcThermEntries, F.pwcThermMaxTj, F.pwcTempInService, F.fiuScrubStatFixed,
     F.stgFilterReclaimed, F.ocuGapGap, F.ocuCountsMismatches, F.ocuCountsArbitrations, F.mgeLinkStatDowns] ++
    (List.range 4).flatMap (fun n => [F.hpeLinkStatDowns n, F.fabLinkStatDowns n]) ++
    (List.range 2).flatMap (fun n => [F.tlLinkStatDowns n, F.tlRetxResent n]) ++
    (List.range 32).map F.mptLinkStatDowns ++ allBlocks.map H.spare)

/-- The register file after a reset. -/
def resetRegs (k : ResetKind) (s : State) : State :=
  forEach (keptFields k) (fun f t => setF f (getF f s) t) { s with regs := State.reset.regs }

/-- The outcomes of control blocks in progress are recorded, not posted (R82): Aborted, which is deduced.
[DEDUCED: log entry 95] -/
def mgmtLost (s : State) : State :=
  { forEach s.mgmt.cmds (fun c t => mgmtUnpost c.q c.tag c.opcode stAborted t) s with mgmt := State.reset.mgmt }

/-- Control Plane and pins, with FCO as the reset found it (R595, R599, R609, R617, R619, R645, R686). -/
def wipeControl (k : ResetKind) (f : FcoState) (s : State) : State :=
  let warm := k == .warm
  let g := if k = .power then none else f.grave
  let fco : FcoState := { State.reset.fco with grave := g, laneOff := if warm then f.laneOff else [] }
  let pwc : PwcState := { State.reset.pwc with
    railsOut := s.pwc.railsOut, clocksOut := s.pwc.clocksOut, inputOk := s.pwc.inputOk, temps := s.pwc.temps,
    sensedAt := if warm then s.pwc.sensedAt else 0, failed := if warm then s.pwc.failed else [] }
  let pins : Pins := { s.pins with faultN := g.isNone, thermTripN := k == .power || s.pins.thermTripN, ppsOut := false, idle := true }
  let sec : SecState := { State.reset.sec with devKey := s.sec.devKey, attKey := s.sec.attKey }
  { s with now := if warm then s.now else 0, txn := State.reset.txn, fco := fco, evr := if warm then s.evr else State.reset.evr,
           pwc := pwc, pins := pins, sec := sec }

/-- A namespace's operations in progress lose the control block or command that waits; a format goes on where its record is (R244).
[DEDUCED: log entry 101] -/
def nsAfterReset (x : Namespace) : Namespace :=
  { x with format := (x.format.filter fun f => f.begun && f.ses != 0).map fun f => { f with cmd := none, mgmt := none },
           deleting := x.deleting.map fun d => (16, 0, d.2.2) }

/-- Reservations without persistence are released by a power loss (R209). [DEDUCED: log entry 101] -/
def resvAfterReset (k : ResetKind) (r : Resv) : Resv :=
  if k = .power && !r.ptpl then { r with regs := [], holder := none, rtype := 0 } else r

/-- Host Plane: links, controllers, queues, commands and connections are lost; the tables that SYSTEM clauses record stay. -/
def wipeHost (k : ResetKind) (s : State) : State :=
  let s := forEach (s.fab.conns.map (·.id)) loseConn s
  let ns := s.hqe.ns.map fun x => let y := nsAfterReset x; { y with resv := resvAfterReset k y.resv }
  let bs := if k = .warm then s.hqe.buckets else []
  let hqe : HqeState := { State.reset.hqe with
    ns := ns, groups := s.hqe.groups.map fun g => { g with change := false }, binds := s.hqe.binds, progress := s.hqe.progress,
    sanFail := s.hqe.sanFail, buckets := bs }
  { s with ports := State.reset.ports, hqe := hqe, fab := State.reset.fab }

/-- Reduction Plane (R46, R274, R291, R303, R341): key stores wait for their wrap keys; a warm reset keeps the tables in DRAM.
[DEDUCED: log entry 101] -/
def wipeReduction (k : ResetKind) (s : State) : State :=
  let warm := k == .warm
  let fpt := if warm then s.fiu.fpt.filter fun p => p.2.st != .pending else []
  let sut := if warm then s.fiu.sut else s.fiu.sut.map fun p => (p.1, { p.2 with fpt := none })
  let fiu : FiuState := { State.reset.fiu with
    dcopy := if warm then s.fiu.dcopy else [], fpt := fpt, sut := sut, log := s.fiu.log, hits := if warm then s.fiu.hits else [],
    rem := if warm then s.fiu.rem else [] }
  let cmp : CmpState := { State.reset.cmp with
    nextG := s.cmp.nextG, inBytes := if warm then s.cmp.inBytes else 0, outBytes := if warm then s.cmp.outBytes else 0 }
  let cry : CryState := { data := keysCleared s.cry.data, dedup := keysCleared s.cry.dedup, wrap := [], gens := s.cry.gens,
                          purges := s.cry.purges.map fun p => { p with mgmt := none } }
  { s with fiu := fiu, cmp := cmp, cry := cry, dge := State.reset.dge }

/-- A stripe as its journal record holds it: no PAR holds its buffers (R445, R449). -/
def stripeAfterReset (x : Stripe) : Stripe :=
  { x with held := false, recover := false, closed := true, dueAt := none,
           chunks := x.chunks.map fun c => if c = .sent then .open_ else c }

/-- Media Plane: caches and modules' links are lost; maps, tables and stripes are what flash, the journal and the stripe journal hold
(R412, R429, R445). -/
def wipeMedia (s : State) : State :=
  let ps := s.ftu.pages.map fun p => { p with resident := false, loading := false, writing := false }
  let bs := s.ftu.bands.map fun b => { b with st := if b.st = .collecting then .sealed_ else b.st }
  let ms := s.par.members.map fun m => (m.1, { m.2 with timeouts := [], arounds := 0, downAt := none, declared := 0, fatal := false })
  let rs := s.par.rebuilds.map fun r => { r with started := false, dueAt := 0 }
  { s with ftu := { s.ftu with pages := ps, bands := bs, gcs := [], rootAt := 0, nextBseq := 1, gcOn := false, urgent := false,
                               admitStop := false, cack := s.ftu.csnext },
           mca := State.reset.mca,
           par := { State.reset.par with stripes := s.par.stripes.map stripeAfterReset, members := ms, lost := s.par.lost, rebuilds := rs },
           mods := { State.reset.mods with sysRecs := s.mods.sysRecs } }

/-- A stream after a reset: its transfer begins again (R543, R550). -/
def streamAfterReset (x : Stream) : Stream :=
  { x with sending := false, fpq := [], batches := [], acks := [], tried := [], authBad := 0, rcut := none }

/-- Time, the Ephemeris and replication (R697): snapshot and replication cuts and the pair's entries are restored, the others not. -/
def wipeTime (s : State) : State :=
  let keep := fun (e : Entry) => e.kind == .snapCut || e.kind == .replCut || e.dormant
  let eph : EphState := { State.reset.eph with
    entries := s.eph.entries.filter keep, cuts := s.eph.cuts.map fun c => { c with mgmt := none },
    epochs := s.eph.epochs.map fun e => { e with mgmt := none }, reserve := s.eph.reserve, nextCut := s.eph.nextCut }
  { s with eph := eph, repl := { streams := s.repl.streams.map streamAfterReset, conns := [] } }

/-- Pair Plane: no link, no role; the mirror half and the peer's journal stay as the source of the write buffer holds them, and CONTROL
messages queued in the journal (R576, R637). -/
def wipePair (s : State) : State :=
  let pair : PairState := { State.reset.pair with
    mirMem := s.pair.mirMem, copied := s.pair.copied, peerJ := s.pair.peerJ, peerApplied := s.pair.peerApplied,
    peerRoot := s.pair.peerRoot, queued := s.pair.queued, nextWin := s.ftu.csnext, nextFwd := s.pair.nextFwd }
  { s with pair := pair }

/-- A valid RETAIN record that has not been consumed (R635, R638). [DEDUCED: log entry 95] -/
def retainValid (s : State) : Bool := s.bld.retain.any fun r => r.ok && decide (s.bld.consumed < r.gen)

/-- The write buffer leaves DRAM. What a source holds of it was captured when the source was written; without one, the peer's mirror half
holds the slots that it has acknowledged (R22, R638). -/
def wipeBuffer (k : ResetKind) (s : State) : State :=
  let s := if k = .warm then s else { s with bld.retain := none }
  let none_ := !retainValid s && !s.bld.vault.any fun v => v.ok && decide (s.bld.consumed < v.gen)
  let s := if none_ && onF F.stgWbStatReady s then
      { s with bld.imgOwn := if peerIn s then s.wb.own.filter (fun p => p.2.acked) else [], bld.imgMir := [] }
    else s
  { s with wb := { State.reset.wb with nextU := s.wb.nextU, nextR := s.wb.nextR } }

/-- Start-up begins anew. -/
def wipeBoot (s : State) : State :=
  { s with bld := { s.bld with hir := none, running := none, wdogAt := none, stageAt := 0, adopt := false, ucode := 0, peerMin := 0,
                               peerMax := 0, setVer := 0 } }

/-- Reset the head (R628). -/
def wipe (k : ResetKind) (s : State) : State :=
  let f := s.fco
  let s := if k = .warm then mgmtLost s else { s with mgmt := State.reset.mgmt }
  let s := wipeHost k s
  let s := wipeBuffer k s
  let s := wipeReduction k (wipeTime s)
  let s := wipePair (wipeMedia s)
  resetRegs k (wipeControl k f (wipeBoot s))

/-! Start of the boot ROM (R377, R381, R617, R641). -/

/-- The block runs: EN and STATE 2 (R56). [DESIGN CHOICE: log entry 94] -/
def bring (b : Block) (s : State) : State := setState b 2 (flagF (H.en b) true s)

/-- The 64-byte ROM identity block (R381). -/
def romIdentity (s : State) : List Byte :=
  toBytes 4 Config.romVersion ++ toBytes 1 siliconStep ++ toBytes 1 s.bld.lifecycle ++ zeros 2 ++
  toBytes 8 (b2n (!s.bld.jtagOk)) ++ toBytes 4 (tget s.bld.arb 1 0) ++ toBytes 4 (tget s.bld.arb 2 0) ++ zeros 40

/-- Blocks in service while the Grave state is set (R616, R617). -/
def graveBlocks : List Block := [.mge, .fco, .evr, .sec, .pwc, .bld]

/-- Blocks that run from the start of the boot ROM: the Control Plane, HBU, the host ports and MGE, and DGE for the measurements (R140,
R381, R574). [DEDUCED: log entry 104] -/
def bootBlocks : List Block := blocksOf .control ++ [.hbu, .hpe 0, .hpe 1, .hpe 2, .hpe 3, .mge, .dge]

/-- The boot ROM starts: measurement registers and log are zero, MR0 takes the identity block. In a trial the boot
watchdog counts from here; in the Grave state nothing else comes up (R663).
[DESIGN CHOICE: log entry 94; DEDUCED: log entry 104] -/
def boot (s : State) : State :=
  let s := { s with sec := { s.sec with mr := State.reset.sec.mr, mrCnt := State.reset.sec.mrCnt, log := [] },
                    pins := { s.pins with idle := graved s } }
  let s := setF F.bldStatHead s.pins.headSel s
  let s := if graved s then forEach graveBlocks bring s else setF F.dgeCtrlJobEn 1 (forEach bootBlocks bring s)
  let s := if s.bld.fwSt = 5 then { s with bld.wdogAt := some (s.now + 600000000000) } else s
  mrExtend 0 0 0x0001 (Config.sha384 (romIdentity s)) s

/-- POWER_CYCLE (R617, R628): nothing on chip survives. -/
def execPowerCycle (s : State) : Res :=
  let t := setF F.pwcStatLastReset 0 (wipe .power s)
  .next { t with pwc.held := true, pwc.inputOk := true, pwc.railsOut := [], pwc.clocksOut := [] }

/-- COLD_RESET (R595, R609, R617, R628): the Grave state stays. -/
def execColdReset (s : State) : Res :=
  let t := setF F.pwcStatLastReset 1 (wipe .cold s)
  .next { t with pwc.held := true }

/-- COLD_RESET_RELEASE (R377, R381, R617, R624, R641): rails, clocks and input power are present.
[DESIGN CHOICE: log entry 94; DEDUCED: log entry 96] -/
def execColdResetRelease (s : State) : Res :=
  .next (if s.pwc.held then
      boot { s with now := 0, pwc.held := false, pwc.inputOk := true, pwc.railsOut := [], pwc.clocksOut := [] }
    else s)

/-! Image headers (R637). -/

/-- One above the highest GEN used (R637). -/
def nextImgGen (s : State) : Nat :=
  (s.bld.vault.map (·.gen)).foldl max (max s.bld.consumed (s.bld.retain.elim 0 (·.gen))) + 1

/-- An image header as of now (R637). [DEDUCED: log entry 97] -/
def imageHdr (slot time : Nat) (retained : Bool) (s : State) : ImageHdr :=
  { head := s.pins.headSel, slot := slot, gen := nextImgGen s, mirrorLive := peerIn s && getF F.mirPairStatPeerState s == 2,
    grave := graved s, retained := retained, time := time, nextCseq := s.ftu.csnext, nextSeq := s.hqe.nextSeq,
    peerCseq := (s.pair.peerJ.map (·.cseq)).foldl max 0, fence := (s.mods.mir.map (·.1)).map fun m => (m, fenceWord m s), ok := true }

/-- The halves as they stand become the source's; while the write buffer has not been taken yet, the source on record stays.
[DEDUCED: log entries 95, 97] -/
def captureImage (s : State) : State :=
  if onF F.stgWbStatReady s then { s with bld.imgOwn := s.wb.own, bld.imgMir := s.wb.mir } else s

/-! Warm reset (R584, R628, R629, R664). -/

/-- A warm reset: heartbeat state 4, the RETAIN record, all planes reset, start-up from the boot ROM.
[DESIGN CHOICE: log entries 94, 106] -/
def warmResetDo (why : Nat) (s : State) : State :=
  let s := if graved s || !onF F.hbuCtrlTxEn s || blockDown .hbu s then s else hbSend 4 s
  let s := if onF F.stgWbStatReady s && !graved s then
      captureImage { s with bld.retain := some (imageHdr 0xFF (stamp s) true s) }
    else s
  boot (setF F.pwcStatLastReset why (wipe .warm s))

/-- WARM_RESET (R82, R595, R609, R617, R619, R629, R659, R697): WARM_RST_N low; a dump runs to its end (R635). -/
def execWarmReset (s : State) : Res := .next (if s.pwc.held || s.pwc.dumping then s else warmResetDo 2 s)

/-- PWC_RST_WRITE (R628, R629). [DESIGN CHOICE: log entry 106] -/
def execPwcRstWrite (key : Nat) (s : State) : Res :=
  live s (regWrite .pwc (fun s => if key = 0x57A2 then warmResetDo 3 s else s) s)

/-! The vault dump (R598, R615, R634–R637). -/

/-- A dump starts: outputs stop; a power state transition is overridden. [DEDUCED: log entry 95] -/
def dumpStart (s : State) : State :=
  let s := { s with pwc.dumping := true, pwc.dumpAt := s.now, pwc.toState := none, bld.dumpOpen := true,
                    pins := { s.pins with idle := true } }
  setF F.pwcStatMoving 0 s

/-- POWER_FAIL (R634–R636). [DEDUCED: log entry 96] -/
def execPowerFail (s : State) : Res :=
  let t := { s with pwc.inputOk := false }
  .next (
    if s.pwc.held || s.pwc.dumping || graved s then t
    else if onF F.stgWbStatReady s || retainValid s then
      dumpStart (if onF F.hbuCtrlTxEn s && !blockDown .hbu s then hbSend 5 t else t)
    else t)

/-- The newest valid image: its CRC holds, its GEN exceeds CONSUMED_GEN (R637). -/
def newestImage (s : State) : Option ImageHdr :=
  (s.bld.vault.filter fun v => v.ok && decide (s.bld.consumed < v.gen)).foldl (fun m v => match m with
    | none => some v
    | some w => if w.gen < v.gen then some v else some w) none

/-- The slot that a dump takes: not that of the newest image (R636). -/
def dumpSlot (s : State) : Nat :=
  match newestImage s with
  | some v => 1 - v.slot % 2
  | none => match s.bld.vault.foldl (fun (m : Option ImageHdr) v => if m.all fun w => decide (w.gen < v.gen) then some v else m) none with
    | some v => 1 - v.slot % 2
    | none => 0

/-- The dump can write a whole image: there is a write buffer to write, and neither the Memory Plane nor VLT has failed (R615, R635).
[DEDUCED: log entry 95] -/
def dumpWhole (s : State) : Bool :=
  (onF F.stgWbStatReady s || retainValid s) && !blockDown .vlt s && s.fco.grave.all fun g => decide (g.source < 38 ∨ 41 < g.source)

/-- The image header is written (R636, R637). [DEDUCED: log entry 95] -/
def dumpWrite (s : State) : State :=
  let v := imageHdr (dumpSlot s) (if timeUnset s then s.pwc.dumpAt else s.eph.time - (s.now - s.pwc.dumpAt)) false s
  let s := captureImage s
  emit (.vaultHeader v.gen)
    { s with bld.vault := s.bld.vault.filter (fun w => w.slot != v.slot) ++ [v], bld.dumpOpen := false, bld.retain := none }

/-- VAULT_DUMP_DONE (R615, R628, R635–R637): `restored` says that input power is back, `ms` how long the dump took. In the Grave state
without a loss of input power the head stays as it is; otherwise the domains are gated, or PWC performs a cold reset.
[DEDUCED: log entry 96] -/
def execVaultDumpDone (restored : Bool) (ms : Nat) (s : State) : Res :=
  .next (
    if !s.pwc.dumping then s
    else
      let s := if dumpWhole s then dumpWrite s else s
      let s := setF F.pwcDumpLastMs (min ms 65535) (incSatF F.pwcDumpDumps 1 { s with pwc.dumping := false })
      if s.pwc.inputOk then s
      else if restored then
        let t := setF F.pwcStatLastReset 5 (wipe .cold s)
        { t with pwc.held := true, pwc.inputOk := true }
      else if graved s then s
      else
        let t := wipe .cold s
        { t with pwc.held := true })

/-! Rails and clocks (R598, R607, R627). -/

/-- IN_RANGE of PWC_RAILS, and PWC_CLK. -/
def railsWord (s : State) : Nat := s.pwc.railsOut.foldl bclr 0x7F
def clkWord (s : State) : Nat := s.pwc.clocksOut.foldl bclr 0x7FF

/-- SUPPLY (R598, R607). [DEDUCED: log entry 96] -/
def execSupply (rail : Nat) (s : State) : Res :=
  .next (
    if s.pwc.held || 7 ≤ rail then s
    else
      let s := { s with pwc.railsOut := s.pwc.railsOut.filter (· != rail) ++ [rail] }
      if !s.pwc.inputOk || s.pwc.dumping then s else raiseHead 43 rail 0xFF (railsWord s) 4 none s)

/-- Ports that a 100 MHz input feeds (R627). [DESIGN CHOICE: log entry 103] -/
def clockPorts (input : Nat) : List Block :=
  match input with
  | 2 => [.hpe 0] | 3 => [.hpe 1] | 4 => [.hpe 2] | 5 => [.hpe 3] | 6 => [.mge] | 7 => [.tl 0] | 8 => [.tl 1]
  | 9 => (List.range 16).map Block.mpt
  | 10 => (List.range 16).map fun n => Block.mpt (16 + n)
  | _ => []

/-- CLOCK_LOSS (R598, R607, R627). [DEDUCED: log entry 96] -/
def execClockLoss (input : Nat) (s : State) : Res :=
  .next (
    if s.pwc.held || 11 ≤ input then s
    else
      let s := { s with pwc.clocksOut := s.pwc.clocksOut.filter (· != input) ++ [input] }
      if input < 2 then raiseHead 45 input 0xFF (clkWord s) 4 none s
      else forEach (clockPorts input) (fun b t => raiseHead 45 input 0xFF (clkWord s) 2 (some b) t) s)

/-! Lanes (R274, R630–R632). -/

/-- Lanes whose enable bit changes from `old` to `new`: wake-ups and gatings are counted (R647).
[DEDUCED: log entry 98] -/
def laneCounts (n old new : Nat) (s : State) : State :=
  let up := ((List.range n).filter fun l => bit new l && !bit old l).length
  let down := ((List.range n).filter fun l => !bit new l && bit old l).length
  count .pwc 0x03 down (count .pwc 0x02 up s)

/-- A bank's power follows its enable bit: off it is a tier 1 miss, on it reloads (R274). [DEDUCED: log entry 98] -/
def bankPower (old new : Nat) (s : State) : State :=
  forEach (List.range 16) (fun b t =>
    if bit new b && !bit old b then bankReset b t
    else if !bit new b && bit old b then
      setF F.fiuBankStatReady (bclr (getF F.fiuBankStatReady t) b)
        (setF F.fiuBankStatLoading (bclr (getF F.fiuBankStatLoading t) b) { t with fiu.tier1 := t.fiu.tier1.filter fun p => p.1 % 16 != b })
    else t) s

/-- LANE_ENABLE_WRITE (R60, R274, R630–R632): one lane of a kind stays enabled while its engine is.
[DEDUCED: log entry 98] -/
def execLaneEnableWrite (b : Block) (expand : Bool) (mask : Nat) (s : State) : Res :=
  live s (
    match laneField b (if b = .cmp && expand then 0x80 else 0) with
    | none => s
    | some (f, _, z, n) =>
      regWrite b (fun s =>
        let old := getF f s
        let new := mask % 2 ^ n
        let last := new = 0 && onF (H.en b) s && b != .fiu
        let new := if last then 1 <<< ((lowBit n 0 old).getD 0) else new
        let s := if last then note .pwc E.pwcLastLane 0xFF s else s
        let gone := (List.range n).filter fun l => !bit new l
        let s := laneCounts n old new (setF f new { s with pwc.gated := s.pwc.gated.filter fun k => gone.all fun l => k != laneKey b (z + l) })
        match b with
        | .fiu => bankPower old new s
        | .dge => dgeRun s
        | _ => s) s)

/-- LANE_AUTO_GATE (R630, R631): a lane that holds no work. -/
def execLaneAutoGate (b : Block) (lane : Nat) (s : State) : Res :=
  live s (
    if !isLane b lane || b = .cpc || b = .fiu || !onF F.pwcCtrlAutoEn s || !onF (H.pwrAuto b) s || !laneReady b lane s ||
        (b = .dge && s.dge.ctx.any fun c => c.2.lane == some lane) then s
    else count .pwc 0x03 1 { s with pwc.gated := s.pwc.gated ++ [laneKey b lane] })

/-! Head power states (R219, R633, R634, R687, R688). -/

/-- The state PWC aims at: HQE's level, no higher in power than CAP and the throttle level allow.
[DEDUCED: log entry 98] -/
def stateAim (s : State) : Nat := min 2 (max (getF F.hqePsStatLevel s) (max (getF F.pwcLimitCap s) (getF F.pwcTempLevel s)))

/-- Way groups of MCA that a head state keeps gated (R633). -/
def stateGroups (h : Nat) : List Nat := if h = 0 then [] else if h = 1 then [3, 2] else [3, 2, 1]

/-- A transition ends: lanes, way groups and VLT are as the state has them. [DEDUCED: log entry 98] -/
def enterState (h : Nat) (s : State) : State :=
  let s := setInt .pwc I.pwcStateChange (count .pwc 0x01 1 (setF F.pwcStatMoving 0 (setF F.pwcStatHstate h { s with pwc.toState := none })))
  let s := forEach ((stateGroups h).filter fun g => !s.mca.off.contains g) groupOff s
  let on := s.mca.off.filter fun g => !(stateGroups h).contains g && !s.mca.auto.contains g && bit (getF F.mcaWaysGroupOn s) (g - 1)
  let s := if on.isEmpty then s else setInt .mca I.mcaGroupOn { s with mca.off := s.mca.off.filter fun g => !on.contains g }
  setF (H.pwrState .vlt) (if h = 2 then 2 else 0) s

/-- HEAD_STATE_EVAL (R630, R633, R634, R688): a transition begins, or the one under way ends. -/
def execHeadStateEval (s : State) : Res :=
  live s (
    match s.pwc.toState with
    | some (h, t) => if s.now < t then s else enterState h s
    | none =>
      let h := stateAim s
      let cur := getF F.pwcStatHstate s
      if h = cur then s
      else setF F.pwcStatMoving 1 { s with pwc.toState := some (h, s.now + if cur < h then 20000 else 30000) })

/-! Orderly stop (R639). -/

/-- ORDERLY_SHUTDOWN (R60, R639). [DEDUCED: log entry 99] -/
def execOrderlyShutdown (s : State) : Res :=
  live s (regWrite .pwc (fun s => setF F.pwcCtrlShutdown 1 { s with pwc.stopping := true }) s)

/-- Commands fetched and not complete; Asynchronous Event Requests held do not count. [DEDUCED: log entry 99] -/
def cmdsLeft (s : State) : Bool := s.hqe.cmds.any fun c => s.hqe.ctls.all fun k => !k.aers.contains c.h

/-- SHUT_DONE (R574, R639). [DEDUCED: log entry 99] -/
def execShutDone (s : State) : Res :=
  live s (
    if !s.pwc.stopping || onF F.pwcStatShutDone s || cmdsLeft s || !s.wb.own.isEmpty || !s.wb.units.isEmpty || !s.par.stripes.isEmpty ||
        s.ftu.pages.any (fun p => p.dirty || p.writing) || !running .ftu s then s
    else
      let s := writeRoot true s
      let s := { s with bld.consumed := nextImgGen s - 1, bld.retain := none }
      setInt .pwc I.pwcShutDone (setF F.pwcStatShutDone 1 (hbSend 4 s)))

/-! Temperature (R686–R693). -/

/-- A reading in units of 0.25 °C: 12 bits, two's complement. -/
def degrees (v : Nat) : Int := if v % 4096 < 2048 then (v % 4096 : Nat) else ((v % 4096 : Nat) : Int) - 4096

/-- The sensor in service with the highest reading. -/
def hottest (temps failed : List Nat) : Option Nat :=
  ((List.range 16).filter fun n => !failed.contains n).foldl (fun m n => match m with
    | none => some n
    | some k => if degrees (temps.getD k 0) < degrees (temps.getD n 0) then some n else some k) none

/-- The composite temperature in kelvin, rounded to the nearest (R690). -/
def kelvin (q : Int) : Nat := ((q * 25 + 27315 + 50) / 100).toNat

/-- Controllers whose over-temperature threshold lies between two readings post the event, where they enable it (R690).
[PRESUMED: log entry 28] -/
def tempEvents (old new : Nat) (s : State) : State :=
  forEach (s.hqe.ctls.filter fun k => k.en && bit (tget k.feats 0x0B 0) 1 &&
      (let t := tget k.feats 0x04 373 % 65536; decide (old < t ∧ t ≤ new)))
    (fun k t => postEvent k.id .thermal t) s

/-- The throttle level by a reading: the entry thresholds, and level 2 with fewer than 8 sensors (R686, R687).
[DESIGN CHOICE: log entry 100] -/
def levelOf (q : Int) (sensors cur : Nat) : Nat :=
  max cur (if 440 ≤ q then 3 else if 412 ≤ q || sensors < 8 then 2 else if 400 ≤ q then 1 else 0)

/-- The instant since which a reading has stayed below a threshold. -/
def coolSince (q lim : Int) (was : Option Nat) (now : Nat) : Option Nat := if q < lim then some (was.getD now) else none

/-- PWC takes a new level (R687, R693). -/
def setLevel (n : Nat) (s : State) : State :=
  let cur := getF F.pwcTempLevel s
  if n = cur then s
  else
    let s := if cur = 0 then incSatF F.pwcThermEntries 1 s else s
    setInt .pwc I.pwcThermLevel (setF F.pwcTempLevel n s)

/-- The Trip threshold is reached (R689). [DESIGN CHOICE: log entry 100] -/
def thermTrip (sensor : Nat) (s : State) : State :=
  let w := getF F.pwcTempTj s + 2 ^ 12 * getF F.pwcTempSensor s + 2 ^ 16 * getF F.pwcTempLevel s + 2 ^ 18 * getF F.pwcTempInService s
  raiseHead 42 sensor 0xFF w 4 none { s with pins := { s.pins with thermTripN := false } }

/-- At 120 °C a dump is abandoned (R689). [DESIGN CHOICE: log entry 100] -/
def dumpAbandon (q : Int) (s : State) : State :=
  if 480 ≤ q && s.pwc.dumping && !s.pins.thermTripN then { s with pwc.dumping := false } else s

/-- PWC acts on the highest reading. [DESIGN CHOICE: log entry 100] -/
def sensed (sensor : Nat) (q : Int) (v sensors : Nat) (s : State) : State :=
  let cur := getF F.pwcTempLevel s
  let old := kelvin (degrees (getF F.pwcTempTj s))
  let s := setF F.pwcTempTj (v % 4096) (setF F.pwcTempSensor sensor s)
  let s := if degrees (getF F.pwcThermMaxTj s) < q then setF F.pwcThermMaxTj (v % 4096) s else s
  let s := { s with pwc.cool1 := coolSince q 388 s.pwc.cool1 s.now, pwc.cool2 := coolSince q 400 s.pwc.cool2 s.now }
  let new := levelOf q sensors cur
  let s := if 400 ≤ q && cur = 0 then note .pwc E.pwcThrottle 0xFF s else s
  let s := setLevel new s
  let s := if halted s then s else tempEvents old (kelvin q) s
  let s := if new = 3 && cur != 3 then thermTrip sensor s else s
  dumpAbandon q s

/-- SENSOR_READ (R598, R686–R690, R693): the 16 readings, and the sensors that fail their self-check.
[DESIGN CHOICE: log entry 100] -/
def execSensorRead (temps failed : List Nat) (s : State) : Res :=
  .next (
    if s.pwc.held || temps.length != 16 || decide (s.now - s.pwc.sensedAt < 100000) then s
    else
      let cur := getF F.pwcTempLevel s
      let s := if cur = 1 || cur = 2 then count .pwc 0x04 ((s.now - s.pwc.sensedAt) / 1000) s else s
      let bad := (failed.filter fun n => decide (n < 16) && !s.pwc.failed.contains n).eraseDups
      let s := { s with pwc.temps := temps, pwc.sensedAt := s.now, pwc.failed := s.pwc.failed ++ bad }
      let s := forEach bad (fun _ t => raise .pwc E.pwcSensorFault 0xFF t) s
      let n := 16 - s.pwc.failed.length
      let s := setF F.pwcTempInService n s
      match hottest temps s.pwc.failed with
      | some k => sensed k (degrees (temps.getD k 0)) (temps.getD k 0) n s
      | none => setLevel (max 2 cur) s)

/-- THROTTLE_RELEASE (R686, R687): 10 ms below a release threshold, to the next lower level. -/
def execThrottleRelease (s : State) : Res :=
  let done := fun (c : Option Nat) => c.any fun t => decide (10000000 ≤ s.now - t)
  live s (
    match getF F.pwcTempLevel s with
    | 2 => if done s.pwc.cool2 && s.pwc.failed.length ≤ 8 then setLevel 1 s else s
    | 1 => if done s.pwc.cool1 then setLevel 0 s else s
    | _ => s)

end Sys2Proof.Machine
end

