-- ==== Sys2Proof/Machine/Firmware.lean ====
section
/-! DEFINITION. Firmware images, transfer, activation, install, trial and settings (R648–R671). -/

namespace Sys2Proof.Machine

/-! Statuses (R670). -/

def stHeaderFirst : Nat := 0x0140
def stHeaderRefused : Nat := 0x0141
def stWrongImage : Nat := 0x0142
def stPieceRange : Nat := 0x0143
def stPieceCrc : Nat := 0x0144
def stStagingBusy : Nat := 0x0145
def stNoStaged : Nat := 0x0146
def stPiecesMissing : Nat := 0x0147
def stRollback : Nat := 0x0148
def stPeerIncompatible : Nat := 0x0149
def stTrialOpen : Nat := 0x014A
def stInstallBegun : Nat := 0x014B
def stSetVersion : Nat := 0x014C

/-! Images (R648, R650, R651). -/

/-- ASCII "HK-AF800", padded to 16 bytes (R650). -/
def partName : List Byte := [0x48, 0x4B, 0x2D, 0x41, 0x46, 0x38, 0x30, 0x30, 0, 0, 0, 0, 0, 0, 0, 0]

/-- The body bytes a slot of a KIND can hold (R648, R650). -/
def slotBody (kind : Nat) : Nat := (if kind = 1 then 4 else 48) * 2 ^ 20 - 512

/-- MAGIC, FORMAT and CRC of a header (R650). -/
def hdrWhole (h : List Byte) : Bool := field h 0 4 == 0x57464B48 && field h 4 2 == 1 && crcAt h 512

/-- PART matches and STEP_MASK has the die's stepping (R651). -/
def hdrPart (h : List Byte) : Bool := (h.drop 8).take 16 == partName && decide (siliconStep < 64) && bit (field h 24 8) siliconStep

/-- KIND and LENGTH lie in range (R650). -/
def hdrRange (h : List Byte) : Bool :=
  let k := field h 6 1
  let n := field h 56 8
  (k == 1 || k == 2) && n % 16 == 0 && decide (16 ≤ n ∧ n ≤ slotBody k)

/-- SIGNATURE verifies under KEY_ID (R651). -/
def hdrSigned (h : List Byte) : Bool := decide (field h 7 1 < 4) && Config.ecdsaOk (field h 7 1) (h.take 208)

/-- An image by its bytes, a whole one or a header alone. -/
def imageOf (d : List Byte) : FwImage :=
  let n := field d 56 8
  { kind := field d 6 1, keyId := field d 7 1, version := field d 32 4, peerMin := field d 36 4, peerMax := field d 40 4, counter := field d 44 1,
    setVer := field d 48 2, setMin := field d 50 2, id := field d 64 8, bytes := d,
    ok := hdrWhole (d.take 512) && hdrPart d && hdrRange d && hdrSigned d && d.length == 512 + n && Config.sha384 (d.drop 512) == (d.drop 64).take 48 }

/-- The image that the head was delivered with: it passes. A choice of the model. [DESIGN CHOICE: log entry 103] -/
def factoryImage (kind : Nat) : FwImage :=
  { kind := kind, keyId := 0, version := Config.factoryVersion kind, peerMin := Config.factoryPeerMin, peerMax := Config.factoryPeerMax, counter := 0,
    setVer := 1, setMin := 1, id := field (Config.factoryBytes kind) 64 8, bytes := Config.factoryBytes kind, ok := true }

def slotImage (kind : Nat) (s : State) : FwImage := tget s.bld.slots kind (factoryImage kind)
def reserveImage (kind : Nat) (s : State) : FwImage := tget s.bld.reserve kind (factoryImage kind)

/-- KEY_ID names a key that is not revoked (R651). -/
def keyGood (i : FwImage) (s : State) : Bool := decide (i.keyId < 4) && !s.bld.revoked.contains i.keyId

/-- ARB is not below the fused counter of the KIND (R651, R652). -/
def arbGood (i : FwImage) (s : State) : Bool := decide (tget s.bld.arb i.kind 0 ≤ i.counter)

/-- The image passes as one of a KIND (R651). -/
def passes (kind : Nat) (i : FwImage) (s : State) : Bool := i.ok && i.kind == kind && keyGood i s && arbGood i s

/-! The update record (R656, R657, R662, R663). -/

/-- The KIND of the staged image. -/
def stagedKind (s : State) : Nat := s.bld.stage.elim 0 fun t => t.img.kind

/-- A trial is open (R663). [DEDUCED: log entry 108] -/
def inTrial (s : State) : Bool := s.bld.fwSt == 5

/-- Staging is cleared, and the record keeps only OUTCOME (R657, R662). -/
def stagingClear (outcome : Nat) (s : State) : State :=
  { s with bld.stage := none, bld.fwSt := 0, bld.starts := 0, bld.why := 0, bld.outcome := outcome, bld.wdogAt := none }

/-- Pieces of a transfer (R653). -/
def pieceCount (t : FwStage) : Nat := (t.total + 65535) / 65536

/-- The length of a piece (R653). -/
def pieceLen (t : FwStage) (n : Nat) : Nat := if n + 1 < pieceCount t then 65536 else t.total - 65536 * n

/-- Pieces still missing. -/
def missing (t : FwStage) : List Nat := (List.range (pieceCount t)).filter fun n => (tget? t.pieces n).isNone

/-- RESULT bytes 0–7 of FW_PIECE (R653). [DEDUCED: log entry 107] -/
def pieceResult (t : FwStage) : Nat := (missing t).length + 2 ^ 32 * ((missing t).head?.getD 0xFFFFFFFF)

/-- The staged image as a whole. -/
def wholeImage (t : FwStage) : FwImage := imageOf (t.pieces.flatMap (·.2))

/-! Transfer (R653–R657). -/

/-- The reason for which a header is refused (R654, R670). [DEDUCED: log entry 107] -/
def headerFault (imageId : Nat) (h : List Byte) (s : State) : Option Nat :=
  let i := imageOf h
  if !hdrWhole h then some 1
  else if !hdrPart h then some 2
  else if !hdrRange h then some 3
  else if !arbGood i s then some 4
  else if !keyGood i s then some 5
  else if !hdrSigned h then some 6
  else if i.kind == 2 && decide (getF F.bldSetSetVer s < i.setMin) then some 7
  else if i.id != imageId then some 8
  else none

/-- Complete a piece, with the pieces missing; with nothing staged their count is a free value. -/
def piecePost (q tag st reason : Nat) (s : State) : State :=
  match s.bld.stage with
  | some t => mgmtPost q tag st (pieceResult t + 2 ^ 64 * reason) s
  | none =>
    let d := drawNat s
    mgmtPost q tag st (d.1 % 2 ^ 64 + 2 ^ 64 * reason) d.2

/-- Store a piece of a transfer; STATE is 2 once none is missing (R656, R657). [DEDUCED: log entry 107] -/
def storePiece (t : FwStage) (n : Nat) (data : List Byte) (s : State) : State :=
  let t := { t with pieces := tset t.pieces n data }
  { s with bld.stage := some t, bld.fwSt := if (missing t).isEmpty then 2 else 1 }

/-- A piece that fits, or not (R655). [DEDUCED: log entry 107] -/
def takePiece (q tag : Nat) (t : FwStage) (n pcrc : Nat) (data : List Byte) (s : State) : State :=
  if pieceCount t ≤ n || data.length != pieceLen t n then piecePost q tag stPieceRange 0 s
  else if crc32c data != pcrc then piecePost q tag stPieceCrc 0 s
  else if (tget? t.pieces n).isSome then piecePost q tag stSuccess 0 s
  else piecePost q tag stSuccess 0 (storePiece t n data s)

/-- Piece 0 begins a transfer (R654). [DEDUCED: log entry 107] -/
def firstPiece (q tag imageId pcrc : Nat) (data : List Byte) (s : State) : State :=
  let h := data.take 512
  match headerFault imageId h s with
  | some r => piecePost q tag stHeaderRefused r s
  | none => takePiece q tag { img := imageOf h, total := 512 + field h 56 8, pieces := [] } 0 pcrc data s

/-- FW_PIECE (R653–R657, R659). [DEDUCED: log entry 107] -/
def execFwPiece (q tag imageId piece pcrc : Nat) (restart : Bool) (data : List Byte) (s : State) : Res :=
  live s (mgmtRun q tag 0x0050 (fun s =>
    if planeDown .media s then piecePost q tag stDegraded 0 s
    else if 3 ≤ s.bld.fwSt then piecePost q tag stStagingBusy 0 s
    else if restart && piece = 0 then firstPiece q tag imageId pcrc data (stagingClear s.bld.outcome s)
    else match s.bld.stage with
    | none => if piece = 0 then firstPiece q tag imageId pcrc data s else piecePost q tag stHeaderFirst 0 s
    | some t =>
      if t.img.id != imageId then piecePost q tag (if piece = 0 then stStagingBusy else stWrongImage) 0 s
      else takePiece q tag t piece pcrc data s) s)

/-! Activation (R658, R659). -/

/-- The running microcode may pair with the staged image's (R658 step 3). -/
def peerFits (i : FwImage) (s : State) : Bool :=
  i.kind != 2 || !s.pair.joined || decide (i.peerMin ≤ s.pair.peerUcode ∧ s.pair.peerUcode ≤ i.peerMax)

/-- The peer can take over: Serving, with MIRROR_CURRENT and a group of its own (R658 step 4). -/
def peerTakes (s : State) : Bool :=
  onF F.mirPairStatMirrorCurrent s && getF F.mirPairStatPeerState s == 2 && s.hqe.groups.any fun g => !g.mine

/-- FW_ACTIVATE (R378, R628, R658): RESET_NOW performs the warm reset once the completion is posted.
[DEDUCED: log entry 108] -/
def execFwActivate (q tag imageId : Nat) (resetNow aloneOk : Bool) (s : State) : Res :=
  live s (mgmtRun q tag 0x0051 (fun s =>
    if 5 ≤ s.bld.fwSt then mgmtPost q tag stTrialOpen 0 s
    else match s.bld.stage with
    | none => mgmtPost q tag stNoStaged 0 s
    | some t =>
      let i := wholeImage t
      if t.img.id != imageId then mgmtPost q tag stNoStaged 0 s
      else if !(missing t).isEmpty then mgmtPost q tag stPiecesMissing 0 s
      else if !i.ok || !keyGood i s then mgmtPost q tag stAuthFailed 0 (stagingClear s.bld.outcome s)
      else if !arbGood i s then mgmtPost q tag stRollback 0 s
      else if !aloneOk && !peerFits i s then mgmtPost q tag stPeerIncompatible 0 s
      else if resetNow && !aloneOk && !peerTakes s then mgmtPost q tag stPeerNotReady 0 s
      else
        let s := mrTry 2 6 0x0020 (Config.sha384 (i.bytes.take 512)) { s with bld.fwSt := 3 }
        let s := mgmtPost q tag stSuccess 0 s
        if resetNow then warmResetDo 3 s else s) s)

/-- FW_DISCARD: FW_ACTIVATE with DISCARD (R657–R659). -/
def execFwDiscard (q tag : Nat) (s : State) : Res :=
  live s (mgmtRun q tag 0x0051 (fun s =>
    if 3 < s.bld.fwSt then mgmtPost q tag stInstallBegun 0 s
    else mgmtPost q tag stSuccess 0 (stagingClear s.bld.outcome s)) s)

/-! Install, trial, confirmation and fallback (R660–R664). -/

/-- Start-up follows a warm reset (R628, R660). -/
def afterWarm (s : State) : Bool := [2, 3, 4].contains (getF F.pwcStatLastReset s)

/-- The loader has something to install or to write back before stage 2 (R660, R664). [DEDUCED: log entry 105] -/
def installDue (s : State) : Bool := afterWarm s && [3, 4, 6].contains s.bld.fwSt

/-- A start of the new image in its trial: STARTS counts it and the boot watchdog begins anew; the third fails the trial (R663,
R664). [DEDUCED: log entry 109] -/
def trialStart (s : State) : State :=
  if !inTrial s then s
  else if s.bld.starts + 1 = 3 then { s with bld.starts := 3, bld.fwSt := 6, bld.why := 3 }
  else { s with bld.starts := s.bld.starts + 1, bld.wdogAt := some (s.now + 600000000000) }

/-- The reserve copy is written back into the slot, and the install ends (R662, R664). -/
def fallback (s : State) : State :=
  let k := stagedKind s
  stagingClear s.bld.why { s with bld.slots := tset s.bld.slots k (reserveImage k s) }

/-- The staged image is installed (R660): the slot's image is saved first when it passes, and the new image begins its trial.
[DEDUCED: log entry 108] -/
def install (i : FwImage) (s : State) : State :=
  let k := i.kind
  let s := if s.bld.fwSt = 3 && passes k (slotImage k s) s then { s with bld.reserve := tset s.bld.reserve k (slotImage k s) } else s
  let s := { s with bld.slots := tset s.bld.slots k i, bld.fwSt := 5, bld.starts := 0 }
  if k = 1 then warmResetDo 3 s else trialStart s

/-- FIRMWARE_INSTALL (R660, R662–R664). [DEDUCED: log entry 108] -/
def execFirmwareInstall (s : State) : Res :=
  live s (
    if getF F.bldStatStage s != 2 || !installDue s then s
    else if s.bld.fwSt = 6 then fallback s
    else match s.bld.stage with
    | none => s
    | some t =>
      let i := wholeImage t
      if !passes t.img.kind i s then stagingClear 5 s else install i s)

/-- FW_CONFIRM (R652, R662, R663): at stage 9, once the self-tests have passed. -/
def execFwConfirm (s : State) : Res :=
  live s (
    if !inTrial s || !inService s then s
    else
      let k := stagedKind s
      let i := slotImage k s
      let s := { s with bld.arb := tset s.bld.arb k (max (tget s.bld.arb k 0) i.counter), bld.reserve := tset s.bld.reserve k i }
      setF F.bldFwCtrlFwConfirm 1 (stagingClear 1 s))

/-- The trial fails: STATE 6, and a warm reset (R664). [DEDUCED: log entry 109] -/
def trialFail (why : Nat) (s : State) : State := warmResetDo 4 { s with bld.fwSt := 6, bld.why := why }

/-- BOOT_WATCHDOG_EXPIRY (R628, R629, R663, R664). [DEDUCED: log entry 109] -/
def execBootWatchdogExpiry (s : State) : Res :=
  live s (if inTrial s && s.bld.wdogAt.any fun t => decide (t ≤ s.now) then trialFail 2 s else s)

/-- FW_REJECT (R664, R671). [DEDUCED: log entry 108] -/
def execFwReject (key : Nat) (s : State) : Res :=
  live s (regWrite .bld (fun s => if key = 0x0FA1 && inTrial s then trialFail 4 s else s) s)

/-! Settings (R666–R668). -/

/-- Bytes of a settings block with these items (R666). -/
def settingsLen (l : List SetItem) : Nat := 64 + (l.map fun i => 4 + (i.val.length + 3) / 4 * 4).sum

/-- An item that format version 1 defines, in its range, or one of the array OS (R666).
[DESIGN CHOICE: log entry 110] -/
def itemOk (i : SetItem) : Bool :=
  let v := ofBytes i.val
  match i.id with
  | 1 => i.val.length == 1 && decide (1 ≤ v ∧ v ≤ 30)
  | 2 => i.val.length == 1 && decide (22 ≤ v ∧ v ≤ 28)
  | 3 => i.val.length == 2
  | n => decide (0x8000 ≤ n ∧ n ≤ 0xFFFF ∧ i.val.length ≤ 0xFFFF)

/-- MAGIC, CRC and LENGTH of a settings block (R666). [DESIGN CHOICE: log entry 110] -/
def settingsWhole (b : Settings) : Bool :=
  b.magic == 0x54534B48 && b.crcOk && b.length == settingsLen b.items && decide (b.length ≤ 65536)

/-- GEN of a copy that can be read; 0 without one. -/
def setGen (c : Option Settings) : Nat := c.elim 0 fun b => if b.crcOk then b.gen else 0

/-- Write a block into the copy with the lower GEN, under the higher GEN plus 1 (R667, R668). -/
def settingsPut (b : Settings) (s : State) : State :=
  let a := setGen s.bld.setA
  let c := setGen s.bld.setB
  let b := { b with gen := max a c + 1 }
  if a ≤ c then { s with bld.setA := some b } else { s with bld.setB := some b }

/-- SETTINGS_WRITE (R668): it takes effect at the next start. [DEDUCED: log entry 108; DESIGN CHOICE: log entry 110] -/
def execSettingsWrite (q tag : Nat) (block : Settings) (s : State) : Res :=
  live s (mgmtRun q tag 0x0052 (fun s =>
    checks q tag
      [(decide (5 ≤ s.bld.fwSt), stTrialOpen), (!settingsWhole block, stInvalidField), (block.setVer != s.bld.setVer, stSetVersion),
       (!block.items.all itemOk, stInvalidField)]
      (fun s => mgmtPost q tag stSuccess 0 (settingsPut block s)) s) s)

end Sys2Proof.Machine
end

