-- ==== Sys2Proof/Machine/Hqe.lean ====
section
/-! DEFINITION. HQE: doorbells, fetching, controllers, tenant budgets, and the admin and Fabrics commands (R107, R141,
R156–R165, R188–R220). -/

namespace Sys2Proof.Machine

/-! Doorbells (R79, R111, R123). -/

/-- An invalid doorbell write: BAD_DB and the event NVMe names (R123, R247). -/
def badDoorbell (c : Ctl) (s : State) : State := postEvent c .invalidDoorbell (note .hqe E.hqeBadDb 0xFF s)

/-- SQ_DOORBELL (R123). -/
def execSqDoorbell (c : Ctl) (qid tail : Nat) (s : State) : Res :=
  live s (when_ (ctlServes c s && (ctlOf c s).en) (fun s =>
    match sqOf c qid s with
    | none => badDoorbell c s
    | some q => if q.size ≤ tail then badDoorbell c s else modSq c qid (fun q => { q with tail := tail }) s) s)

/-- CQ_DOORBELL (R123, R190). -/
def execCqDoorbell (c : Ctl) (qid head : Nat) (s : State) : Res :=
  live s (when_ (ctlServes c s && (ctlOf c s).en) (fun s =>
    match cqOf c qid s with
    | none => badDoorbell c s
    | some q => if q.size ≤ head then badDoorbell c s else modCq c qid (fun q => { q with head := head }) s) s)

/-! Fetching (R111, R120, R127, R138, R190–R192, R197, R198). -/

/-- The queue has an entry to fetch, and its completion queue has room for one more command (R190, R192).
[DESIGN CHOICE: log entry 25] -/
def fetchable (c : Ctl) (q : SubQ) (s : State) : Bool :=
  q.head != q.tail && !q.stopped && q.deleting.isNone &&
  (cqOf c q.cqid s).any fun k => decide (cqUsed k + cqOwed c q.cqid s + 1 < k.size)

/-- The controller takes commands. -/
def ctlOpen (c : Ctl) (s : State) : Bool := ctlServes c s && (ctlOf c s).en && (ctlOf c s).rdy && !(ctlOf c s).cfs

/-- SQ_FETCH: without an entry HQE issues the read of the next one (R112); with it, the entry is taken in.
[DESIGN CHOICE: log entry 25] -/
def execSqFetch (c : Ctl) (qid : Nat) (e : Option Sqe) (s : State) : Res :=
  live s (
    match sqOf c qid s with
    | none => s
    | some q =>
      if !(hqeOpen s && ctlOpen c s && fetchable c q s) then s
      else if throttled (tenantOf c s) s then count .hqe 0x0B 1 s
      else match e with
        | none => match c with
          | .hpe p f => match freeTag p f s with
            | none => s
            | some tag => issueRead p f tag (64 * q.head) 64 0 (.sqFetch qid) s
          | .fab _ => s
        | some e =>
          if heldByWb qid e s || heldByFwd qid e s then s
          else deliver c qid e (modSq c qid (fun q => { q with head := if q.head + 1 = q.size then 0 else q.head + 1 }) s))

/-! Controllers (R107, R141, R194, R216). -/

/-- CC_ENABLE (R107, R141, R189): the function samples its queue limits, and its admin queues are there. -/
def execCcEnable (c : Ctl) (asq acq : Nat) (s : State) : Res :=
  live s (
    match c with
    | .fab _ => s
    | .hpe p f =>
      if !fnServes p f s || (ctlOf c s).en || 4096 < asq || 4096 < acq then s
      else
        let n := if f = 0 then getF (F.hpePfQpQpMax p) s else getF (F.hpeVfQpQpMax p (f - 1)) s
        psEval (addSq c 0 asq 0 0 (addCq c 0 acq 0 true
          (putCtl (newCtl c n 0 0 false true) s))))

/-- CSTS_RDY_SET (R141). -/
def execCstsRdySet (c : Ctl) (s : State) : Res :=
  let k := ctlOf c s
  live s (when_ (k.en && !k.rdy && inService s) (putCtl { k with rdy := true }) s)

/-- SHUTDOWN_NOTIFICATION (R194). -/
def execShutdownNotification (c : Ctl) (s : State) : Res := live s (when_ (ctlServes c s) (shutdownStart c) s)

/-- SHUTDOWN_COMPLETE (R194): every fetched command has completed; Asynchronous Event Requests held do not count.
[DEDUCED: log entry 32] -/
def execShutdownComplete (c : Ctl) (s : State) : Res :=
  let k := ctlOf c s
  live s (when_ (k.shst == .processing && s.hqe.cmds.all fun m => m.ctl != some c || k.aers.contains m.h)
    (putCtl { k with shst := .complete }) s)

/-- CONTROLLER_RESET: CC.EN goes from 1 to 0 (R137, R216). -/
def execControllerReset (c : Ctl) (s : State) : Res :=
  live s (when_ (ctlServes c s && (ctlOf c s).en) (ctlDisable c 0) s)

/-- AGGREGATION_TIME_EXPIRY (R193): the held message is sent. -/
def execAggregationTimeExpiry (c : Ctl) (qid : Nat) (s : State) : Res :=
  live s (
    match cqOf c qid s with
    | none => s
    | some q => if q.held = 0 then s else emit (.msix c q.vector) (modCq c qid (fun q => { q with held := 0 }) s))

/-- QOS_REFILL_TICK (R196). -/
def execQosRefillTick (s : State) : Res := live s (forEach (s.hqe.buckets.map (·.1)) refill s)

/-- POWER_STATE_TRANSITION_DONE (R219, R220). [DEDUCED: log entry 27] -/
def execPowerStateTransitionDone (s : State) : Res :=
  live s (
    match s.hqe.psTo with
    | none => s
    | some l => psEval (setF F.hqePsStatLevel l (flagF F.hqePsStatEntering false (flagF F.hqePsStatExiting false
        { s with hqe.psTo := none }))))

/-! Queues (R192, R204). -/

/-- DELETE_IO_SQ (R192): entries not yet fetched are discarded; it completes with DELETE_SQ_DONE. -/
def execDeleteIoSq (h qid : Nat) (s : State) : Res :=
  live s (adminRun h 0x00 (fun c _ s =>
    cmdChecks h [(qid == 0 || ((sqOf c qid s).all fun q => q.deleting.isSome), .invalidQueueId)]
      (fun s => holdCmd h (modSq c qid (fun q => { q with head := q.tail, deleting := some h }) s)) s) s)

/-- DELETE_SQ_DONE (R192): after the last completion of the queue's fetched commands. -/
def execDeleteSqDone (h : Nat) (s : State) : Res :=
  live s (
    match s.hqe.sqs.find? (fun q => q.deleting == some h) with
    | none => s
    | some q =>
      if s.hqe.cmds.any (fun m => m.ctl == some q.ctl && m.qid == q.qid) then s
      else endCmd h .success { s with hqe.sqs := s.hqe.sqs.filter fun x => x.deleting != some h })

/-- CREATE_IO_SQ (R107, R189, R204). [PRESUMED: log entry 28] -/
def execCreateIoSq (h qid size cqid prio : Nat) (pc : Bool) (s : State) : Res :=
  live s (adminRun h 0x01 (fun c _ s =>
    cmdChecks h
      [(cqid == 0 || (cqOf c cqid s).isNone, .invalidCqId),
       (qid == 0 || (ctlOf c s).qpMax < qid || (sqOf c qid s).isSome, .invalidQueueId),
       (size < 2 || 16384 < size, .invalidQueueSize),
       (!pc, .invalidField)]
      (fun s => endCmd h .success (addSq c qid size cqid prio s)) s) s)

/-- DELETE_IO_CQ (R192). -/
def execDeleteIoCq (h qid : Nat) (s : State) : Res :=
  live s (adminRun h 0x04 (fun c _ s =>
    cmdChecks h
      [(qid == 0 || (cqOf c qid s).isNone, .invalidQueueId),
       (s.hqe.sqs.any fun q => q.ctl == c && q.cqid == qid, .invalidQueueDeletion)]
      (fun s => endCmd h .success { s with hqe.cqs := s.hqe.cqs.filter fun q => !(q.ctl == c && q.qid == qid) }) s) s)

/-- CREATE_IO_CQ (R105, R107, R189, R204). [PRESUMED: log entry 28] -/
def execCreateIoCq (h qid size vector : Nat) (ien pc : Bool) (s : State) : Res :=
  live s (adminRun h 0x05 (fun c _ s =>
    cmdChecks h
      [(qid == 0 || (ctlOf c s).qpMax < qid || (cqOf c qid s).isSome, .invalidQueueId),
       (size < 2 || 16384 < size, .invalidQueueSize),
       ((ctlOf c s).qpMax < vector, .invalidInterruptVector),
       (!pc, .invalidField)]
      (fun s => endCmd h .success (addCq c qid size vector ien s)) s) s)

/-! Logs, data structures, features (R204, R206, R207, R214, R217). -/

/-- GET_LOG_PAGE (R207): reading the Changed Namespace List empties it. [PRESUMED: log entry 28] -/
def execGetLogPage (h lid : Nat) (s : State) : Res :=
  live s (adminRun h 0x02 (fun c _ s =>
    let k := ctlOf c s
    cmdChecks h [(!([0x01, 0x02, 0x03, 0x04, 0x05, 0x0C, 0x80, 0x81].contains lid || (lid == 0x70 && k.disc)), .invalidLogPage)]
      (fun s =>
        let s := if lid = 0x04 then putCtl { k with changed := [] } s else s
        endCmd h .success (emit (.adminData h (0x200 + lid) 0) s)) s) s)

/-- IDENTIFY (R204). -/
def execIdentify (h cns : Nat) (s : State) : Res :=
  live s (adminRun h 0x06 (fun _ _ s =>
    cmdChecks h
      [(!([0x00, 0x01, 0x02, 0x03, 0x05, 0x06, 0x07, 0x08, 0x0C, 0x10, 0x11, 0x12, 0x13].contains cns), .invalidField)]
      (fun s => endCmd h .success (emit (.adminData h (0x100 + cns) 0) s)) s) s)

/-- ABORT (R217): completes successfully with Dword 0 bit 0 set, and touches no command. [PRESUMED: log entry 28] -/
def execAbort (h : Nat) (s : State) : Res :=
  live s (adminRun h 0x08 (fun _ _ s => endCmd h .success (emit (.adminData h 0x400 1) s)) s)

/-- Features supported (R206). [PRESUMED: log entry 28] -/
def featOk (fid : Nat) : Bool :=
  [0x01, 0x02, 0x04, 0x06, 0x07, 0x08, 0x09, 0x0A, 0x0B, 0x0F, 0x81, 0x82, 0x83].contains fid

/-- Set one feature of a controller (R206, R209, R214, R218, R219).
[PRESUMED: log entry 28; DESIGN CHOICE: log entry 33] -/
def setFeat (c : Ctl) (nsid fid value : Nat) (s : State) : State :=
  let k := ctlOf c s
  if fid = 0x02 then
    let p := value % 32
    psEval (putCtl { k with ps := p, lastOp := if p < 2 then p else k.lastOp } s)
  else if fid = 0x06 then putCtl { k with wce := bit value 0 } s
  else if fid = 0x0F then putCtl { k with kato := value } s
  else if fid = 0x09 then putCtl { k with feats := tput k.feats (0x90000 + value % 65536) (b2n (bit value 16)) 0 } s
  else if fid = 0x83 then
    clause (mkClause cSystem 1 nsid 0 0 0) (modNs nsid (fun x => { x with resv.ptpl := bit value 0 }) s)
  else if fid = 0x07 then s
  else putCtl { k with feats := tset k.feats fid value } s

/-- The value Get Features returns. [PRESUMED: log entry 28; DESIGN CHOICE: log entry 33] -/
def getFeat (c : Ctl) (nsid fid : Nat) (s : State) : Nat :=
  let k := ctlOf c s
  if fid = 0x02 then k.ps
  else if fid = 0x06 then b2n k.wce
  else if fid = 0x07 then 65537 * (k.qpMax - 1)
  else if fid = 0x0F then k.kato
  else if fid = 0x83 then (nsOf nsid s).elim 0 fun x => b2n x.resv.ptpl
  else tget k.feats fid 0

/-- SET_FEATURES (R206, R214, R218). [DESIGN CHOICE: log entry 33] -/
def execSetFeatures (h fid value : Nat) (s : State) : Res :=
  live s (adminRun h 0x09 (fun c m s =>
    cmdChecks h
      [(!featOk fid, .invalidField),
       (fid == 0x02 && 2 < value % 32, .invalidField),
       (fid == 0x83 && ((nsOf m.sqe.nsid s).all fun x => x.tenant != tenantOf c s), .invalidNamespace)]
      (fun s =>
        let s := setFeat c m.sqe.nsid fid value s
        endCmd h .success (if fid = 0x07 then emit (.adminData h 0x400 (getFeat c m.sqe.nsid fid s)) s else s)) s) s)

/-- GET_FEATURES (R206). -/
def execGetFeatures (h fid : Nat) (s : State) : Res :=
  live s (adminRun h 0x0A (fun c m s =>
    cmdChecks h [(!featOk fid, .invalidField)]
      (fun s => endCmd h .success (emit (.adminData h (0x300 + fid) (getFeat c m.sqe.nsid fid s)) s)) s) s)

/-- ASYNC_EVENT_REQUEST (R204): completed by a waiting event, or held. -/
def execAsyncEventRequest (h : Nat) (s : State) : Res :=
  live s (adminRun h 0x0C (fun c _ s =>
    let k := ctlOf c s
    cmdChecks h [(decide (16 ≤ k.aers.length), .asyncLimit)]
      (fun s => match k.events with
        | e :: r => endCmd h .success (emit (.asyncEvent c e) (putCtl { k with events := r } s))
        | [] => holdCmd h (putCtl { k with aers := k.aers ++ [h] } s)) s) s)

/-- KEEP_ALIVE (R165): the timer restarts; its expiry is an event of its own. -/
def execKeepAlive (h : Nat) (s : State) : Res := live s (adminRun h 0x18 (fun _ _ s => endCmd h .success s) s)

/-! Fabrics commands (R156, R160–R165, R195). -/

/-- The tenant group a host NQN is bound to (R195). -/
def boundTo (nqn : List Byte) (s : State) : Nat := ((s.hqe.binds.find? fun b => b.1 == nqn).map (·.2)).getD 0

/-- The lowest free fabric controller number (R160). -/
def freeFctl (s : State) : Option Nat :=
  leastFree (s.hqe.ctls.filterMap fun k => match k.id with
    | .fab i => some i
    | .hpe _ _ => none) 4096 0

/-- Bind a connection to a controller and queue, with the queue (R157, R161). [DESIGN CHOICE: log entry 31] -/
def bindConn (conn i qid size : Nat) (s : State) : State :=
  addSq (.fab i) qid size qid 0 (addCq (.fab i) qid size 0 false
    { s with fab.conns := modFirst (fun c => c.id == conn) (fun c => { c with ctl := some i, qid := qid }) s.fab.conns })

/-- FABRIC_CONNECT (R157, R160–R163, R165, R195). [DESIGN CHOICE: log entry 31] -/
def execFabricConnect (conn qid cntlid kato size : Nat) (nqn : List Byte) (disc : Bool) (s : State) : Res :=
  live s (
    match s.fab.conns.find? (fun c => c.id == conn) with
    | none => s
    | some x =>
      let ans := fun (st : NvmeSt) (i : Nat) (s : State) => emit (.connectRsp conn st i) s
      if !x.ready || x.kind == .repl then s
      else if x.ctl.isSome then ans .commandSequenceError 0 s
      else if qid = 0 then
        if size = 0 || 32 < size || (x.kind == .disc && !disc) then ans .connectInvalidParameters 0 s
        else match freeFctl s with
          | none => ans .controllerBusy 0 s
          | some i =>
            if !disc && getF F.toeQpResQpRes s ≤ fabQps s then ans .controllerBusy 0 (note .toe E.toeQpFull 0xFF s)
            else
              ans .success i (bindConn conn i 0 size
                (putCtl (newCtl (.fab i) (if disc then 0 else 64) (boundTo nqn s) kato disc false) s))
      else
        let k := ctlOf (.fab cntlid) s
        if size = 0 || 1024 < size || k.disc || k.qpMax < qid || !k.rdy then ans .connectInvalidParameters 0 s
        else if (sqOf (.fab cntlid) qid s).isSome then ans .commandSequenceError 0 s
        else if getF F.toeQpResQpRes s ≤ fabQps s then ans .controllerBusy 0 (note .toe E.toeQpFull 0xFF s)
        else ans .success cntlid (bindConn conn cntlid qid size s))

/-- A controller property (R141, R157, R189); none for an offset without one. -/
def propOf (k : Controller) (offset : Nat) : Option Nat :=
  if offset = 0x00 then some (1023 + 2 ^ 16 + 2 ^ 17 + 120 * 2 ^ 24 + 2 ^ 37 + 4 * 2 ^ 52)
  else if offset = 0x08 then some 0x00020000
  else if offset = 0x14 then some (b2n k.en)
  else if offset = 0x1C then
    some (b2n k.rdy + 2 * b2n k.cfs + 4 * (match k.shst with | .normal => 0 | .processing => 1 | .complete => 2))
  else none

/-- PROPERTY_GET (R156). -/
def execPropertyGet (h offset : Nat) (s : State) : Res :=
  live s (adminRun h 0x7F (fun c _ s =>
    match propOf (ctlOf c s) offset with
    | none => endCmd h .invalidField s
    | some v => endCmd h .success (emit (.adminData h (0x500 + offset) v) s)) s)

/-- A write of CC (R141, R194, R216). -/
def ccWrite (c : Ctl) (h value : Nat) (s : State) : State :=
  let k := ctlOf c s
  let s := if bits value 15 14 != 0 then shutdownStart c s else s
  if bit value 0 && !k.en then psEval (putCtl { k with en := true, shst := .normal } s)
  else if !bit value 0 && k.en then ctlDisable c h s
  else s

/-- PROPERTY_SET (R156): CC is the only property that can be written. [DEDUCED: log entry 30] -/
def execPropertySet (h offset value : Nat) (s : State) : Res :=
  live s (adminRun h 0x7F (fun c _ s =>
    if offset = 0x14 then endCmd h .success (ccWrite c h value s) else endCmd h .invalidField s) s)

end Sys2Proof.Machine
end

