-- ==== Sys2Proof/Machine/Io.lean ====
section
/-! DEFINITION. The I/O commands (R22–R32, R205–R215, R431). -/

namespace Sys2Proof.Machine

/-! Data (R22, R29, R205, R210, R211, R431). -/

/-- WRITE (R22, R23, R117, R211, R214, R253): `data` is what the host's buffers hold. It waits while its units have no
free slots, an earlier write of one is landing, or a cut needs the version its slot holds (R527, R548). -/
def execWrite (h : Nat) (data : List Byte) (s : State) : Res :=
  live s (ioRun h 0x01 { range := true, resv := some true, cap := true, key := true } (fun c x s =>
    let us := unitsIn (byteStart c s) (byteLen c s)
    if !bufsOk c || c.sqe.len != byteLen c s then endCmd h .invalidField s
    else if data.length != c.sqe.len then s
    else if freeSlots s < us.length then
      if s.hqe.wbHold then s else note .stg E.stgWbFull 0xFF { s with hqe.wbHold := true }
    else if landingIn x.nsid us s || cutHeld x.nsid us.contains s then s
    else
      let durable := c.sqe.fua || c.ctl.any fun k => !(ctlOf k s).wce
      let s := fetchData c (takeRange c x (byteStart c s) data durable (syncBegin h x.nsid (begin_ h s)))
      settle h s) s)

/-- READ (R29, R31, R292). -/
def execRead (h : Nat) (s : State) : Res :=
  live s (ioRun h 0x02 { range := true, resv := some false, cap := false, key := false } (fun c _ s =>
    settle h (startReads c (begin_ h s))) s)

/-- COMPARE (R205): the data comes from the host as a write's does. -/
def execCompare (h : Nat) (data : List Byte) (s : State) : Res :=
  live s (ioRun h 0x05 { range := true, resv := some false, cap := false, key := false } (fun c _ s =>
    if !bufsOk c || c.sqe.len != byteLen c s then endCmd h .invalidField s
    else if data.length != c.sqe.len then s
    else
      let s := modCmd h (fun c => { c with cmp := data }) (begin_ h s)
      let c := { c with cmp := data }
      settle h (startReads c (fetchData c s))) s)

/-- WRITE_ZEROES (R210, R226, R431). -/
def execWriteZeroes (h : Nat) (s : State) : Res :=
  live s (ioRun h 0x08 { range := true, resv := some true, cap := false, key := true } (fun c x s =>
    if (s.ftu.admitStop && !c.sqe.deac) || s.par.blocked.contains x.layout then endCmd h .capacityExceeded s
    else unmapCmd c x [(byteStart c s, byteLen c s)] s) s)

/-- DATASET_MANAGEMENT (R205, R210, R431): without Deallocate it changes nothing. [DEDUCED: log entry 45] -/
def execDatasetManagement (h : Nat) (s : State) : Res :=
  live s (ioRun h 0x09 { range := false, resv := some true, cap := false, key := false } (fun c x s =>
    if 256 < c.sqe.ranges.length then endCmd h .invalidField s
    else if !c.sqe.deac then endCmd h .success s
    else if c.sqe.ranges.any fun r => decide (x.nsze < r.1 + r.2) then endCmd h .lbaOutOfRange s
    else
      let lb := lbSize x.nsid s
      unmapCmd c x (c.sqe.ranges.map fun r => (r.1 * lb, r.2 * lb)) s) s)

/-- VERIFY (R205): reads and decodes, transfers nothing. -/
def execVerify (h : Nat) (s : State) : Res :=
  live s (ioRun h 0x0C { range := true, resv := some false, cap := false, key := false } (fun c _ s =>
    settle h (startReads c (begin_ h s))) s)

/-! Flush (R28, R213). -/

/-- Send the peer's part of a split Flush (R28). [DESIGN CHOICE: log entry 44; DEDUCED: log entry 80] -/
def forwardPart (h : Nat) (s : State) : State := forwardSend h (modCmd h (fun c => { c with waitPart := c.waitPart + 1 }) s)

/-- A Flush of every namespace attached to its controller: those owned here, and one Flush for those of the peer (R28,
R213); one that the peer forwarded covers those owned here. [DEDUCED: log entry 42] -/
def flushAll (h : Nat) (c : Cmd) (s : State) : State :=
  let att := s.hqe.ns.filter fun x => c.ctl.all fun k => tenantOf k s == x.tenant
  let mine := att.filter fun x => ownsNs x s
  let peers := c.ctl.isSome && att.any fun x => !ownsNs x s
  if peers && !canForward s then endCmd h .anaInaccessible s
  else
    let s := forEach mine (fun x t => syncSend h (flushNs c x.nsid (syncBegin h x.nsid t))) (begin_ h s)
    durCheck (if peers then forwardPart h s else s)

/-- FLUSH (R28, R213). [DEDUCED: log entry 42] -/
def execFlush (h : Nat) (s : State) : Res :=
  live s (
    match ioReady h 0x00 s with
    | none => s
    | some c =>
      if c.sqe.nsid = 0xFFFFFFFF then
        if sanActive s then endCmd h .sanitizeInProgress s
        else if s.hqe.sanFail.isSome then endCmd h .sanitizeFailed s
        else flushAll h c s
      else ioRun h 0x00 { range := false, resv := some true, cap := false, key := false }
        (fun c x s => durCheck (syncSend h (flushNs c x.nsid (syncBegin h x.nsid (begin_ h s))))) s)

/-! Reservations (R205, R209). -/

/-- Change a namespace's reservation, journalled with a new generation (R209, R406). -/
def putResv (n : Nat) (r : Resv) (s : State) : State :=
  clause (mkClause cSystem 2 n 0 0 0) (modNs n (fun x => { x with resv := r }) s)

/-- Tell the other registrants' controllers of a change, unless they mask it (R206). -/
def resvNotify (x : Namespace) (own : Nat) (hosts : List Nat) (s : State) : State :=
  forEach (s.hqe.ctls.filter fun k => k.en && tenantOf k.id s == x.tenant && tget k.feats 0x82 0 == 0)
    (fun k t =>
      let v := tget k.feats 0x81 0
      let host := if v = 0 then 2 ^ 128 + ctlNum k.id else v
      if host != own && hosts.contains host then postEvent k.id .reservation t else t) s

/-- The registered key of a host. -/
def keyOf (r : Resv) (h : Nat) : Option Nat := (r.regs.find? fun p => p.1 == h).map (·.2)

def resvNeed : Need := { range := false, resv := none, cap := false, key := false }

/-- RESERVATION_REGISTER (R209): action 0 registers, 1 unregisters, 2 replaces a key. -/
def execReservationRegister (h action key newKey : Nat) (ignoreKey : Bool) (ptpl : Option Bool) (s : State) : Res :=
  live s (ioRun h 0x0D resvNeed (fun c x s =>
    let who := hostOf c s
    let r := x.resv
    let ok := ignoreKey || keyOf r who == some key
    let pt := fun (r : Resv) => { r with gen := r.gen + 1, ptpl := ptpl.getD r.ptpl }
    if action = 0 then
      if isReg r who && keyOf r who != some newKey then endCmd h .reservationConflict s
      else endCmd h .success (putResv x.nsid (pt { r with regs := r.regs.filter (fun p => p.1 != who) ++ [(who, newKey)] }) s)
    else if action = 1 then
      if !isReg r who || !ok then endCmd h .reservationConflict s
      else
        let regs := r.regs.filter fun p => p.1 != who
        let free := if 5 ≤ r.rtype then regs.isEmpty else r.holder == some who
        let r' := pt { r with regs := regs, holder := if free then none else r.holder, rtype := if free then 0 else r.rtype }
        let s := putResv x.nsid r' s
        endCmd h .success (if free then resvNotify x who (regs.map (·.1)) s else s)
    else if action = 2 then
      if (isReg r who && !ok) || (!isReg r who && !ignoreKey) then endCmd h .reservationConflict s
      else endCmd h .success (putResv x.nsid (pt { r with regs := r.regs.filter (fun p => p.1 != who) ++ [(who, newKey)] }) s)
    else endCmd h .invalidField s) s)

/-- RESERVATION_REPORT (R209). -/
def execReservationReport (h : Nat) (s : State) : Res :=
  live s (ioRun h 0x0E resvNeed (fun _ x s => endCmd h .success (emit (.adminData h 0x600 x.resv.gen) s)) s)

/-- RESERVATION_ACQUIRE (R209): action 0 acquires, 1 preempts, 2 preempts and aborts, which touches no command (R217). -/
def execReservationAcquire (h action rtype key preemptKey : Nat) (s : State) : Res :=
  live s (ioRun h 0x11 resvNeed (fun c x s =>
    let who := hostOf c s
    let r := x.resv
    if rtype = 0 || 6 < rtype || 2 < action then endCmd h .invalidField s
    else if keyOf r who != some key then endCmd h .reservationConflict s
    else if action = 0 then
      if r.holder.isSome && !(isHolder r who && r.rtype == rtype) then endCmd h .reservationConflict s
      else endCmd h .success (putResv x.nsid { r with holder := some (r.holder.getD who), rtype := rtype } s)
    else
      let all := 5 ≤ r.rtype && r.holder.isSome && preemptKey = 0
      let lost := r.regs.filter fun p => p.1 != who && (all || p.2 == preemptKey)
      let takes := r.holder.any fun m => all || keyOf r m == some preemptKey
      if lost.isEmpty && !takes then endCmd h .reservationConflict s
      else
        let r' : Resv := { r with regs := r.regs.filter (fun p => !lost.contains p), gen := r.gen + 1,
                                  holder := if takes then some who else r.holder,
                                  rtype := if takes then rtype else r.rtype }
        endCmd h .success (resvNotify x who (lost.map (·.1)) (putResv x.nsid r' s))) s)

/-- RESERVATION_RELEASE (R209): action 0 releases, 1 clears. -/
def execReservationRelease (h action rtype key : Nat) (s : State) : Res :=
  live s (ioRun h 0x15 resvNeed (fun c x s =>
    let who := hostOf c s
    let r := x.resv
    if 1 < action then endCmd h .invalidField s
    else if keyOf r who != some key then endCmd h .reservationConflict s
    else if action = 0 then
      if !isHolder r who then endCmd h .success s
      else if r.rtype != rtype then endCmd h .invalidField s
      else endCmd h .success (resvNotify x who (r.regs.map (·.1)) (putResv x.nsid { r with holder := none, rtype := 0 } s))
    else endCmd h .success (resvNotify x who (r.regs.map (·.1))
      (putResv x.nsid { r with regs := [], holder := none, rtype := 0, gen := r.gen + 1 } s))) s)

end Sys2Proof.Machine
end

