-- ==== Sys2Proof/Machine/Ports.lean ====
section
/-! DEFINITION. Host ports: conventional resets, links, functions, unsupported and poisoned requests, host read
completions and their timeouts (R97–R148). -/

namespace Sys2Proof.Machine

/-! Resets and links (R136–R144). -/

/-- PORT_CONVENTIONAL_RESET (R136, R137, R146): cause 0 PERST# assertion, 1 hot reset, 2 link-down. -/
def execPortConventionalReset (p cause : Nat) (s : State) : Res :=
  live s (
    let s := if cause = 0 then setInt (.hpe p) I.hpePerst (setF (F.hpeLinkStatPerstIn p) 1 s) else s
    let s := if cause = 2 && onF (F.hpeLinkStatUp p) s then note (.hpe p) E.hpeLinkLost 0xFF s else s
    portReset p s)

/-- PERST_DEASSERT (R139): training begins; port 4 is MGE's. -/
def execPerstDeassert (p : Nat) (s : State) : Res :=
  liveMge (p == 4) s (
    if p = 4 then setF F.mgeLinkStatPerstIn 0 s
    else
      let s := setF (F.hpeLinkStatPerstIn p) 0 s
      putPort p { portOf p s with training := !onF (F.hpeLinkCtrlHoldDetect p) s } s)

/-- The highest width that both ends support. [DESIGN CHOICE: log entry 23] -/
def widthOf (limit partner : Nat) : Nat := min limit partner

/-- MGE's link reaches DL_Active (R98, R148). [DESIGN CHOICE: log entry 23] -/
def mgeLinkUp (speed width : Nat) (s : State) : State :=
  if onF F.mgeLinkStatPerstIn s || onF F.mgeLinkStatUp s || blockDown .mge s then s
  else
    setInt .mge I.mgeLinkUp
      (setF F.mgeLinkStatSpeed (min (getF F.mgeLinkCtrlMaxSpeed s) speed)
        (setF F.mgeLinkStatWidth (widthOf (getF F.mgeLinkCtrlMaxWidth s) width) (setF F.mgeLinkStatUp 1 s)))

/-- HPE_LINK_UP (R97, R139, R144): `speed`, `width` and `flit` are what the partner supports; port 4 is MGE's link.
[DESIGN CHOICE: log entry 23] -/
def execHpeLinkUp (p speed width : Nat) (flit : Bool) (s : State) : Res :=
  liveMge (p == 4) s (
    if !(1 ≤ speed && speed ≤ 6) || !([1, 2, 4, 8].contains width) then s
    else if p = 4 then mgeLinkUp speed width s
    else if onF (F.hpeLinkStatPerstIn p) s || onF (F.hpeLinkCtrlHoldDetect p) s || blockDown (.hpe p) s ||
        (onF (F.hpeLinkStatUp p) s && !(portOf p s).training) then s
    else
      let s := setF (F.hpeLinkStatSpeed p) (min (getF (F.hpeLinkCtrlMaxSpeed p) s) speed) s
      let s := setF (F.hpeLinkStatWidth p) (widthOf (getF (F.hpeLinkCtrlMaxWidth p) s) width) s
      let s := putPort p { portOf p s with training := false } (flagF (F.hpeLinkStatFlit p) flit s)
      if onF (F.hpeLinkStatUp p) s then s
      else setInt (.hpe p) I.hpeLinkUp (setF (F.hpeLinkStatUp p) 1 s))

/-- Speed and width drop to their active limits while a link trains anew; what it reaches comes with the next link-up
event. -/
def retrainTo (up sp wd maxS maxW : Fld) (s : State) : State :=
  if onF up s then setF sp (min (getF sp s) (getF maxS s)) (setF wd (min (getF wd s) (getF maxW s)) s) else s

/-- LINK_RETRAIN: RETRAIN = 1 in the link control register of an HPE, MGE, a module port or a Troys link (R60, R139). -/
def execLinkRetrain (b : Block) (s : State) : Res :=
  live s (regWrite b (fun s =>
    match b with
    | .hpe p =>
      let s := retrainTo (F.hpeLinkStatUp p) (F.hpeLinkStatSpeed p) (F.hpeLinkStatWidth p) (F.hpeLinkCtrlMaxSpeed p)
        (F.hpeLinkCtrlMaxWidth p) s
      if onF (F.hpeLinkStatUp p) s then putPort p { portOf p s with training := true } s
      else s
    | .mge => retrainTo F.mgeLinkStatUp F.mgeLinkStatSpeed F.mgeLinkStatWidth F.mgeLinkCtrlMaxSpeed
        F.mgeLinkCtrlMaxWidth s
    | .mpt m => retrainTo (F.mptLinkStatUp m) (F.mptLinkStatSpeed m) (F.mptLinkStatWidth m) (F.mptLinkCtrlMaxSpeed m)
        (F.mptLinkStatWidth m) s
    | .tl n => retrainTo (F.tlLinkStatUp n) (F.tlLinkStatSpeed n) (F.tlLinkStatWidth n) (F.tlLinkCtrlMaxSpeed n)
        (F.tlLinkCtrlMaxWidth n) s
    | _ => s) s)

/-- PORT_HOLD_DETECT (R60, R144): held, the port's transmitters go idle, so its link is lost and the port resets; freed,
it trains again. -/
def execPortHoldDetect (p : Nat) (hold : Bool) (s : State) : Res :=
  live s (regWrite (.hpe p) (fun s =>
    let s := flagF (F.hpeLinkCtrlHoldDetect p) hold s
    if hold then
      if onF (F.hpeLinkStatUp p) s then portReset p (note (.hpe p) E.hpeLinkLost 0xFF s) else s
    else if onF (F.hpeLinkStatUp p) s || onF (F.hpeLinkStatPerstIn p) s then s
    else putPort p { portOf p s with training := true } s) s)

/-- MGE_CONVENTIONAL_RESET (R82, R142). -/
def execMgeConventionalReset (s : State) : Res := liveMge true s (mgeReset s)

/-! Functions (R111, R137, R138, R146). -/

/-- Reset one function with its configuration settings (R137). -/
def flrFn (p f : Nat) (s : State) : State :=
  let s := resetFn p f s
  { s with ports.fns := terase s.ports.fns (p * 512 + f) }

/-- FLR (R131, R137, R138, R146). [DEDUCED: log entry 24] -/
def execFlr (p f : Nat) (s : State) : Res :=
  live s (when_ (fnPresent p f s && !(portOf p s).flr.contains f)
    (fun s =>
      let s := flrFn p f (setInt (.hpe p) I.hpeFlr s)
      putPort p { portOf p s with flr := (portOf p s).flr ++ [f] } s) s)

/-- FLR_COMPLETE (R138). -/
def execFlrComplete (p f : Nat) (s : State) : Res :=
  live s (when_ ((portOf p s).flr.contains f)
    (fun s => putPort p { portOf p s with flr := (portOf p s).flr.filter (· != f) } s) s)

/-- VF_ENABLE_CHANGE (R104, R137, R146): a number above TotalVFs, or a new number while VF Enable is set, is not taken.
[DEDUCED: log entry 24] -/
def execVfEnableChange (p numVfs : Nat) (enable : Bool) (s : State) : Res :=
  let n := getF (F.hpeSriovNumVfs p) s
  let on := onF (F.hpeSriovVfEnabled p) s
  live s (when_ (numVfs ≤ (portOf p s).totalVfs && !(on && enable && numVfs != n) && !(n == numVfs && on == enable))
    (fun s =>
      let s := if on && !enable then forEach (List.range n) (fun k t => flrFn p (k + 1) t) s else s
      setInt (.hpe p) I.hpeVfChange
        (flagF (F.hpeSriovVfEnabled p) enable (setF (F.hpeSriovNumVfs p) numVfs s))) s)

/-- VF_BLOCK (R60, R111). -/
def execVfBlock (p f : Nat) (block : Bool) (s : State) : Res :=
  live s (when_ (f != 0) (regWrite (.hpe p) (flagF (F.hpeVfQpBlock p (f - 1)) block)) s)

/-- A configuration write (R112, R113, R115, R122, R130); values that the register does not offer are not taken (R100).
[DEDUCED: log entry 24] -/
def cfgWrite (p f : Nat) (r : CfgReg) (v : Nat) (s : State) : State :=
  let c := fnCfg p f s
  let d := match r with
    | .maxRead => if [128, 256, 512, 1024, 2048, 4096].contains v then { c with maxRead := v } else c
    | .maxPayload => if [128, 256, 512].contains v then { c with maxPayload := v } else c
    | .tagBits => if v = 8 || v = 10 || (v = 14 && onF (F.hpeLinkStatFlit p) s) then { c with tagBits := v } else c
    | .ctoDisable => { c with ctoDisable := v != 0 }
    | .memEnable => { c with memEnable := v != 0 }
  { s with ports.fns := tset s.ports.fns (p * 512 + f) d }

/-- CONFIG_REQUEST (R122, R138, R140): Request Retry Status before the Head Identity Record is latched and during an
FLR. -/
def execConfigRequest (p f : Nat) (wr : Option (CfgReg × Nat)) (s : State) : Res :=
  live s (when_ (onF (F.hpeLinkStatUp p) s) (fun s =>
    let s := count (.hpe p) 0x02 1 (count (.hpe p) 0x01 1 s)
    if s.bld.hir.isNone || (portOf p s).flr.contains f then emit (.pcieRrs p) s
    else if !fnPresent p f s then urEffect (.hpe p) false s
    else match wr with
      | none => emit (.pcieCfg p f) s
      | some (r, v) => emit (.pcieCfg p f) (cfgWrite p f r v s)) s)

/-- The block is a PCIe endpoint. -/
def isEndpoint (b : Block) : Bool :=
  match b with
  | .hpe _ | .mge => true
  | _ => false

/-- UNSUPPORTED_REQUEST (R122): vendor-defined message type 1 is discarded without error. -/
def execUnsupportedRequest (b : Block) (posted vdm1 : Bool) (s : State) : Res :=
  liveMge (b == .mge) s (when_ (isEndpoint b) (fun s =>
    let s := count b 0x01 1 s
    if vdm1 then s else urEffect b posted s) s)

/-- POISONED_WRITE_RX (R124): a poisoned write, or a malformed TLP, flow-control or ECRC error; the TLP is discarded. -/
def execPoisonedWriteRx (b : Block) (poisoned : Bool) (s : State) : Res :=
  liveMge (b == .mge) s (when_ (isEndpoint b) (fun s =>
    let n := if poisoned then E.hpePoisonRx else E.hpeBadTlp
    note b n 0xFF (emit (.aer b n) (count b 0x01 1 s))) s)

/-! Read completions (R114, R116, R126–R131). -/

/-- HOST_READ_COMPLETION (R114, R116, R126, R129, R131), by the standing of its tag; a completion without an entry is an
Unexpected Completion too. -/
def execHostReadCompletion (p f tag bytes : Nat) (bad poisoned : Bool) (s : State) : Res :=
  live s (
    let s := count (.hpe p) 0x01 1 s
    let unexpected := fun (s : State) =>
      note (.hpe p) E.hpeUnexpCpl 0xFF (count (.hpe p) 0x07 1 (emit (.aer (.hpe p) E.hpeUnexpCpl) s))
    match readOf p f tag s with
    | none => unexpected s
    | some r =>
      let n := min bytes (r.len - r.got)
      let whole := r.len ≤ r.got + n
      match r.st with
      | .quarantined => lateCpl (8 + p) r (unexpected s)
      | .cancelled => issueAll (if whole || bad then dropRead p f tag s else modRead p f tag (fun r => { r with got := r.got + n }) s)
      | .resetCancelled =>
        issueAll (lateCpl 63 r
          (if whole || bad then dropRead p f tag s else modRead p f tag (fun r => { r with got := r.got + n }) s))
      | .live =>
        if bad || poisoned then
          let s := if poisoned then note (.hpe p) E.hpePoisonRx 0xFF s else s
          issueAll (readFailed r (dropRead p f tag s))
        else
          let s := count (.hpe p) 0x04 n s
          let s := if whole then dropRead p f tag s else modRead p f tag (fun r => { r with got := r.got + n }) s
          match r.kind with
          | .sqFetch _ => issueAll s
          | .data h => dataArrived h n (issueAll s))

/-- COMPLETION_TIMEOUT (R125–R128, R130); the tag of a request cancelled before is only freed.
[DEDUCED: log entry 21] -/
def execCompletionTimeout (p f tag : Nat) (s : State) : Res :=
  live s (
    match readOf p f tag s with
    | none => s
    | some r =>
      match r.st with
      | .quarantined => s
      | .cancelled | .resetCancelled => issueAll (dropRead p f tag s)
      | .live =>
        if (fnCfg p f s).ctoDisable then s
        else
          let s := modRead p f tag (fun r => { r with st := .quarantined }) s
          let s := note (.hpe p) E.hpeCplTimeout 0xFF (count (.hpe p) 0x06 1 (emit (.aer (.hpe p) E.hpeCplTimeout) s))
          issueAll (readFailed r s))

/-- TAG_QUARANTINE_END (R128). [DEDUCED: log entry 21] -/
def execTagQuarantineEnd (p f tag : Nat) (s : State) : Res :=
  live s (
    match readOf p f tag s with
    | none => s
    | some r => if r.st = .quarantined then issueAll (dropRead p f tag s) else s)

end Sys2Proof.Machine
end

