-- ==== Sys2Proof/Machine/Start.lean ====
section
/-! DEFINITION. Start-up: its stages, the role decision, adoption, and where the write buffer comes from (R381, R412, R584, R638–R644,
R661, R667, R694). -/

namespace Sys2Proof.Machine

/-- Start-up stops (R642). [DESIGN CHOICE: log entry 106; DEDUCED: log entry 111] -/
def startFail (n : Nat) (s : State) : State := raise .bld E.bldStartFail 0xFF (setF F.bldStatStage 31 (setF F.bldStatFail n s))

/-! Stage 1: boot ROM, loader, Head Identity Record (R381, R382, R640–R642, R661). -/

/-- The images of a KIND that are read in turn: in a failed trial of that KIND the reserve copy alone (R661, R664).
[DEDUCED: log entry 113] -/
def candidates (kind : Nat) (s : State) : List FwImage :=
  if s.bld.fwSt = 6 && stagedKind s = kind then [reserveImage kind s] else [slotImage kind s, reserveImage kind s]

/-- The images read: up to the first that passes. -/
def imagesRead (kind : Nat) (s : State) : List FwImage :=
  let l := candidates kind s
  (l.takeWhile fun i => !passes kind i s) ++ (l.find? fun i => passes kind i s).toList

/-- Measure images into a register (R378, R381). [DEDUCED: log entry 111] -/
def measure (source mr event : Nat) (l : List FwImage) (s : State) : State :=
  forEach l (fun i t => mrTry source mr event (Config.sha384 (i.bytes.drop 512)) t) s

/-- The record's 256 bytes (R640). -/
def hirBytes (h : Hir) : List Byte :=
  toBytes 4 h.magic ++ toBytes 2 h.version ++ toBytes 1 h.head ++ toBytes 1 h.flags ++ toBytes 8 h.dsn ++ (h.board ++ zeros 32).take 32 ++
  toBytes 2 h.ssvid ++ toBytes 2 h.ssid ++ toBytes 6 h.macBase ++ toBytes 2 h.portUse ++ toBytes 2 h.dimmGib ++ toBytes 2 h.vaultGib ++
  zeros 188 ++ toBytes 4 h.crc

/-- The case of R642 that a record gives. [DEDUCED: log entry 111] -/
def hirFault (h : Hir) (s : State) : Option Nat :=
  if !h.readable || h.magic != 0x49484B48 || h.version != 1 || !crcAt (hirBytes h) 256 then some 2
  else if h.head != s.pins.headSel then some 3
  else if h.dsn != s.bld.dsn then some 4
  else if h.flags % 2 = 0 then some 7
  else none

/-- The record is latched: the fabric ports take their addresses (R640). [DEDUCED: log entry 111] -/
def hirLatch (h : Hir) (s : State) : State :=
  forEach (List.range 4) (fun n t =>
    let a := (h.macBase + n) % 2 ^ 48
    loadF (F.fabMacLoMac n) (a % 2 ^ 32) (loadF (F.fabMacHiMac n) (a / 2 ^ 32) t)) { s with bld.hir := some h }

/-- SEC's self-tests, and the boot flash as SFDP shows it: mode and clock are what is fitted, free values (R382, R641).
[DESIGN CHOICE: log entry 10; DEDUCED: log entry 111] -/
def selfTests (s : State) : State :=
  let s := flagF F.secStatDevkeyOk s.sec.devKey (flagF F.cryWrapDevkeyOk s.sec.devKey (flagF F.secStatAttkeyOk s.sec.attKey s))
  let a := drawNat (flagF F.secStatJtagLocked (!s.bld.jtagOk) s)
  let b := drawNat a.2
  setF F.bldSpiMode (a.1 % 4) (setF F.bldSpiMhz (b.1 % 201) b.2)

/-- Stage 1 ends. [DEDUCED: log entry 105] -/
def stage1 (fail : Nat) (hir : Hir) (s : State) : State :=
  let s := trialStart (selfTests s)
  let l := imagesRead 1 s
  let s := measure 0 1 0x0002 l s
  match l.find? fun i => passes 1 i s with
  | none => startFail 1 s
  | some i =>
    let s := setF F.bldFwLdrLdrVer i.version s
    if fail = 1 then startFail 1 s
    else match hirFault hir s with
    | some 2 => startFail 2 s
    | some n => startFail n (hirLatch hir s)
    | none => setF F.bldStatStage 2 (hirLatch hir s)

/-! Stage 2: microcode and settings (R381, R661, R664, R666, R667, R697). -/

/-- A settings block as bytes; its CRC is taken with the field as zero (R666). -/
def settingsBytes (b : Settings) : List Byte :=
  let head := toBytes 4 b.magic ++ toBytes 2 b.setVer ++ zeros 2 ++ toBytes 4 b.gen ++ toBytes 4 b.length ++ zeros 44
  let items := b.items.flatMap fun i => toBytes 2 i.id ++ toBytes 2 i.val.length ++ i.val ++ zeros ((4 - i.val.length % 4) % 4)
  head ++ toBytes 4 (crc32c (head ++ zeros 4 ++ items)) ++ items

/-- A copy that the microcode can use or migrate (R667). -/
def settingsFit (lo hi : Nat) (c : Option Settings) : Option Settings := c.bind fun b => if settingsWhole b && decide (lo ≤ b.setVer ∧ b.setVer ≤ hi) then some b else none

/-- Items that the running format defines, and those of the array OS (R667). [DESIGN CHOICE: log entry 110] -/
def migrated (hi : Nat) (b : Settings) : Settings :=
  let l := b.items.filter fun i => decide (0x8000 ≤ i.id) || [1, 2, 3].contains i.id
  { b with setVer := hi, gen := b.gen + 1, items := l, length := settingsLen l }

/-- The settings block of this start; a migrated one is written into the other copy (R667). -/
def settingsChoose (lo hi : Nat) (s : State) : Option Settings × State :=
  let a := settingsFit lo hi s.bld.setA
  let c := settingsFit lo hi s.bld.setB
  let fromA := match a, c with
    | some x, some y => decide (y.gen ≤ x.gen)
    | some _, none => true
    | _, _ => false
  match if fromA then a else c with
  | none => (none, s)
  | some b =>
    if b.setVer = hi then (some b, s)
    else
      let m := migrated hi b
      (some m, setF F.bldSetFromVer b.setVer (if fromA then { s with bld.setB := some m } else { s with bld.setA := some m }))

/-- An item's value, or its default (R666). -/
def item (b : Option Settings) (id dflt : Nat) : Nat :=
  ((b.bind fun x => x.items.find? fun i => i.id == id).map fun i => ofBytes i.val).getD dflt

/-- The settings take effect (R275, R666, R667); without a block EVR records EVENT_DETAIL. -/
def settingsApply (hi : Nat) (b : Option Settings) (s : State) : State :=
  let s := setF F.bldCfgWaitS (item b 1 10) (setF F.bldSetSetVer hi { s with bld.running := b })
  let s := loadF F.fptCfgBktLog2 (item b 2 24) (loadF F.ftuMapBudgetBudgetGib (item b 3 0) s)
  match b with
  | some x => mrTry 1 3 0x0004 (Config.sha384 (settingsBytes x)) s
  | none => evrEvent (mkRec 0x0220 0 4 0 0xFF 0 1 0) s

/-- The loader measures the microcode, migrates the settings, measures both and the Head Identity Record, and starts the microcode, which
places the Ephemeris's windows and holds unused ports absent (R144, R381, R697). With no microcode that passes, start-up goes no further.
[DEDUCED: log entry 105; DESIGN CHOICE: log entry 106] -/
def stage2 (s : State) : State :=
  let l := imagesRead 2 s
  match l.find? fun i => passes 2 i s with
  | none => s
  | some i =>
    let s := measure 1 2 0x0003 l s
    let s := { setF F.bldFwVerUcodeVer i.version s with bld.ucode := i.version, bld.peerMin := i.peerMin, bld.peerMax := i.peerMax, bld.setVer := i.setVer }
    let c := settingsChoose i.setMin i.setVer s
    let s := settingsApply i.setVer c.1 c.2
    let s := match s.bld.hir with
      | some h => mrTry 1 4 0x0005 (Config.sha384 (hirBytes h)) s
      | none => s
    let s := setInt .sec I.secBootDone (setF F.secStatBootDone 1 s)
    let use := s.bld.hir.elim 0 (·.portUse)
    let s := forEach ((List.range 4).filter fun n => !bit use n) (fun n t => setF (F.hpeLinkCtrlHoldDetect n) 1 t) s
    setF F.bldStatStage 3 (placeWindows s)

/-! The source of the write buffer, and fences (R410, R584, R637, R638, R643). -/

/-- A RETAIN record after a warm reset, else the newest vault image, with its number of BLD_STAT.IMAGE_SRC (R638).
[DEDUCED: log entry 97] -/
def sourceOf (s : State) : Option (Nat × ImageHdr) :=
  if afterWarm s && retainValid s then s.bld.retain.map fun r => (1, r) else (newestImage s).map fun v => (2, v)

/-- Modules admitted. [DEDUCED: log entry 97] -/
def admitted (s : State) : List Nat := (s.mods.mir.map (·.1)).filter fun m => onF (F.mptModStatAdmitted m) s

/-- The fence generation that the source records for a module, or without a source the checkpoint root (R643). -/
def fenceRecorded (m : Nat) (s : State) : Nat :=
  let l := match sourceOf s with
    | some (_, h) => h.fence
    | none => s.ftu.root.elim [] (·.fence)
  ((l.find? fun p => p.1 == m).elim 0 (·.2)) % 2 ^ 31

/-- Some module's GEN is above the one recorded; the peer's port made it, where `peerOnly` says so (R643, R644).
[DEDUCED: log entry 112] -/
def fenceAbove (peerOnly : Bool) (s : State) : Bool :=
  (admitted s).any fun m => decide (fenceRecorded m s < getF (F.mptFenceGen m) s) &&
    (!peerOnly || getF (F.mptFenceHolder m) s != s.pins.headSel % 2)

/-- Every source is discarded without restoring it (R584). [DEDUCED: log entry 113] -/
def discardSource (s : State) : State :=
  let had := (sourceOf s).isSome
  let s := { s with bld.retain := none, bld.vault := s.bld.vault.map fun v => { v with ok := false }, bld.imgOwn := [], bld.imgMir := [] }
  if had then note .bld E.bldImageDiscarded 0xFF s else s

/-- The peer has taken over what this head owned (R584, R643): groups, objects, bands and extents are the peer's, its journal and open
stripes are adopted there. [DEDUCED: log entry 112] -/
def forfeit (s : State) : State :=
  let gs := (s.hqe.groups.filter (·.mine)).map (·.id)
  let s := leaveObjects gs (forEach gs (fun g t => setGroup g false false t) s)
  let ext := s.mods.mir.flatMap fun p => (List.range ((blockCount p.2 + 255) / 256)).map fun e => 65536 * p.1 + e
  { s with ftu.bands := s.ftu.bands.map (fun b => { b with mine := false }), ftu.extents := ext.foldl (fun t k => tset t k false) s.ftu.extents,
           ftu.eblk := s.ftu.eblk.map fun p => if p.2.st = 0 then (p.1, { p.2 with st := 5 }) else p,
           par.stripes := [], ftu.pages := s.ftu.pages.map (fun p => { p with dirty := false }), pair.peerJ := [], pair.mirMem := [], pair.copied := [] }

/-! The role (R643, R644). -/

/-- The head takes a role: 1 joined, 2 alone, 3 standby (R641, R643, R694). [DEDUCED: log entry 112] -/
def takeRole (n : Nat) (s : State) : State :=
  let s := { s with pair.role := if n = 1 then .serving else if n = 2 then .alone else .standby }
  let s := setF F.bldStatRole n (setF F.bldTimesRoleT (s.now / 10000000) s)
  let s := setF F.mirCtrlMirrorEn 1 (setF F.mirCtrlFwdEn 1 (setF F.mirCtrlEclEn 1 (setF F.ocuCtrlCmpEn 1 s)))
  setInt .bld I.bldRoleDone s

/-- The fence of R644 on every reachable module: WON, or LOST on one of them (R580, R644). [DEDUCED: log entry 112] -/
def adoptFence (won : Bool) (s : State) : State :=
  if !won then fencedOut s
  else
    let s := forEach (admitted s) (fun m t => if onF (F.mptLinkStatUp m) t then
        fenceResult m 1 (fenceShow m ((getF (F.mptFenceGen m) t + 1) % 2 ^ 31 + 2 ^ 31 * (t.pins.headSel % 2)) t)
      else fenceUnreachable m t) s
    { s with bld.adopt := true }

/-- A head starting alone adopts the peer's groups when R644 holds. [DEDUCED: log entry 112] -/
def adoptTry (changed won : Bool) (s : State) : State :=
  if s.hqe.groups.all (·.mine) then s
  else if ((sourceOf s).any fun h => h.2.mirrorLive) && !fenceAbove false s && !(s.pins.headSel % 2 == 1 && changed) then adoptFence won s
  else note .bld E.bldAdoptAbandoned 0xFF s

/-- WAIT is over: WAIT_S seconds, and 1 s more on head 1 (R641). [DEDUCED: log entry 112] -/
def waited (s : State) : Bool := decide (1000000000 * (getF F.bldCfgWaitS s + s.pins.headSel % 2) ≤ s.now - s.bld.stageAt)

/-- ROLE_DECISION (R576, R580, R584, R641, R643, R644, R694): `fences` are readings of YM_FENCE in stage 7, `casWon` says whether every
reachable module answers the fence of R644 with WON. The first role whose condition holds. [DEDUCED: log entry 112] -/
def execRoleDecision (fences : List (Nat × Nat)) (casWon : Bool) (s : State) : Res :=
  live s (
    if getF F.bldStatStage s != 7 || getF F.bldStatRole s != 0 then s
    else
      let fs := fences.filter fun f => (admitted s).contains f.1
      let changed := fs.any fun f => fenceWord f.1 s != f.2 % 2 ^ 32
      let s := forEach fs (fun f t => fenceShow f.1 f.2 t) s
      let beats := onF F.hbuStatRxOk s
      let peer := getF F.hbuStatPeerState s
      if getF F.mirJoinCause s != 0 then s
      else if fenceAbove true s then takeRole 3 (forfeit (discardSource s))
      else if troysUp s && s.pair.joined && beats && peer == 2 then takeRole (if s.hqe.groups.any (·.mine) then 1 else 3) s
      else if troysUp s && s.pair.joined && beats && [1, 3, 6].contains peer then takeRole 1 s
      else if troysUp s then s
      else if beats then
        if waited s then takeRole 2 (note .mir E.mirSevered 0xFF (setF F.mirPairStatSevered 1 s)) else s
      else if waited s || (!s.pins.peerPresent && (s.pins.headSel % 2 == 0 || s.hqe.groups.all (·.mine))) then adoptTry changed casWon (takeRole 2 s)
      else s)

/-! The write buffer (R251, R412, R638). -/

/-- Some clause of the journal is in no copy: not spilled, and at or above LOW_CSEQ (R412). [DEDUCED: log entry 113] -/
def clauseLost (s : State) : Bool :=
  let low := s.ftu.root.elim 0 (·.low)
  s.ftu.jrnl.any fun j => decide (low ≤ j.cseq) && j.clause.typ != cCkpt &&
    !(s.ftu.blocks.any fun b => b.spilled && decide (b.first ≤ j.cseq ∧ j.cseq ≤ b.last))

/-- A slot of a source as the own half takes it: a write that had not filled it is undone, a unit whose clause is journalled is done, any
other destages again (R251, R449). [DEDUCED: log entry 113] -/
def slotRestored (x : Slot) (s : State) : Option Slot :=
  let done := s.ftu.jrnl.any fun j => j.clause.nsid == x.nsid && decide (1 ≤ j.clause.typ ∧ j.clause.typ ≤ 2) && j.clause.p2 == x.seq &&
    decide (j.clause.p0 ≤ x.unit ∧ x.unit < j.clause.p0 + 4)
  if x.replaced || x.st == .landing || x.st == .releasing || (x.st == .placed && done) then none
  else some { x with st := .filled, shadow := false, cmd := 0, filledAt := s.now }

/-- Fill the halves from what the source holds. [DEDUCED: log entry 113] -/
def fillHalves (s : State) : State :=
  let own := s.bld.imgOwn.filterMap fun p => (slotRestored p.2 s).map fun x => (p.1, x)
  forEach own (fun p t => filterAdd p.2.nsid p.2.unit t) { s with wb.own := own, wb.mir := s.bld.imgMir }

/-- The write buffer is taken (R638): READY; a vault image or RETAIN record is used once. -/
def bufferReady (src : Nat) (h : Option ImageHdr) (s : State) : State :=
  let s := match h with
    | some r => { s with bld.consumed := r.gen, bld.retain := none, hqe.nextSeq := max s.hqe.nextSeq (r.nextSeq + 2 ^ 32) }
    | none => s
  let s := { s with wb.alone := s.pair.role == .alone && !s.bld.adopt && s.wb.mir.isEmpty, bld.imgOwn := [], bld.imgMir := [] }
  setF F.bldStatImageSrc src (set64 F.bldImgGenLoGen F.bldImgGenHiGen (h.elim 0 (·.gen)) (setF F.stgWbStatReady 1 s))

/-- Without a source only spilled copies of the journal are left; a gap stops start-up (R412, R638). -/
def bufferNone (s : State) : State :=
  let gap := clauseLost s
  let s := note .bld E.bldNoImage 0xFF { s with bld.imgOwn := [], bld.imgMir := [], pair.mirMem := [], pair.copied := [], pair.peerJ := [],
                                                pair.peerRoot := none, par.stripes := [] }
  if gap then journalGap s else bufferReady 0 none s

/-- VAULT_RESTORE (R410, R412, R582, R584, R638, R644): the first source that qualifies; a head that adopts then seizes the peer's
groups. [DEDUCED: log entry 113] -/
def execVaultRestore (s : State) : Res :=
  live s (
    if getF F.bldStatStage s != 8 || onF F.stgWbStatReady s then s
    else match sourceOf s with
    | some (src, h) =>
      let s := bufferReady src (some h) (fillHalves s)
      if s.bld.adopt then setF F.bldStatAdopted 1 { seize s with bld.adopt := false } else s
    | none => if s.pair.joined && troysUp s then bufferReady 3 none (fillHalves s) else bufferNone s)

/-! The stages (R641, R694). -/

/-- The enables of the main road and of the service group that microcode sets, but for those of MIR and OCU (R694). -/
def setEnables (b : Block) (s : State) : State :=
  forEach (List.range 5) (fun n t => match enableOf b n with
    | some (f, g) => if g = .policy then t else setF f 1 t
    | none => t) s

/-- Stage 7 ends: the rest of the blocks run. [DEDUCED: log entry 105] -/
def stage7 (s : State) : State :=
  let bs : List Block := [.ftu, .mca, .par, .ldc, .fiu, .cmp, .cry]
  let s := forEach bs (fun b t => setEnables b (bring b t)) s
  let s := setEnables .dge (setEnables .eph s)
  setF F.bldStatStage 8 (forEach ((List.range 16).filter fun n => bit (getF F.fiuBankEnBankOn s) n) bankReset s)

/-- Stage 9: metadata is recovered, fingerprints refill after a cold start, host I/O is accepted, and a head with a peer resynchronises (R291,
R412, R585, R641). [DEDUCED: log entries 105, 114] -/
def stage8 (s : State) : State :=
  let s := recoverMeta true s
  let s := if afterWarm s then s else setF F.fptRefillActive 1 { s with fiu.refill := some 0 }
  let s := setF F.bldStatStage 9 (setF F.bldTimesReadyT (s.now / 10000000) s)
  resyncStart (setInt .bld I.bldServing s)

/-- STARTUP_STAGE (R641, R642, R694): the stage ends and the next begins; `fail` is the case of R642 that the head found, `hir` the Head
Identity Record as read. [DESIGN CHOICE: log entry 94; DEDUCED: log entry 105] -/
def execStartupStage (fail : Nat) (hir : Hir) (s : State) : Res :=
  live s (
    match getF F.bldStatStage s with
    | 0 => setF F.bldStatStage 1 (if running .cpc s then s else boot s)
    | 1 => stage1 fail hir s
    | 2 => if installDue s then s else stage2 s
    | 3 => if fail = 5 then startFail 5 s else setF F.bldStatStage 4 (forEach (blocksOf .memory) bring s)
    | 4 =>
      if fail = 6 then startFail 6 s
      else
        let s := if s.bld.dumpOpen then note .pwc E.pwcDumpShort 0xFF { s with bld.dumpOpen := false } else s
        setF F.bldStatStage 5 (forEach [.vlt, .tl 0, .tl 1, .fab 0, .fab 1, .fab 2, .fab 3, .toe] bring s)
    | 5 => setF F.bldStatStage 6 (forEach (List.range 32) (fun m t => setF (F.mptLinkCtrlPerst m) 0 (bring (.mpt m) t)) s)
    | 6 => setF F.bldStatStage 7 { forEach [.mir, .ocu, .hqe] bring s with bld.stageAt := s.now }
    | 7 => if getF F.bldStatRole s = 0 || (getF F.bldStatRole s = 3 && !(s.pair.joined && troysUp s)) then s else stage7 s
    | 8 => if onF F.stgWbStatReady s then stage8 s else s
    | _ => s)

end Sys2Proof.Machine
end

