-- ==== Sys2Proof/Machine/Views.lean ====
section
/-! DEFINITION. The registers whose value is computed from the rest of State when they are read: status, counts and inspected records of
each block (the Meaning columns of the block chapters). -/

namespace Sys2Proof.Machine

/-- A value in a field of `w` bits at bit `lo`, saturating. -/
def put (v w lo : Nat) : Nat := min v (2 ^ w - 1) * 2 ^ lo

/-- Low and high word of a 64-bit value. -/
def lo32 (v : Nat) : Nat := v % 2 ^ 32
def hi32 (v : Nat) : Nat := v / 2 ^ 32 % 2 ^ 32

/-- Word `i` of a byte string, 0 beyond its end (R7). -/
def wordAt (bs : List Byte) (i : Nat) : Nat := ofBytes ((bs.drop (4 * i)).take 4)

/-- A bit map of the numbers from 0 below `n` that meet `p`. -/
def mapBits (n : Nat) (p : Nat → Bool) : Nat := ((List.range n).map fun i => b2n (p i) * 2 ^ i).sum

/-- What a register that nothing states shows: a free value. [DESIGN CHOICE: log entries 10, 116] -/
def freeView (s : State) : Nat := Config.freeNat s.free

/-- A field of a page as a read shows it: nothing of a write-only one; of a shadowed one its active value under VIEW_ACTIVE, else its shadow
(R9, R54, R64). -/
def fieldView (b : Block) (pg off : Nat) (r : RegRow) (s : State) : Nat :=
  let f : Fld := ⟨base b + 0x1000 * pg + off, r.hi, r.lo, r.reset, r.sh⟩
  (match r.acc with
    | .wo => 0
    | _ => if onF (H.viewActive b pg) s then getF f s else peekF f s) * 2 ^ r.lo

/-- A block-specific word made of stored fields. [DEDUCED: log entry 118] -/
def rowsWord (b : Block) (pg off : Nat) (s : State) : Nat := (((rowsOf b pg).filter (rowAt off)).map fun r => fieldView b pg off r s).sum

/-! Lanes. -/

/-- READY of a lane: powered, not in reset, its engine running. -/
def readyBits (b : Block) (lo n : Nat) (s : State) : Nat := mapBits n fun i => laneReady b (lo + i) s && running b s

/-- The lanes of an engine, by LANE. -/
def lanesOf (b : Block) : List Nat :=
  match b with
  | .cmp => kindOf .cmp 0 ++ kindOf .cmp 0x80
  | b => kindOf b 0

/-- Lanes now powered; none while the block is power-gated (LANES_ON). -/
def lanesOn (b : Block) (s : State) : Nat :=
  if getF (H.pwrState b) s = 2 then 0 else ((lanesOf b).filter fun l => lanePowered b l s).length

/-- An inspected lane: 0 off, 1 idle, 2 busy, 3 reset, and its Class 2 faults of the last second. While work of its kind is under way, which
lanes hold it is not stated: a free value. [DESIGN CHOICE: log entry 116] -/
def laneInfo (b : Block) (l : Nat) (work : Bool) (s : State) : Nat :=
  let st := if s.fco.laneRst.contains (laneKey b l) then 3
    else if !lanePowered b l s then 0
    else if work then 1 + freeView s % 2 else 1
  st + put ((tget s.fco.hist (laneKey b l) []).filter fun t => decide (s.now - t ≤ 1000000000)).length 4 4

/-! Host Plane. -/

/-- Controller ID (R109, R160). -/
def ctlNumber (c : Ctl) (s : State) : Nat :=
  s.pins.headSel % 2 * 0x4000 + match c with
    | .hpe p f => p * 0x400 + f
    | .fab i => 0x8000 + i

/-- TOE page 1: a connection by its number modulo 65,536, a choice of the model. [DESIGN CHOICE: log entries 69, 115] -/
def viewConn (off : Nat) (s : State) : Option Nat :=
  let i := getF F.toeConnIdx s
  let c := s.fab.conns.find? fun c => c.id % 65536 == i
  match off with
  | 0x44 => some (c.elim 0 fun c =>
      (match c.kind with
        | .tcp | .disc => 1
        | .roce => 2
        | .repl => 3) + put c.port 2 2 + put (b2n (c.ctl.isSome && c.qid == 0)) 1 4 +
      put (c.ctl.elim 0 fun i => ctlNumber (.fab i) s) 16 16)
  | 0x48 => some (c.elim 0 fun c => put c.qid 16 0)
  | 0x50 => some (c.elim 0 fun c => c.remote % 2 ^ 32)
  | 0x54 => some (c.elim 0 fun c => c.remote / 2 ^ 32 % 2 ^ 32)
  | 0x58 => some (c.elim 0 fun c => c.remote / 2 ^ 64 % 2 ^ 32)
  | 0x5C => some (c.elim 0 fun c => c.remote / 2 ^ 96 % 2 ^ 32)
  | 0x60 => some (c.elim 0 fun c => put c.rport 24 0)
  | _ => none

/-- Host ports, TOE and HQE. LTSSM is the link's own, a free value. -/
def viewHost (b : Block) (pg off : Nat) (s : State) : Option Nat :=
  match b, pg, off with
  | .hpe _, 0, 0x44 | .mge, 0, 0x44 => some (rowsWord b 0 0x44 s + 2 ^ 16 * (freeView s % 64))
  | .toe, 0, 0x4C => some (put s.fab.conns.length 17 0)
  | .toe, 0, 0x50 => some (put (fabQps s) 17 0)
  | .toe, 0, 0x54 => some (put (s.hqe.ctls.filter fun k => match k.id with
      | .fab _ => true
      | .hpe _ _ => false).length 13 0)
  | .toe, 1, off => viewConn off s
  | .hqe, 0, 0x44 => some (put s.hqe.cmds.length 21 0)
  | .hqe, 0, 0x48 => some (put (qpUsed s) 17 0)
  | .hqe, 1, 0x4C =>
    let k := bucketOf (indexOf .hqe 1 s) s
    some (b2n k.throttled + put k.throttles 16 16)
  | .hqe, 3, off =>
    let n := getF F.hqeNsIdxNsid s
    let x := nsOf n s
    match off with
    | 0x44 => some (x.elim 0 fun x =>
        1 + put (b2n (ownsNs x s)) 1 1 + put (b2n x.mixed) 1 2 + put (b2n x.format.isSome) 1 3 + put (b2n (keyReady x s)) 1 4 +
        put x.group 11 16)
    | 0x48 => some (x.elim 0 fun x => put x.oldPct 8 0)
    | 0x4C => some (x.elim 0 fun x => lo32 (nuse n s * (4096 / lbSize x.nsid s)))
    | 0x50 => some (x.elim 0 fun x => hi32 (nuse n s * (4096 / lbSize x.nsid s)))
    | _ => none
  | _, _, _ => none

/-! Reduction Plane. -/

/-- Digest contexts of destage in use: one for each unit being fingerprinted, at most 32. [DEDUCED: log entry 117] -/
def unitCtx (s : State) : Nat := min 32 (s.wb.units.filter fun d => d.stage == .fingerprint).length

/-- DGE_CINFO and the message bytes of context `n`. A destage context in use runs ALG 2; its GEN and bytes are not stated, free values.
[DESIGN CHOICE: log entry 116; DEDUCED: log entry 117] -/
def ctxInfo (n : Nat) (s : State) : Nat :=
  if n < 32 then (if n < unitCtx s then 2 + 2 ^ 16 * (freeView s % 256) + 2 * 2 ^ 24 else 2 ^ 16 * (freeView s % 256))
  else put (tget s.dge.gens n 0) 8 16 + (ctxOf n s).elim 0 fun c =>
    (match c.st with
      | .waiting => 1
      | .active => 2
      | .open_ => 3) + put c.owner 2 2 + (if c.owner = 1 then put c.core 5 4 else 0) + put c.alg 2 24
/-- [DESIGN CHOICE: log entry 116] -/
def ctxBytes (n : Nat) (s : State) : Nat :=
  if n < 32 then (if n < unitCtx s then freeView s % 4097 else 0) else (ctxOf n s).elim 0 (·.msg.length)

/-- A tier 1 entry's 96 bits (R267). -/
def entryBits (e : TagEntry) : Nat :=
  let v := 2 ^ 64 * e.tag + 2 ^ 34 * e.fptIdx + 2 ^ 20 * e.domain + 2 ^ 12 * e.heat + 2
  v + ones 96 v % 2

/-- DGE, FIU, CMP and CRY. [DESIGN CHOICE: log entries 3, 116] -/
def viewReduction (b : Block) (pg off : Nat) (s : State) : Option Nat :=
  match b, pg, off with
  | .dge, 0, 0x48 => some (readyBits .dge 0 16 s)
  | .dge, 0, 0x50 => some (unitCtx s + put s.dge.ctx.length 6 8 + put (s.dge.first.filter fun j => j.2.first).length 10 16)
  | .dge, 0, 0x54 => some (put (s.cry.dedup.filter fun k => k.2.st == .loaded).length 15 0 + put s.dge.jobKeys.length 7 16)
  | .dge, 1, 0x54 => some (ctxInfo (getF F.dgeCselCtx s) s)
  | .dge, 1, 0x58 => some (lo32 (ctxBytes (getF F.dgeCselCtx s) s))
  | .fiu, 0, 0x58 => some (put (s.fiu.tier1.map fun g => g.2.length).sum 23 0)
  | .fiu, 1, 0x4C => some (put s.fiu.fpt.length 31 0)
  | .fiu, 1, 0x50 => some (put (s.fiu.fpt.filter fun e => e.2.st == .pending).length 31 0)
  | .fiu, 2, 0x44 => some (rowsWord .fiu 2 0x44 s + put (b2n (domKey (indexOf .fiu 2 s) s).isSome) 1 1)
  | .fiu, 2, 0x48 => some (put (tget s.fiu.hits (indexOf .fiu 2 s) 0) 32 0)
  | .fiu, 3, off =>
    if off = 0x44 ∨ off = 0x48 ∨ off = 0x4C then
      some (((segOf (getF F.fiuInspSelSeg s) s)[getF F.fiuInspSelPos s]?).elim 0 fun e =>
        entryBits e / 2 ^ (32 * ((off - 0x44) / 4)) % 2 ^ 32)
    else none
  | .cmp, 0, 0x4C => some (readyBits .cmp 0 24 s)
  | .cmp, 0, 0x50 => some (readyBits .cmp 0x80 32 s)
  | .cmp, 1, 0x40 => some (lo32 s.cmp.inBytes)
  | .cmp, 1, 0x48 => some (lo32 s.cmp.outBytes)
  | .cmp, 2, 0x44 =>
    let l := getF F.cmpLselLane s
    if getF F.cmpLselKind s = 0 then
      some (if l < 24 then laneInfo .cmp l (s.wb.units.any fun d => d.stage == .compress) s else 0)
    else some (laneInfo .cmp (0x80 + l) (s.wb.reads.any fun x => x.stage == .expand) s)
  | .cmp, 3, 0x40 => some (freeView s % 2 ^ 16)
  | .cry, 0, 0x48 => some (readyBits .cry 0 16 s)
  | .cry, 0, 0x4C => some (put (s.cry.data.filter fun k => k.2.st == .loaded).length 15 0 +
      put (s.cry.dedup.filter fun k => k.2.st == .loaded).length 15 16)
  | .cry, 0, 0x50 => some (rowsWord .cry 0 0x50 s + mapBits 16 fun w => (keySlot 2 w s).any fun k => k.st == .loaded)
  | .cry, 1, off =>
    let kind := getF F.crySlotSelKind s
    let slot := getF F.crySlotSelSlot s
    let k := keySlot kind slot s
    match off with
    | 0x44 => some ((k.elim 0 fun k => match k.st with
        | .loaded => 1
        | .restorePending => 2
        | .purging => 3) + put (keyGen kind slot s) 16 16)
    | 0x48 => some (k.elim 0 fun k => lo32 k.keyId)
    | 0x4C => some (k.elim 0 fun k => hi32 k.keyId)
    | 0x50 => some (if kind = 0 then put (keyUsers (handleOf 0 slot (keyGen 0 slot s)) s) 16 0 else 0)
    | _ => none
  | _, _, _ => none

/-! Media Plane. -/

/-- STATE of a band (R416). -/
def bandNo (st : BandSt) : Nat :=
  match st with
  | .open_ => 1 | .sealed_ => 2 | .collecting => 3 | .erasing => 4 | .forwarded => 5

/-- Extents of a member that the head owns: its blocks in groups of 256 (R418). -/
def ownExtents (m : Nat) (s : State) : Nat :=
  ((List.range (((recOf m s).elim 0 blockCount + 255) / 256)).filter fun e => ownsExtent m e s).length

/-- A block of a lost-extent record (R462). -/
def lostBytes (r : LostRec) : List Byte :=
  let v := toBytes 4 r.nsid ++ toBytes 4 r.count ++ toBytes 8 r.unit ++ toBytes 8 r.time ++
    toBytes 4 (r.epoch + 2 ^ 20 * r.cause + 2 ^ 28 * b2n r.recon)
  v ++ toBytes 4 (crc32c v)

/-- FTU. [DESIGN CHOICE: log entry 119; DEDUCED: log entry 121] -/
def viewFtu (pg off : Nat) (s : State) : Option Nat :=
  let b := bandOf (getF F.ftuBandSelBand s) s
  let m := getF F.ftuMemSelMember s
  let es := (ownBlocks m s).map fun n => (blkOf m n s).erases
  match pg, off with
  | 0, 0x48 => some (put (freePm s) 10 0 + put (b2n s.ftu.gcOn) 1 16 + put (b2n s.ftu.urgent) 1 17 + put (b2n s.ftu.admitStop) 1 18)
  | 0, 0x54 => some (put ((footBytes s + 2 ^ 20 - 1) / 2 ^ 20) 22 0)
  | 1, 0x48 => some (lo32 s.ftu.csnext)
  | 1, 0x50 => some (lo32 (lowCseq s))
  | 1, 0x58 => some (put (ringUsed s) 18 0)
  | 1, 0x5C => some (put (s.ftu.blocks.filter fun b => b.spilled).length 32 0)
  | 1, 0x60 => some (s.ftu.root.elim 0 fun r => lo32 r.gen)
  | 1, 0x64 => some (put ((s.ftu.pages.filter (·.dirty)).map (·.pid)).eraseDups.length 28 0)
  | 2, 0x44 => some (b.elim 0 fun b => bandNo b.st + put (b2n b.isMeta) 1 3 + put (b2n b.isGc) 1 4 + put (b2n b.reloc) 1 5 +
      put (b2n b.short) 1 6 + put b.d 8 8 + put b.p 2 16 + put b.k 4 20 + put b.cls 3 24)
  | 2, 0x48 => some (b.elim 0 fun b => lo32 b.live)
  | 2, 0x50 => some (b.elim 0 fun b => put b.cbits 16 0)
  | 2, 0x54 => some (b.elim 0 fun b => put b.fwd 32 0)
  | 2, 0x58 => some (put (s.ftu.bands.filter (·.mine)).length 24 0)
  | 2, 0x5C => some (put s.ftu.relocQ.length 13 0)
  | 3, 0x44 => some (put (ownBlocks m s).length 32 0)
  | 3, 0x48 => some (put (freeBlocks m s).length 32 0)
  | 3, 0x4C => some (put ((tslice s.ftu.eblk (blockKey m 0) (blockKey (m + 1) 0)).filter fun e => e.2.st == 3).length 32 0)
  | 3, 0x50 => some (put (es.foldl min (es.headD 0)) 32 0)
  | 3, 0x54 => some (put (es.foldl max 0) 32 0)
  | 3, 0x58 => some (put (ownExtents m s) 16 0)
  | _, _ => none

/-- Way group g takes fills: group 0 always, another while it is on and not gated (R403). -/
def groupReady (g : Nat) (s : State) : Bool := g == 0 || (bit (getF F.mcaWaysGroupOn s) (g - 1) && !s.mca.off.contains g)

/-- PAR. [DEDUCED: log entry 121] -/
def viewPar (off : Nat) (s : State) : Option Nat :=
  let m := getF F.parMemSelModule s
  let set := (patrolSet s).length
  let w := (off - 0x80) / 4
  match off with
  | 0x58 => some (rowsWord .par 0 0x58 s + (if set = 0 then 0 else min 100 (100 * s.par.swept.length / set)))
  | 0x5C => some (put (b2n (!(rebuilding s).isEmpty)) 1 0 + put ((rebuilding s).headD 0) 5 8 + put (rebuildList s).length 16 16)
  | 0x64 => some (memStNo (memOf m s).st + put (recentTimeouts m s).length 2 8 + put (memOf m s).arounds 16 16)
  | 0x70 => some (rowsWord .par 0 0x70 s + put s.par.lost.length 15 0)
  | _ => if 0x80 ≤ off ∧ off < 0xA0 then
      some ((s.par.lost[getF F.parLostIdxIndex s]?).elim 0 fun r => wordAt (lostBytes r) w)
    else none

/-- The Media Plane: FTU, MCA, PAR, LDC, VLT and the module ports. [DEDUCED: log entry 121] -/
def viewMedia (b : Block) (pg off : Nat) (s : State) : Option Nat :=
  match b, pg, off with
  | .ftu, pg, off => viewFtu pg off s
  | .mca, 0, 0x4C => some (mapBits 4 (fun g => groupReady g s && running .mca s) +
      mapBits 4 (fun g => g != 0 && !bit (getF F.mcaWaysGroupOn s) (g - 1) && !s.mca.off.contains g) * 16)
  | .mca, 0, 0x50 => some (put (s.mca.lines.filter fun l => l.dirty.isSome).length 20 0)
  | .mca, 0, 0x54 => some (lo32 (mcaLow s))
  | .par, 0, off => viewPar off s
  | .ldc, 0, 0x48 => some (readyBits .ldc 0 32 s)
  | .ldc, 0, 0x4C => some (if running .ldc s then 0xFF else 0)
  | .ldc, 1, 0x44 => some (laneInfo .ldc (getF F.ldcLselLane s) (s.wb.reads.any fun x => !x.cws.isEmpty) s)
  | .vlt, 0, 0x44 => some (b2n (running .vlt s) + put (b2n s.pwc.dumping) 1 1 +
      put (b2n (getF F.bldStatStage s == 8 && !onF F.stgWbStatReady s)) 1 2 + put (b2n (newestImage s).isSome) 1 3 +
      put Config.vltTargets 4 4)
  | .vlt, 0, 0x48 => some (put Config.vltGib 16 0)
  | .vlt, 0, 0x4C => some (put Config.vltBad 16 0)
  | .mpt m, 0, 0x54 => some (put (s.mods.cmds.filter fun c => c.m == m).length 12 0)
  | .mpt m, 0, 0x5C => some ((recOf m s).elim 0 fun r => tget r.words (getF (F.mptMirIdxWord m) s) 0 % 2 ^ 32)
  | _, _, _ => none

/-! Pair and Memory Planes. -/

/-- Chunk assembly buffers in use: chunks of stripes held in PAR that have bytes and are not accepted yet. -/
def chunksHeld (s : State) : Nat :=
  (s.par.stripes.map fun x => (bandOf x.band s).elim 0 fun b =>
    ((List.range b.d).filter fun d => decide (d * chunkLen < x.stream.length) &&
      [ChunkSt.open_, .sent].contains (x.chunks.getD (dataPos b x.no d) .accepted)).length).sum

/-- TL, MIR and STG. [DESIGN CHOICE: log entries 3, 92, 119] -/
def viewPair (b : Block) (off : Nat) (s : State) : Option Nat :=
  match b, off with
  | .tl n, 0x58 => some (lo32 (winAct n s).base)
  | .tl n, 0x5C => some (hi32 (winAct n s).base)
  | .tl n, 0x60 => some (put (winAct n s).size 24 0)
  | .mir, 0x44 => some (rowsWord .mir 0 0x44 s + put (b2n s.pins.peerPresent) 1 9)
  | .mir, 0x48 => some (rowsWord .mir 0 0x48 s + put (footGib s) 16 0)
  | .mir, 0x4C => some (lo32 Config.fwdBase)
  | .mir, 0x50 => some (hi32 Config.fwdBase)
  | .mir, 0x54 => some (put ((inFlight 0 s + 1023) / 1024) 24 0)
  | .mir, 0x58 => some (put s.pair.fwd.length 19 0)
  | .stg, 0x40 => some (lo32 Config.wbBase)
  | .stg, 0x44 => some (hi32 Config.wbBase)
  | .stg, 0x4C => some (rowsWord .stg 0 0x4C s + put (ownUsed s) 21 0)
  | .stg, 0x50 => some (put s.wb.mir.length 21 0)
  | .stg, 0x54 => some (8192 - s.wb.units.length + put (384 - chunksHeld s) 9 16)
  | .stg, 0x58 => some (rowsWord .stg 0 0x58 s + put (filterSat s) 16 0)
  | _, _ => none
where
  /-- The active window that TL_WIN_SEL names. -/
  winAct (n : Nat) (s : State) : Win := tget s.pair.wins (n * 8 + getF (F.tlWinSelWin n) s) { base := 0, size := 0 }

/-! Control Plane. -/

/-- An event record's 32 bytes (R606). -/
def recBytes32 (r : Rec) : List Byte :=
  let v := toBytes 2 r.code ++
    toBytes 2 (r.cls % 8 + b2n r.inj * 8 + b2n r.sub * 16 + b2n r.raised * 32 + b2n r.noTai * 64 + r.source % 64 * 256) ++
    toBytes 4 r.seq ++ toBytes 8 r.time ++ toBytes 1 r.inst ++ toBytes 1 r.lane ++ toBytes 2 r.inc ++ toBytes 4 r.p1 ++ toBytes 4 r.p2
  v ++ toBytes 4 (crc32c v)

/-- ARG of an entry: the transaction, cut handle or stream slot, or a window's length in ns (R516).
[DESIGN CHOICE: log entry 69] -/
def entryArg (e : Entry) (s : State) : Nat :=
  match e.kind with
  | .winGc | .winPatrol | .winDedup => 1000000000 * getF (F.ephWinDurDurS e.ref) s
  | _ => e.ref

/-- An Ephemeris entry's 32 bytes (R515). [DESIGN CHOICE: log entry 69] -/
def entryBytes (e : Entry) (s : State) : List Byte :=
  let pair := e.kind == .snapCut || e.kind == .replCut
  toBytes 8 e.next ++ toBytes 8 e.period ++ toBytes 1 (actionCode e.kind) ++
    toBytes 1 (b2n e.skipLate + b2n e.dormant * 2 + b2n pair * 4 + b2n (e.kind == .replCut) * 8) ++
    toBytes 2 e.no ++ toBytes 4 e.left ++ toBytes 8 (entryArg e s)

/-- STATE of a stream (R540). [DESIGN CHOICE: log entry 69] -/
def streamNo (st : StreamSt) : Nat :=
  match st with
  | .setup => 0 | .initial => 1 | .active => 2 | .fractured => 3 | .broken => 4

/-- EPH page 1. [DESIGN CHOICE: log entry 69] -/
def viewEph1 (off : Nat) (s : State) : Option Nat :=
  let n := getF F.ephEntSelEntry s
  let past := tget s.eph.past n { result := 0, firings := 0, last := 0 }
  let x := streamOf (getF F.ephStrmSelSlot s) s
  match off with
  | 0x70 => some (mapBits 3 fun k => winOpen k s)
  | 0x74 => some (put s.eph.entries.length 13 0 + put (s.eph.entries.filter (·.dormant)).length 13 16)
  | 0xA0 => some (lo32 past.last)
  | 0xA8 => some (past.result % 4 + put past.firings 16 16)
  | 0xAC => some (put s.eph.epochs.length 20 0)
  | 0x104 => some (x.elim 0 fun x => x.body.streamId % 2 ^ 32)
  | 0x108 => some (x.elim 0 fun x => streamNo x.st + put (b2n x.body.target) 1 3 + put (b2n x.body.sync) 1 4 +
      put (connsUp x.slot s).length 3 5 + put x.skipped 16 16)
  | 0x10C => some (x.elim 0 fun x => lo32 x.lastCut)
  | 0x110 => some (x.elim 0 fun x => hi32 x.lastCut)
  | 0x114 => some (x.elim 0 fun x => lo32 x.sent)
  | 0x118 => some (x.elim 0 fun x => hi32 x.sent)
  | 0x11C => some (x.elim 0 fun x => lo32 x.saved)
  | 0x120 => some (x.elim 0 fun x => hi32 x.saved)
  | _ => if 0x80 ≤ off ∧ off < 0xA0 then
      some ((s.eph.entries.find? fun e => e.no == n).elim 0 fun e => wordAt (entryBytes e s) ((off - 0x80) / 4))
    else none

/-- A measurement log entry's 64 bytes (R379). -/
def logBytes (n : Nat) (l : MrLog) : List Byte :=
  toBytes 1 l.mr ++ toBytes 1 l.source ++ toBytes 2 l.event ++ toBytes 4 n ++ l.digest ++ toBytes 8 l.time

/-- SEC: page 0 shows the registers and the log, page 1 quotes and certificates. [DESIGN CHOICE: log entry 3] -/
def viewSec (pg off : Nat) (s : State) : Option Nat :=
  let w := fun lo => (off - lo) / 4
  if pg = 0 then
    if off = 0x44 then some (put s.sec.log.length 10 0)
    else if 0x50 ≤ off ∧ off < 0x60 then
      some (put (s.sec.mrCnt.getD (2 * w 0x50) 0) 16 0 + put (s.sec.mrCnt.getD (2 * w 0x50 + 1) 0) 16 16)
    else if 0x100 ≤ off ∧ off < 0x280 then
      if w 0x100 % 12 = 0 then some (wordAt (s.sec.mr.getD (w 0x100 / 12) []) 0) else none
    else if 0x340 ≤ off ∧ off < 0x380 then
      let n := getF F.secLogIdxEntry s
      some ((s.sec.log[n]?).elim 0 fun l => wordAt (logBytes n l) (w 0x340))
    else none
  else
    let sel := getF F.secCertSelSel s
    let cert := (Config.certBytes sel).take 2048
    if 0x100 ≤ off ∧ off < 0x160 then some (wordAt s.sec.sig (w 0x100))
    else if 0x200 ≤ off ∧ off < 0x3B8 then some (wordAt s.sec.msg (w 0x200))
    else if off = 0x404 then some (put cert.length 12 0)
    else if 0x440 ≤ off ∧ off < 0x4A4 then some (if sel < 2 then wordAt ((Config.pubKey sel).take 97) (w 0x440) else 0)
    else if 0x800 ≤ off then some (wordAt cert (w 0x800))
    else none

/-- The domains of a row of R630 that are powered, as a bit map: compress with expand lanes, digest, crypto, LDPC lanes, way groups, banks,
SerDes quads (8 of the host ports, 1 of MGE, 4 fabric, 16 module, 8 Troys), DDR channels, cores, VLT.
[DEDUCED: log entry 118] -/
def domainsOn (kind : Nat) (s : State) : Nat :=
  let up := fun b => getF (H.pwrState b) s != 2
  let lanes := fun b lo n => mapBits n fun i => up b && lanePowered b (lo + i) s
  match kind with
  | 0 => lanes .cmp 0 24 + 2 ^ 24 * lanes .cmp 0x80 32
  | 1 => lanes .dge 0 16
  | 2 => lanes .cry 0 16
  | 3 => lanes .ldc 0 32
  | 4 => mapBits 4 fun g => up .mca && !s.mca.off.contains g
  | 5 => lanes .fiu 0 16
  | 6 => mapBits 37 fun q =>
      if q < 8 then up (.hpe (q / 2)) else if q = 8 then up .mge else if q < 13 then up (.fab (q - 9))
      else if q < 29 then up (.mpt (2 * (q - 13))) || up (.mpt (2 * (q - 13) + 1)) else up (.tl ((q - 29) / 4))
  | 7 => mapBits 12 fun n => up (.dmc n)
  | 8 => lanes .cpc 0 32
  | 9 => b2n (up .vlt)
  | _ => 0

/-- The update record and the images (R648, R656, R663). -/
def viewFw (off : Nat) (s : State) : Option Nat :=
  match off with
  | 0x80 => some (s.bld.fwSt % 8 + (if inTrial s then put (stagedKind s) 2 3 else 0) + put s.bld.outcome 3 5 +
      put (b2n (passes 1 (reserveImage 1 s) s && passes 2 (reserveImage 2 s) s)) 1 8 +
      put (s.bld.wdogAt.elim 0 fun t => (t - s.now + 999999999) / 1000000000) 10 16)
  | 0x94 => some (put (tget s.bld.arb 1 0) 7 0 + put (tget s.bld.arb 2 0) 7 8)
  | 0x98 => some (s.bld.stage.elim 0 fun t => put t.pieces.length 16 0 + put (pieceCount t) 16 16)
  | 0x9C => some (s.bld.stage.elim 0 fun t => lo32 t.img.id)
  | _ => none

/-- The Control Plane. [DESIGN CHOICE: log entries 3, 116; DEDUCED: log entry 121] -/
def viewControl (b : Block) (pg off : Nat) (s : State) : Option Nat :=
  match b, pg, off with
  | .fco, 0, 0x48 => some (rowsWord .fco 0 0x48 s + put s.fco.incs.length 5 1)
  | .fco, 0, 0x5C => some ((s.fco.incs.find? fun i => i.slot == getF F.fcoIncSelSlot s).elim 0 fun i =>
      put i.number 16 0 + put i.cls 3 16 + put i.source 6 19 + put i.subs 6 26)
  | .evr, 0, 0x44 => some (rowsWord .evr 0 0x44 s + put s.evr.recs.length 17 0)
  | .evr, 0, 0x48 => some ((s.evr.recs.head?).elim (freeView s % 2 ^ 32) (·.seq))
  | .evr, 0, off => if 0x60 ≤ off ∧ off < 0x80 then
      some ((s.evr.recs.find? fun r => r.seq == getF F.evrRdSeqSeq s).elim 0 fun r => wordAt (recBytes32 r) ((off - 0x60) / 4))
    else none
  | .eph, 0, 0x44 => some (rowsWord .eph 0 0x44 s + put (b2n (ppsRecent s)) 1 3)
  | .eph, 0, 0x48 => some (lo32 s.eph.time)
  | .eph, 0, 0x50 => some (put (terrNow s) 32 0)
  | .eph, 1, off => viewEph1 off s
  | .bld, 0, 0x5C => some (s.bld.hir.elim 0 fun h => wordAt (hirBytes h) (getF F.bldHirIdxWord s))
  | .bld, 0, off => viewFw off s
  | .sec, pg, off => viewSec pg off s
  | .pwc, 0, 0x44 => some (rowsWord .pwc 0 0x44 s + put (b2n s.pwc.inputOk) 1 3 + put (b2n s.pwc.dumping) 1 4)
  | .pwc, 0, 0x58 => some (lo32 (domainsOn (getF F.pwcDomSelKind s) s))
  | .pwc, 0, 0x5C => some (if getF F.pwcDomSelKind s = 6 then hi32 (domainsOn 6 s) else 0)
  | .pwc, 0, 0x60 => some (railsWord s)
  | .pwc, 0, 0x64 => some (clkWord s)
  | .pwc, 0, 0x7C =>
    let n := getF F.pwcTselSensor s
    some (s.pwc.temps.getD n 0 % 4096 + put (b2n (s.pwc.failed.contains n)) 1 12)
  | _, _, _ => none

/-- The computed word of a block at an offset of a page; none where the page's stored fields give the word.
[DESIGN CHOICE: log entry 116] -/
def viewWord (b : Block) (pg off : Nat) (s : State) : Option Nat :=
  match planeOf b with
  | .control => viewControl b pg off s
  | .host => viewHost b pg off s
  | .reduction => viewReduction b pg off s
  | .media => viewMedia b pg off s
  | .pair | .memory => viewPair b off s

end Sys2Proof.Machine
end

