-- ==== Sys2Proof/Machine/Readback.lean ====
section
/-! DEFINITION. Register reads: the page header, the window summary, latched words, and the two ways to read (R51–R62, R380, R677). -/

namespace Sys2Proof.Machine

/-- HDR_ID (R54). -/
def hdrId (b : Block) (pg : Nat) : Nat :=
  2 ^ 28 * windowOf b + 2 ^ 20 * blockCode b + 2 ^ 12 * inst b + 2 ^ 8 * pg + (pages b - 1) * 2 ^ 4

/-- HDR_VER: the layout version of the block and the stepping of the die (R54). -/
def hdrVersion (b : Block) : Nat := Config.hdrVer (blockCode b) / 2 ^ 16 % 2 ^ 16 * 2 ^ 16 + siliconStep

/-- HDR_CTRL and HDR_STATUS bits that every page has. -/
def pageCtrl (b : Block) (pg : Nat) (s : State) : Nat :=
  put (b2n (commitBusy b pg s)) 1 2 + getF (H.viewActive b pg) s * 2 ^ 4 + getF (H.txn b pg) s * 2 ^ 5 + getF (H.txnId b pg) s * 2 ^ 8
def pageStatus (b : Block) (pg : Nat) (s : State) : Nat :=
  put (b2n (commitBusy b pg s)) 1 2 + put (b2n (shadowDirty b pg s)) 1 3 + put (b2n (txnPending b pg s)) 1 4 +
  2 ^ 16 * getF (H.commitSeq b pg) s

/-- The counter of a page (R59). -/
def counterOf (b : Block) (s : State) : Nat := tget s.regs.cnt (base b) 0

/-- A header word; in page 1 and higher only the fields that R54 keeps. -/
def readHeader (b : Block) (pg off : Nat) (s : State) : Nat :=
  match off with
  | 0x0 => hdrId b pg
  | 0x4 => hdrVersion b
  | 0x8 => (if pg = 0 then getF (H.en b) s else 0) + pageCtrl b pg s
  | 0xC => pageStatus b pg s +
      (if pg = 0 then getF (H.run b) s + getF (H.rstBusy b) s * 2 + 2 ^ 12 * getF (H.state b) s else 0)
  | _ =>
    if pg ≠ 0 then 0
    else match off with
    | 0x10 => getF (H.errStat b) s
    | 0x14 => getF (H.errMask b) s
    | 0x18 => getF (H.classMap b) s
    | 0x20 => intWord b s
    | 0x24 => getF (H.intEn b) s
    | 0x28 => getF (H.pwrReq b) s + getF (H.pwrAuto b) s * 4
    | 0x2C => getF (H.pwrState b) s + getF (H.pwrMoving b) s * 4 + put (lanesOn b s) 8 8
    | 0x30 => getF (H.cntEvent b) s + getF (H.cntFreeze b) s * 2 ^ 8
    | 0x34 => lo32 (counterOf b s)
    | 0x38 => tget s.regs.latchHi (base b + 0x38) 0
    | 0x3C => getF (H.spare b) s
    | _ => 0

/-- WSP_PEND of a window: bit p is page p's pending state (R62). -/
def pendWord (w i : Nat) (s : State) : Nat :=
  mapBits 32 fun k => match blockAt (w * 0x100000 + (32 * i + k) * 0x1000) with
    | some (b, 0) => pagePend b s
    | _ => false

/-- The block-specific registers of the page read as zero: the block is power-gated or in reset (R60).
[DEDUCED: log entry 13] -/
def blockDark (b : Block) (s : State) : Bool := getF (H.pwrState b) s == 2 || getF (H.state b) s == 5

/-- The high word that a read of the low word at this address latches, where the register is a pair that latches. -/
def highWord (addr : Nat) (s : State) : Option Nat :=
  match addr with
  | 0x2050 => some (getF F.fcoGraveTHiTime s)
  | 0x4048 => some (hi32 s.eph.time)
  | 0x4078 => some (getF F.ephPpsTsHiPpsTs s)
  | 0x50A0 => some (hi32 (tget s.eph.past (getF F.ephEntSelEntry s) { result := 0, firings := 0, last := 0 }).last)
  | 0x604C => some (getF F.bldImgGenHiGen s)
  | 0x609C => some (s.bld.stage.elim 0 fun t => hi32 t.img.id)
  | 0x201058 => some (hi32 (ctxBytes (getF F.dgeCselCtx s) s))
  | 0x209040 => some (hi32 s.cmp.inBytes)
  | 0x209048 => some (hi32 s.cmp.outBytes)
  | 0x301048 => some (hi32 s.ftu.csnext)
  | 0x301050 => some (hi32 (lowCseq s))
  | 0x302048 => some ((bandOf (getF F.ftuBandSelBand s) s).elim 0 fun b => hi32 b.live)
  | 0x304054 => some (hi32 (mcaLow s))
  | _ => none

/-- The address is that of a measurement register's word other than word 0 (R380). -/
def mrTail (addr : Nat) : Bool := decide (0x7100 ≤ addr ∧ addr < 0x7280) && (addr - 0x7100) / 4 % 12 != 0

/-- The words that a read at an address latches, each with the address at which it is read (R59, R380).
[DESIGN CHOICE: log entry 15] -/
def latched (addr : Nat) (s : State) : List (Nat × Nat) :=
  match blockAt addr with
  | none => []
  | some (b, pg) =>
    if addr % 0x1000 = 0x34 && pg = 0 then [(addr + 4, hi32 (counterOf b s))]
    else if addr % 0x1000 < 0x40 || blockDark b s then []
    else if 0x7100 ≤ addr ∧ addr < 0x7280 then
      if mrTail addr then []
      else (List.range 11).map fun w => (addr + 4 * (w + 1), wordAt (s.sec.mr.getD ((addr - 0x7100) / 48) []) (w + 1))
    else match highWord addr s with
      | some v => [(addr + 4, v)]
      | none => []

/-- The value of a 32-bit read (R51, R53, R60). -/
def readWord (addr : Nat) (s : State) : Nat :=
  match blockAt addr with
  | none => 0
  | some (b, pg) =>
    let off := addr % 0x1000
    if off < 0x40 then readHeader b pg off s
    else if blockDark b s then 0
    else match b with
    | .wsp w => if off < 0x60 then pendWord w ((off - 0x40) / 4) s else 0
    | _ =>
      if mrTail addr || (highWord (addr - 4) s).isSome then tget s.regs.latchHi addr 0
      else (viewWord b pg off s).getD (rowsWord b pg off s)

/-- What a read leaves behind: the words it latches, and the next free value. [DESIGN CHOICE: log entry 15] -/
def readEffect (addr : Nat) (s : State) : State :=
  let l := latched addr s
  { s with regs.latchHi := l.foldl (fun t p => tput t p.1 p.2 0) s.regs.latchHi, free := s.free + 1 }

/-- A 32-bit read of the management driver or of the sideband: another alignment is answered with Unsupported Request and recorded
(R52). -/
def readBy (o : Nat → Out) (addr : Nat) (s : State) : State :=
  if addr % 4 != 0 then emit (.pcieUr .mge) (fcoNotice s) else emit (o (readWord addr s)) (readEffect addr s)

/-- LATCH_READ_LO (R53, R59, R380): a read through MGE, in service in the Grave state (R616). -/
def execLatchReadLo (addr : Nat) (s : State) : Res := .next (if s.pwc.held then s else readBy (.mgeRead addr) addr s)

/-- MGMT_SIDEBAND_READ (R677): from 1 ms after the release of cold reset, in the Grave state too. -/
def execMgmtSidebandRead (addr : Nat) (s : State) : Res :=
  .next (if s.pwc.held || decide (s.now < 1000000) then s else readBy (.sideband addr) addr s)

end Sys2Proof.Machine
end

