-- ==== Sys2Proof/Machine/RegWrite.lean ====
section
/-! DEFINITION. REGISTER_WRITE: the fields of the word are stored, and then each field whose write starts something does
what the command of its own does (R9, R51-R71). -/

namespace Sys2Proof.Machine

/-- The state that a command of one field leaves. -/
def thenDo (f : State → Res) (s : State) : State :=
  match f s with
  | .next t => t
  | _ => s

/-- Do `f` with the value written when a one-bit field is written with another value than it holds.
[DEDUCED: log entry 126] -/
def onChange (fl : Fld) (v : Nat) (f : Bool → State → Res) (s : State) : State :=
  if bit v fl.lo == onF fl s then s else thenDo (f (bit v fl.lo)) s

/-- The enables at the listed bits of a block's control word (R694): those that take no plane down first.
[DEDUCED: log entry 126] -/
def enablesWritten (b : Block) (ns : List Nat) (v : Nat) (s : State) : State :=
  let pass := fun (main : Bool) (s : State) => forEach ns (fun n t =>
    match enableOf b n with
    | some (f, g) =>
      if (g == .mainRoad) == main && getF (H.state b) t != 5 then onChange f v (fun on u => execBlockEnableWrite b (some n) on false u) t else t
    | none => t) s
  pass true (pass false s)

/-- A lane enable word written with another value (R632). -/
def lanesWritten (b : Block) (expand : Bool) (v : Nat) (s : State) : State :=
  match laneField b (if b = .cmp && expand then 0x80 else 0) with
  | some (f, _, _, n) => if v % 2 ^ n = getF f s then s else thenDo (execLaneEnableWrite b expand v) s
  | none => s

/-- What a written header word starts: EN, COMMIT, DISCARD and SRST in this order, ERR_INJECT, PWR_CTRL.REQ and
CNT_SEL.CLEAR (R56, R57, R59, R64, R68, R630). COMMIT captures as the write arrives, so before DISCARD.
[DEDUCED: log entry 126] -/
def headerStarts (b : Block) (pg off v : Nat) (s : State) : State :=
  if off = 0x8 then
    let s := if pg = 0 then onChange (H.en b) v (fun on u => execBlockEnableWrite b none on false u) s else s
    let s := if bit v 2 then thenDo (execCommit b pg) s else s
    let s := if bit v 3 then thenDo (execDiscard b pg) s else s
    if pg = 0 && bit v 1 then thenDo (execSoftReset b) s else s
  else if pg ≠ 0 then s
  else if off = 0x1C then if bit v 8 then thenDo (execErrInjectWrite b (bits v 4 0) (bits v 16 9)) s else s
  else if off = 0x28 then if bits v 1 0 = getF (H.pwrReq b) s then s else thenDo (execPowerRequest b (bits v 1 0)) s
  else if off = 0x30 then if bit v 9 then thenDo (execCounterClear b) s else s
  else s

/-- What a written word of an HPE page starts (R111, R139, R144). -/
def hpeStarts (p off v : Nat) (s : State) : State :=
  if off = 0x40 then
    let s := onChange (F.hpeLinkCtrlHoldDetect p) v (execPortHoldDetect p) s
    if bit v 10 then thenDo (execLinkRetrain (.hpe p)) s else s
  else if 0x400 ≤ off && off < 0x800 then
    let k := (off - 0x400) / 4
    onChange (F.hpeVfQpBlock p k) v (execVfBlock p (k + 1)) s
  else s

/-- What a written word of the MGE page starts (R79, R83, R139). -/
def mgeStarts (off v : Nat) (s : State) : State :=
  let q := (off - 0x100) / 32
  if off = 0x40 then if bit v 10 then thenDo (execLinkRetrain .mge) s else s
  else if 0x100 ≤ off && off < 0x300 then
    if off % 32 = 0x10 then onChange (F.mqCfgSqEn q) v (execMqSqEnable q) (onChange (F.mqCfgCqEn q) v (execMqCqEnable q) s)
    else if off % 32 = 0x14 then thenDo (execMqSqDoorbell q (bits v 11 0)) s
    else if off % 32 = 0x18 then thenDo (execMqCqDoorbell q (bits v 11 0)) s
    else s
  else s

/-- What a written word of the MCA page starts (R402, R403). -/
def mcaStarts (off v : Nat) (s : State) : State :=
  if off = 0x40 then
    onChange F.mcaCtrlCacheEn v (fun on u => if on then execBlockEnableWrite .mca (some 0) true false u else execMcaCacheDisable u) s
  else if off = 0x48 then
    forEach [1, 2, 3] (fun g t =>
      if bit v g == bit (getF F.mcaWaysGroupOn t) (g - 1) then t
      else if bit v g then thenDo (execMcaGroupOn g) t else thenDo (execMcaGroupOff g) t) s
  else s

/-- What a written word of the PAR page starts (R453, R454, R463). -/
def parStarts (off v : Nat) (s : State) : State :=
  if off = 0x40 then enablesWritten .par [0, 1, 2] v s
  else if off = 0x68 then
    if bits v 1 0 = 1 then thenDo execMemberDeclareFailed s else if bits v 1 0 = 2 then thenDo execMemberDeclareRetiring s else s
  else if off = 0x78 then thenDo (execLostLogAck (bits v 14 0)) s
  else s

/-- What a written word of a block-specific page starts. [DEDUCED: log entry 126] -/
def blockStarts (b : Block) (pg off v : Nat) (s : State) : State :=
  match b with
  | .hpe p => hpeStarts p off v s
  | .mge => mgeStarts off v s
  | .fab p =>
    if off = 0x40 then if bit v 3 then thenDo (execFabLinkRestart p) s else s
    else if off = 0xA0 then enablesWritten b [0] v s else s
  | .toe => if pg = 0 && off = 0x40 then enablesWritten b [0, 1, 4] v s else s
  | .hqe => if pg = 0 && off = 0x40 then enablesWritten b [0, 1] v s else s
  | .dge | .ldc =>
    if pg = 0 && off = 0x40 then enablesWritten b [0, 1] v s else if pg = 0 && off = 0x44 then lanesWritten b false v s else s
  | .cry => if pg = 0 && off = 0x40 then enablesWritten b [0] v s else if pg = 0 && off = 0x44 then lanesWritten b false v s else s
  | .cmp =>
    if pg = 0 && off = 0x40 then enablesWritten b [0, 1] v s
    else if pg = 0 && off = 0x44 then lanesWritten b false v s
    else if pg = 0 && off = 0x48 then lanesWritten b true v s else s
  | .fiu =>
    if pg = 0 && off = 0x40 then enablesWritten b [0, 1, 2] v s
    else if pg = 0 && off = 0x48 && bits v 15 0 ≠ getF F.fiuBankEnBankOn s then thenDo (execBankPower (bits v 15 0)) s else s
  | .ftu => if pg = 0 && off = 0x40 then enablesWritten b [0, 1, 3] v s else s
  | .mca => mcaStarts off v s
  | .par => parStarts off v s
  | .mpt m =>
    if off = 0x40 then
      let s := onChange (F.mptLinkCtrlPerst m) v (execMptPerst m) s
      if bit v 5 then thenDo (execLinkRetrain b) s else s
    else s
  | .tl n =>
    if off = 0x40 then if bit v 9 then thenDo (execLinkRetrain b) s else s
    else if off = 0x64 then if bit v 0 then thenDo (execWinCommit n) s else s
    else s
  | .mir => if off = 0x40 then enablesWritten b [0, 1, 2] v s else s
  | .ocu => if off = 0x40 then enablesWritten b [0] v s else s
  | .eph =>
    if pg = 0 && off = 0x40 then enablesWritten b [0, 1] v s
    else if pg = 0 && off = 0x70 then if bit v 0 then thenDo execEphSet s else s
    else s
  | .fco => if off = 0x60 then thenDo (execInjectArm (bits v 7 0)) s else s
  | .evr =>
    if off = 0x5C then thenDo (execEvrRecordSelect v) s else if off = 0x80 then thenDo (execEvrRelease v) s else s
  | .sec => if pg = 1 && off = 0x40 then if bit v 0 then thenDo execQuoteStart s else s else s
  | .pwc =>
    if off = 0x40 then if bit v 0 then thenDo execOrderlyShutdown s else s
    else if off = 0x4C then thenDo (execPwcRstWrite (bits v 15 0)) s
    else s
  | .bld => if off = 0x88 then thenDo (execFwReject (bits v 15 0)) s else s
  | _ => s

/-- A 32-bit register write: the fields stored, then what they start. A block that is power-gated or in reset takes no write
of its own words (R60). [DEDUCED: log entry 126] -/
def regWord (addr v : Nat) (s : State) : State :=
  match blockAt addr with
  | none => s
  | some (b, pg) =>
    let off := addr % 0x1000
    let t := writeWord addr v s
    if off < 0x40 then headerStarts b pg off v t
    else if getF (H.pwrState b) s = 2 || getF (H.state b) s = 5 then t
    else blockStarts b pg off v t

/-- REGISTER_WRITE (R9, R51–R54): a naturally aligned 4- or 8-byte write, the lower word of 8 bytes first; any other is
discarded with a Notice. A field that has a command of its own does here what that command does.
[DEDUCED: log entries 13, 126] -/
def execRegisterWrite (addr size value : Nat) (s : State) : Res :=
  .next (
    if s.pwc.held then s
    else if size = 4 && addr % 4 = 0 then regWord addr (value % 2 ^ 32) s
    else if size = 8 && addr % 8 = 0 then
      regWord (addr + 4) (value / 2 ^ 32 % 2 ^ 32) (regWord addr (value % 2 ^ 32) s)
    else fcoNotice s)

end Sys2Proof.Machine
end

