-- ==== Sys2Proof/Machine/Dispatch.lean ====
section
/-! DEFINITION. exec: one arm per command, each one direct call of its meaning. -/

namespace Sys2Proof.Machine

def exec (i : Instr) (s : State) : Host.Outcome State Fault Refusal :=
  match i with
  | .registerWrite addr size value => Sys2Proof.Machine.execRegisterWrite addr size value s
  | .latchReadLo addr => Sys2Proof.Machine.execLatchReadLo addr s
  | .blockEnableWrite b bit on microcode => Sys2Proof.Machine.execBlockEnableWrite b bit on microcode s
  | .softReset b => Sys2Proof.Machine.execSoftReset b s
  | .commit b page => Sys2Proof.Machine.execCommit b page s
  | .commitApply b page => Sys2Proof.Machine.execCommitApply b page s
  | .discard b page => Sys2Proof.Machine.execDiscard b page s
  | .errInjectWrite b bit lane => Sys2Proof.Machine.execErrInjectWrite b bit lane s
  | .injectTakeEffect b => Sys2Proof.Machine.execInjectTakeEffect b s
  | .counterClear b => Sys2Proof.Machine.execCounterClear b s
  | .powerRequest b req => Sys2Proof.Machine.execPowerRequest b req s
  | .powerTransitionDone b => Sys2Proof.Machine.execPowerTransitionDone b s
  | .mqSqEnable q on => Sys2Proof.Machine.execMqSqEnable q on s
  | .mqCqEnable q on => Sys2Proof.Machine.execMqCqEnable q on s
  | .mqSqDoorbell q tail => Sys2Proof.Machine.execMqSqDoorbell q tail s
  | .mqCqDoorbell q head => Sys2Proof.Machine.execMqCqDoorbell q head s
  | .mqFetch q d bodyErr => Sys2Proof.Machine.execMqFetch q d bodyErr s
  | .nop q tag => Sys2Proof.Machine.execNop q tag s
  | .txnCommit q tag id instant => Sys2Proof.Machine.execTxnCommit q tag id instant s
  | .txnAbortOnly q tag id => Sys2Proof.Machine.execTxnAbortOnly q tag id s
  | .txnFreeze id => Sys2Proof.Machine.execTxnFreeze id s
  | .txnApply id => Sys2Proof.Machine.execTxnApply id s
  | .txnHoldEnd id => Sys2Proof.Machine.execTxnHoldEnd id s
  | .portConventionalReset p cause => Sys2Proof.Machine.execPortConventionalReset p cause s
  | .perstDeassert p => Sys2Proof.Machine.execPerstDeassert p s
  | .hpeLinkUp p speed width flit => Sys2Proof.Machine.execHpeLinkUp p speed width flit s
  | .linkRetrain b => Sys2Proof.Machine.execLinkRetrain b s
  | .portHoldDetect p hold => Sys2Proof.Machine.execPortHoldDetect p hold s
  | .mgeConventionalReset => Sys2Proof.Machine.execMgeConventionalReset s
  | .flr p f => Sys2Proof.Machine.execFlr p f s
  | .flrComplete p f => Sys2Proof.Machine.execFlrComplete p f s
  | .vfEnableChange p numVfs enable => Sys2Proof.Machine.execVfEnableChange p numVfs enable s
  | .vfBlock p f block => Sys2Proof.Machine.execVfBlock p f block s
  | .configRequest p f wr => Sys2Proof.Machine.execConfigRequest p f wr s
  | .unsupportedRequest b posted vdm1 => Sys2Proof.Machine.execUnsupportedRequest b posted vdm1 s
  | .poisonedWriteRx b poisoned => Sys2Proof.Machine.execPoisonedWriteRx b poisoned s
  | .hostReadCompletion p f tag bytes bad poisoned => Sys2Proof.Machine.execHostReadCompletion p f tag bytes bad poisoned s
  | .completionTimeout p f tag => Sys2Proof.Machine.execCompletionTimeout p f tag s
  | .tagQuarantineEnd p f tag => Sys2Proof.Machine.execTagQuarantineEnd p f tag s
  | .sqDoorbell c qid tail => Sys2Proof.Machine.execSqDoorbell c qid tail s
  | .cqDoorbell c qid head => Sys2Proof.Machine.execCqDoorbell c qid head s
  | .sqFetch c qid e => Sys2Proof.Machine.execSqFetch c qid e s
  | .ccEnable c asq acq => Sys2Proof.Machine.execCcEnable c asq acq s
  | .cstsRdySet c => Sys2Proof.Machine.execCstsRdySet c s
  | .shutdownNotification c => Sys2Proof.Machine.execShutdownNotification c s
  | .shutdownComplete c => Sys2Proof.Machine.execShutdownComplete c s
  | .qosRefillTick => Sys2Proof.Machine.execQosRefillTick s
  | .deleteIoSq h qid => Sys2Proof.Machine.execDeleteIoSq h qid s
  | .deleteSqDone h => Sys2Proof.Machine.execDeleteSqDone h s
  | .createIoSq h qid size cqid prio pc => Sys2Proof.Machine.execCreateIoSq h qid size cqid prio pc s
  | .getLogPage h lid => Sys2Proof.Machine.execGetLogPage h lid s
  | .deleteIoCq h qid => Sys2Proof.Machine.execDeleteIoCq h qid s
  | .createIoCq h qid size vector ien pc => Sys2Proof.Machine.execCreateIoCq h qid size vector ien pc s
  | .identify h cns => Sys2Proof.Machine.execIdentify h cns s
  | .abort h => Sys2Proof.Machine.execAbort h s
  | .setFeatures h fid value => Sys2Proof.Machine.execSetFeatures h fid value s
  | .getFeatures h fid => Sys2Proof.Machine.execGetFeatures h fid s
  | .asyncEventRequest h => Sys2Proof.Machine.execAsyncEventRequest h s
  | .keepAlive h => Sys2Proof.Machine.execKeepAlive h s
  | .formatNvm h nsid lbaf ses => Sys2Proof.Machine.execFormatNvm h nsid lbaf ses s
  | .hostSanitize h sanact ause => Sys2Proof.Machine.execHostSanitize h sanact ause s
  | .fabricConnect conn qid cntlid kato size nqn disc => Sys2Proof.Machine.execFabricConnect conn qid cntlid kato size nqn disc s
  | .propertyGet h offset => Sys2Proof.Machine.execPropertyGet h offset s
  | .propertySet h offset value => Sys2Proof.Machine.execPropertySet h offset value s
  | .flush h => Sys2Proof.Machine.execFlush h s
  | .write h data => Sys2Proof.Machine.execWrite h data s
  | .read h => Sys2Proof.Machine.execRead h s
  | .compare h data => Sys2Proof.Machine.execCompare h data s
  | .writeZeroes h => Sys2Proof.Machine.execWriteZeroes h s
  | .datasetManagement h => Sys2Proof.Machine.execDatasetManagement h s
  | .verify h => Sys2Proof.Machine.execVerify h s
  | .reservationRegister h action key newKey ignoreKey ptpl => Sys2Proof.Machine.execReservationRegister h action key newKey ignoreKey ptpl s
  | .reservationReport h => Sys2Proof.Machine.execReservationReport h s
  | .reservationAcquire h action rtype key preemptKey => Sys2Proof.Machine.execReservationAcquire h action rtype key preemptKey s
  | .reservationRelease h action rtype key => Sys2Proof.Machine.execReservationRelease h action rtype key s
  | .powerStateTransitionDone => Sys2Proof.Machine.execPowerStateTransitionDone s
  | .formatBegin nsid => Sys2Proof.Machine.execFormatBegin nsid s
  | .formatComplete nsid => Sys2Proof.Machine.execFormatComplete nsid s
  | .sanitizeComplete ok => Sys2Proof.Machine.execSanitizeComplete ok s
  | .nsCreate q tag body peerRefuses => Sys2Proof.Machine.execNsCreate q tag body peerRefuses s
  | .nsDelete q tag nsid withSnaps => Sys2Proof.Machine.execNsDelete q tag nsid withSnaps s
  | .nsModify q tag body => Sys2Proof.Machine.execNsModify q tag body s
  | .anaGroupSet q tag group action peerRefuses => Sys2Proof.Machine.execAnaGroupSet q tag group action peerRefuses s
  | .sanitize q tag sanact ause => Sys2Proof.Machine.execSanitize q tag sanact ause s
  | .format q tag nsid lbaf ses => Sys2Proof.Machine.execFormat q tag nsid lbaf ses s
  | .mirrorAck slot => Sys2Proof.Machine.execMirrorAck slot s
  | .slotReleaseAck slot => Sys2Proof.Machine.execSlotReleaseAck slot s
  | .destageStart slot => Sys2Proof.Machine.execDestageStart slot s
  | .fingerprintDone u => Sys2Proof.Machine.execFingerprintDone u s
  | .indexDecision u => Sys2Proof.Machine.execIndexDecision u s
  | .tier1InsertDone fptIdx => Sys2Proof.Machine.execTier1InsertDone fptIdx s
  | .compressDone u => Sys2Proof.Machine.execCompressDone u s
  | .groupWaitExpiry g => Sys2Proof.Machine.execGroupWaitExpiry g s
  | .encryptDone u => Sys2Proof.Machine.execEncryptDone u s
  | .clauseApply u => Sys2Proof.Machine.execClauseApply u s
  | .filterRebuild => Sys2Proof.Machine.execFilterRebuild s
  | .scrubSegment seg sramBad dramBad => Sys2Proof.Machine.execScrubSegment seg sramBad dramBad s
  | .bankReloadDone bank => Sys2Proof.Machine.execBankReloadDone bank s
  | .bankPower mask => Sys2Proof.Machine.execBankPower mask s
  | .fptRefill => Sys2Proof.Machine.execFptRefill s
  | .bgdMerge nsid unit keep => Sys2Proof.Machine.execBgdMerge nsid unit keep s
  | .expandDone r => Sys2Proof.Machine.execExpandDone r s
  | .decryptDone r stored => Sys2Proof.Machine.execDecryptDone r stored s
  | .bulkCompressJob job => Sys2Proof.Machine.execBulkCompressJob job s
  | .bulkExpandJob job => Sys2Proof.Machine.execBulkExpandJob job s
  | .keyLoad q tag body peerStatus => Sys2Proof.Machine.execKeyLoad q tag body peerStatus s
  | .keyPurge q tag handle => Sys2Proof.Machine.execKeyPurge q tag handle s
  | .purgeDrained kind slot => Sys2Proof.Machine.execPurgeDrained kind slot s
  | .keyRestore => Sys2Proof.Machine.execKeyRestore s
  | .dgeJob ring d => Sys2Proof.Machine.execDgeJob ring d s
  | .dgeJobComplete ctx data expect busErr incoherent => Sys2Proof.Machine.execDgeJobComplete ctx data expect busErr incoherent s
  | .dgeQuantumExpiry lane => Sys2Proof.Machine.execDgeQuantumExpiry lane s
  | .dgeContextExpiry ctx => Sys2Proof.Machine.execDgeContextExpiry ctx s
  | .dgeAlarm source => Sys2Proof.Machine.execDgeAlarm source s
  | .glitchTrip detector => Sys2Proof.Machine.execGlitchTrip detector s
  | .mrExtend source mr event digest => Sys2Proof.Machine.execMrExtend source mr event digest s
  | .quoteStart => Sys2Proof.Machine.execQuoteStart s
  | .quoteDone => Sys2Proof.Machine.execQuoteDone s
  | .mcaLookup epoch nsid unit => Sys2Proof.Machine.execMcaLookup epoch nsid unit s
  | .mcaFill epoch nsid line => Sys2Proof.Machine.execMcaFill epoch nsid line s
  | .mcaCleaner => Sys2Proof.Machine.execMcaCleaner s
  | .mcaGroupOff g => Sys2Proof.Machine.execMcaGroupOff g s
  | .mcaGroupOn g => Sys2Proof.Machine.execMcaGroupOn g s
  | .mcaAutoGate => Sys2Proof.Machine.execMcaAutoGate s
  | .mcaCacheDisable => Sys2Proof.Machine.execMcaCacheDisable s
  | .mcaResetReplay => Sys2Proof.Machine.execMcaResetReplay s
  | .mapPageLoad epoch nsid page => Sys2Proof.Machine.execMapPageLoad epoch nsid page s
  | .journalSpill => Sys2Proof.Machine.execJournalSpill s
  | .checkpointPageWrite epoch nsid page => Sys2Proof.Machine.execCheckpointPageWrite epoch nsid page s
  | .checkpointPageDone epoch nsid page flashAddr => Sys2Proof.Machine.execCheckpointPageDone epoch nsid page flashAddr s
  | .checkpointRoot => Sys2Proof.Machine.execCheckpointRoot s
  | .shadowCaughtUp peer => Sys2Proof.Machine.execShadowCaughtUp peer s
  | .metadataRecovery gap => Sys2Proof.Machine.execMetadataRecovery gap s
  | .mapPageRebuild epoch nsid page => Sys2Proof.Machine.execMapPageRebuild epoch nsid page s
  | .bandOpen cls isMeta isGc => Sys2Proof.Machine.execBandOpen cls isMeta isGc s
  | .bandSeal band early => Sys2Proof.Machine.execBandSeal band early s
  | .extentRequest m granted => Sys2Proof.Machine.execExtentRequest m granted s
  | .freeSpaceEval => Sys2Proof.Machine.execFreeSpaceEval s
  | .gcVictimSelect => Sys2Proof.Machine.execGcVictimSelect s
  | .relocate nsid unit old new reencoded => Sys2Proof.Machine.execRelocate nsid unit old new reencoded s
  | .erasePending band => Sys2Proof.Machine.execErasePending band s
  | .eraseDone band => Sys2Proof.Machine.execEraseDone band s
  | .fixupWalk epoch nsid unit => Sys2Proof.Machine.execFixupWalk epoch nsid unit s
  | .programFail m block => Sys2Proof.Machine.execProgramFail m block s
  | .eraseFail m block => Sys2Proof.Machine.execEraseFail m block s
  | .paritySend band stripe => Sys2Proof.Machine.execParitySend band stripe s
  | .stripeComplete band stripe => Sys2Proof.Machine.execStripeComplete band stripe s
  | .openStripeComplete band stripe unreadable => Sys2Proof.Machine.execOpenStripeComplete band stripe unreadable s
  | .memberTimeout m q cid => Sys2Proof.Machine.execMemberTimeout m q cid s
  | .reconstructDone r others pq => Sys2Proof.Machine.execReconstructDone r others pq s
  | .memberFailed m => Sys2Proof.Machine.execMemberFailed m s
  | .memberDeclareFailed => Sys2Proof.Machine.execMemberDeclareFailed s
  | .memberDeclareRetiring => Sys2Proof.Machine.execMemberDeclareRetiring s
  | .memberDeclaration m state => Sys2Proof.Machine.execMemberDeclaration m state s
  | .memberGraceExpiry m peerDownToo => Sys2Proof.Machine.execMemberGraceExpiry m peerDownToo s
  | .rebuildPlanTick => Sys2Proof.Machine.execRebuildPlanTick s
  | .rebuildStart m => Sys2Proof.Machine.execRebuildStart m s
  | .rebuildBand band => Sys2Proof.Machine.execRebuildBand band s
  | .memberReleased m => Sys2Proof.Machine.execMemberReleased m s
  | .lostLogAck n => Sys2Proof.Machine.execLostLogAck n s
  | .patrolStripe band stripe mismatch oneChunk allUnitsPass failing => Sys2Proof.Machine.execPatrolStripe band stripe mismatch oneChunk allUnitsPass failing s
  | .patrolPeriodEnd => Sys2Proof.Machine.execPatrolPeriodEnd s
  | .mptPerst m assert => Sys2Proof.Machine.execMptPerst m assert s
  | .mptLinkUp m speed width flit fence => Sys2Proof.Machine.execMptLinkUp m speed width flit fence s
  | .mptLinkDown m => Sys2Proof.Machine.execMptLinkDown m s
  | .moduleAdmit m rec_ ym => Sys2Proof.Machine.execModuleAdmit m rec_ ym s
  | .moduleAlert m rec_ => Sys2Proof.Machine.execModuleAlert m rec_ s
  | .sidebandPoll m ystat => Sys2Proof.Machine.execSidebandPoll m ystat s
  | .ymCompletion m q cid status detail => Sys2Proof.Machine.execYmCompletion m q cid status detail s
  | .programAccepted m q cid => Sys2Proof.Machine.execProgramAccepted m q cid s
  | .programFinal m q cid status => Sys2Proof.Machine.execProgramFinal m q cid status s
  | .codewordDecode lane m block pu cw status bits => Sys2Proof.Machine.execCodewordDecode lane m block pu cw status bits s
  | .readRetry m block pu cw step => Sys2Proof.Machine.execReadRetry m block pu cw step s
  | .systemRecordMove => Sys2Proof.Machine.execSystemRecordMove s
  | .servoUpdate source => Sys2Proof.Machine.execServoUpdate source s
  | .ptpEventMessage port offset => Sys2Proof.Machine.execPtpEventMessage port offset s
  | .ptpAnnounce port quality => Sys2Proof.Machine.execPtpAnnounce port quality s
  | .ptpAnnounceTimeout port => Sys2Proof.Machine.execPtpAnnounceTimeout port s
  | .ppsEdge => Sys2Proof.Machine.execPpsEdge s
  | .ephSet => Sys2Proof.Machine.execEphSet s
  | .ephSetTimeout => Sys2Proof.Machine.execEphSetTimeout s
  | .ppsOutRise => Sys2Proof.Machine.execPpsOutRise s
  | .ppsOutFall => Sys2Proof.Machine.execPpsOutFall s
  | .entryFire e => Sys2Proof.Machine.execEntryFire e s
  | .windowClose k => Sys2Proof.Machine.execWindowClose k s
  | .cutGuardEnd epoch => Sys2Proof.Machine.execCutGuardEnd epoch s
  | .epochReady epoch => Sys2Proof.Machine.execEpochReady epoch s
  | .epochReserveRefill numbers => Sys2Proof.Machine.execEpochReserveRefill numbers s
  | .snapCreate q tag body => Sys2Proof.Machine.execSnapCreate q tag body s
  | .snapDelete q tag nsid epoch => Sys2Proof.Machine.execSnapDelete q tag nsid epoch s
  | .snapDeleteWalk epoch => Sys2Proof.Machine.execSnapDeleteWalk epoch s
  | .cloneCreate q tag body => Sys2Proof.Machine.execCloneCreate q tag body s
  | .ephPlace q tag body => Sys2Proof.Machine.execEphPlace q tag body s
  | .ephRemove q tag entry => Sys2Proof.Machine.execEphRemove q tag entry s
  | .replSetup q tag body => Sys2Proof.Machine.execReplSetup q tag body s
  | .replTeardown q tag streamId promote keepBase => Sys2Proof.Machine.execReplTeardown q tag streamId promote keepBase s
  | .hello conn f nonce => Sys2Proof.Machine.execHello conn f nonce s
  | .helloAck conn f => Sys2Proof.Machine.execHelloAck conn f s
  | .cutBegin conn f => Sys2Proof.Machine.execCutBegin conn f s
  | .fpBatch conn f => Sys2Proof.Machine.execFpBatch conn f s
  | .need conn f => Sys2Proof.Machine.execNeed conn f s
  | .replData conn f => Sys2Proof.Machine.execReplData conn f s
  | .replUnmap conn f => Sys2Proof.Machine.execReplUnmap conn f s
  | .cutEnd conn f => Sys2Proof.Machine.execCutEnd conn f s
  | .cutCommit conn f => Sys2Proof.Machine.execCutCommit conn f s
  | .syncWrite conn f => Sys2Proof.Machine.execSyncWrite conn f s
  | .syncAck conn f => Sys2Proof.Machine.execSyncAck conn f s
  | .keepalive conn f => Sys2Proof.Machine.execKeepalive conn f s
  | .keepaliveSend conn => Sys2Proof.Machine.execKeepaliveSend conn s
  | .replAbort conn f => Sys2Proof.Machine.execReplAbort conn f s
  | .replConnIdleTimeout conn => Sys2Proof.Machine.execReplConnIdleTimeout conn s
  | .replConnectRetry streamId port opened => Sys2Proof.Machine.execReplConnectRetry streamId port opened s
  | .syncGraceExpiry h => Sys2Proof.Machine.execSyncGraceExpiry h s
  | .replReconnect streamId => Sys2Proof.Machine.execReplReconnect streamId s
  | .fabLinkUp port speed => Sys2Proof.Machine.execFabLinkUp port speed s
  | .fabLinkDown port => Sys2Proof.Machine.execFabLinkDown port s
  | .fabLinkRestart port => Sys2Proof.Machine.execFabLinkRestart port s
  | .tcpSyn port dstPort remote rport => Sys2Proof.Machine.execTcpSyn port dstPort remote rport s
  | .rdmaConnectRequest port service remote rqpn unsupported => Sys2Proof.Machine.execRdmaConnectRequest port service remote rqpn unsupported s
  | .icreq conn hdgst ddgst unsupported => Sys2Proof.Machine.execIcreq conn hdgst ddgst unsupported s
  | .capsuleReceived conn e hdgstBad ddgstBad malformed => Sys2Proof.Machine.execCapsuleReceived conn e hdgstBad ddgstBad malformed s
  | .associationEnd conn => Sys2Proof.Machine.execAssociationEnd conn s
  | .keepAliveTimeout index => Sys2Proof.Machine.execKeepAliveTimeout index s
  | .tcpRtoExpiry conn => Sys2Proof.Machine.execTcpRtoExpiry conn s
  | .roceRetryTimeout conn limit => Sys2Proof.Machine.execRoceRetryTimeout conn limit s
  | .arpRequest port addr v6 => Sys2Proof.Machine.execArpRequest port addr v6 s
  | .lldpFrame port => Sys2Proof.Machine.execLldpFrame port s
  | .pfcFrame port pause => Sys2Proof.Machine.execPfcFrame port pause s
  | .troysWrite link pkt data => Sys2Proof.Machine.execTroysWrite link pkt data s
  | .troysAck ch cseq credit => Sys2Proof.Machine.execTroysAck ch cseq credit s
  | .troysNak link ch cseq cause => Sys2Proof.Machine.execTroysNak link ch cseq cause s
  | .troysMsg link pkt msg => Sys2Proof.Machine.execTroysMsg link pkt msg s
  | .troysLinkUp link speed width => Sys2Proof.Machine.execTroysLinkUp link speed width s
  | .troysLinkDown link => Sys2Proof.Machine.execTroysLinkDown link s
  | .winCommit link => Sys2Proof.Machine.execWinCommit link s
  | .join rec_ => Sys2Proof.Machine.execJoin rec_ s
  | .resync => Sys2Proof.Machine.execResync s
  | .mirrorCurrent => Sys2Proof.Machine.execMirrorCurrent s
  | .forwardedCommand tag host e => Sys2Proof.Machine.execForwardedCommand tag host e s
  | .forwardCompletion tag st data => Sys2Proof.Machine.execForwardCompletion tag st data s
  | .refcountMessage uaddr add => Sys2Proof.Machine.execRefcountMessage uaddr add s
  | .digestWindowClose => Sys2Proof.Machine.execDigestWindowClose s
  | .digestMessage msg => Sys2Proof.Machine.execDigestMessage msg s
  | .arbitrate stream first => Sys2Proof.Machine.execArbitrate stream first s
  | .arbitrationVerdict stream ownOk peerOk => Sys2Proof.Machine.execArbitrationVerdict stream ownOk peerOk s
  | .answerLate first => Sys2Proof.Machine.execAnswerLate first s
  | .heartbeatSend => Sys2Proof.Machine.execHeartbeatSend s
  | .heartbeatWord w => Sys2Proof.Machine.execHeartbeatWord w s
  | .heartbeatSilent => Sys2Proof.Machine.execHeartbeatSilent s
  | .digestStreamTimeout => Sys2Proof.Machine.execDigestStreamTimeout s
  | .peerFault => Sys2Proof.Machine.execPeerFault s
  | .fenceStaggerExpiry => Sys2Proof.Machine.execFenceStaggerExpiry s
  | .fenceCasComplete m value => Sys2Proof.Machine.execFenceCasComplete m value s
  | .fenceCasTimeout m => Sys2Proof.Machine.execFenceCasTimeout m s
  | .fenceDecision => Sys2Proof.Machine.execFenceDecision s
  | .ownershipMove q tag groups => Sys2Proof.Machine.execOwnershipMove q tag groups s
  | .modeRestore q tag => Sys2Proof.Machine.execModeRestore q tag s
  | .errorPulse b bit lane => Sys2Proof.Machine.execErrorPulse b bit lane s
  | .incidentClose number => Sys2Proof.Machine.execIncidentClose number s
  | .wdog core => Sys2Proof.Machine.execWdog core s
  | .suppressionFlush code => Sys2Proof.Machine.execSuppressionFlush code s
  | .evrRead q tag firstSeq count dataLen release fromOldest => Sys2Proof.Machine.execEvrRead q tag firstSeq count dataLen release fromOldest s
  | .evrRecordSelect seq => Sys2Proof.Machine.execEvrRecordSelect seq s
  | .evrRelease seq => Sys2Proof.Machine.execEvrRelease seq s
  | .injectArm arm => Sys2Proof.Machine.execInjectArm arm s
  | .injectArmTimeout => Sys2Proof.Machine.execInjectArmTimeout s
  | .mgmtSidebandRead addr => Sys2Proof.Machine.execMgmtSidebandRead addr s
  | .mgmtSidebandWrite addr value => Sys2Proof.Machine.execMgmtSidebandWrite addr value s
  | .powerCycle => Sys2Proof.Machine.execPowerCycle s
  | .coldReset => Sys2Proof.Machine.execColdReset s
  | .coldResetRelease => Sys2Proof.Machine.execColdResetRelease s
  | .startupStage fail hir => Sys2Proof.Machine.execStartupStage fail hir s
  | .roleDecision fences casWon => Sys2Proof.Machine.execRoleDecision fences casWon s
  | .vaultRestore => Sys2Proof.Machine.execVaultRestore s
  | .warmReset => Sys2Proof.Machine.execWarmReset s
  | .pwcRstWrite key => Sys2Proof.Machine.execPwcRstWrite key s
  | .powerFail => Sys2Proof.Machine.execPowerFail s
  | .vaultDumpDone restored ms => Sys2Proof.Machine.execVaultDumpDone restored ms s
  | .supply rail => Sys2Proof.Machine.execSupply rail s
  | .clockLoss input => Sys2Proof.Machine.execClockLoss input s
  | .laneEnableWrite b expand mask => Sys2Proof.Machine.execLaneEnableWrite b expand mask s
  | .laneAutoGate b lane => Sys2Proof.Machine.execLaneAutoGate b lane s
  | .headStateEval => Sys2Proof.Machine.execHeadStateEval s
  | .orderlyShutdown => Sys2Proof.Machine.execOrderlyShutdown s
  | .shutDone => Sys2Proof.Machine.execShutDone s
  | .sensorRead temps failed => Sys2Proof.Machine.execSensorRead temps failed s
  | .throttleRelease => Sys2Proof.Machine.execThrottleRelease s
  | .fwPiece q tag imageId piece pcrc restart data => Sys2Proof.Machine.execFwPiece q tag imageId piece pcrc restart data s
  | .fwActivate q tag imageId resetNow aloneOk => Sys2Proof.Machine.execFwActivate q tag imageId resetNow aloneOk s
  | .fwDiscard q tag => Sys2Proof.Machine.execFwDiscard q tag s
  | .settingsWrite q tag block => Sys2Proof.Machine.execSettingsWrite q tag block s
  | .firmwareInstall => Sys2Proof.Machine.execFirmwareInstall s
  | .fwConfirm => Sys2Proof.Machine.execFwConfirm s
  | .bootWatchdogExpiry => Sys2Proof.Machine.execBootWatchdogExpiry s
  | .fwReject key => Sys2Proof.Machine.execFwReject key s
  | .softResetDone b => Sys2Proof.Machine.execSoftResetDone b s
  | .aggregationTimeExpiry c qid => Sys2Proof.Machine.execAggregationTimeExpiry c qid s
  | .stripeCloseDeadline band stripe => Sys2Proof.Machine.execStripeCloseDeadline band stripe s
  | .tier1RemovalDone fptIdx => Sys2Proof.Machine.execTier1RemovalDone fptIdx s
  | .programEraseTimeout m q cid tenfold => Sys2Proof.Machine.execProgramEraseTimeout m q cid tenfold s
  | .controllerReset c => Sys2Proof.Machine.execControllerReset c s
  | .jtagAccess => Sys2Proof.Machine.execJtagAccess s
  | .h2cdataReceived h bytes => Sys2Proof.Machine.execH2cdataReceived h bytes s
  | .transmitAcknowledged conn bytes nak => Sys2Proof.Machine.execTransmitAcknowledged conn bytes nak s
  | .congestionNotificationPacket conn => Sys2Proof.Machine.execCongestionNotificationPacket conn s
  | .pfcStorm port => Sys2Proof.Machine.execPfcStorm port s

end Sys2Proof.Machine
end

