-- ==== Sys2Proof/Safety.lean ====
section
/-! DEFINITION. What counts as a safe run, and the conditions that the statements about commands name. -/

namespace Sys2Proof.Machine

/-- The step from `s` answers a next state. -/
def Goes (s : State) : Prop := ∃ t, step s = .next t

/-- Every state within `k` steps answers a next state. -/
def Safe : Nat → State → Prop
  | 0, _ => True
  | k + 1, s => ∃ t, step s = .next t ∧ Safe k t

/-- The I/O command `c` of handle `h` is fetched with this opcode, and none of the checks that every I/O command meets
stops it: no sanitize, its namespace `x` exists for its tenant and is owned here, not being deleted or formatted, its
group not changing, its length, range, reservation, protection, key and capacity in order (R174, R222–R226, R235, R237,
R241, R245). -/
def ioClear (h opc : Nat) (n : Need) (c : Cmd) (x : Namespace) (s : State) : Bool :=
  ioReady h opc s == some c && !sanActive s && s.hqe.sanFail.isNone && nsOf c.sqe.nsid s == some x && x.deleting.isNone &&
  !(c.ctl.any fun k => tenantOf k s != x.tenant) && x.format.isNone && !((groupOf x.group s).any fun g => g.change) && ownsNs x s &&
  decide (c.sqe.len ≤ 0x200000) && (!n.range || decide (c.sqe.slba + c.sqe.nlb ≤ x.nsze)) &&
  !(n.resv.any fun w => resvConflict x.resv (hostOf c s) w) && !(n.resv == some true && x.protect) &&
  (!n.key || keyReady x s) && !(n.cap && (s.ftu.admitStop || s.par.blocked.contains x.layout))

/-- The frame `f` of type `typ` and direction `dir` on connection `conn` passes R547: its connection `r` is up, its stream `x` takes
frames of that direction, and its header, sequence number and MAC are right (R544, R545, R547). -/
def frameOk (conn typ dir : Nat) (f : Frame) (r : ReplConn) (x : Stream) (s : State) : Bool :=
  (s.repl.conns.find? (fun r => r.conn == conn && r.up) == some r && streamOf r.slot s == some x && x.body.target == (dir == 0) &&
   f.magic == frameMagic && f.version == 1 && f.streamId == x.body.streamId && f.dir == dir && f.fseq == r.rxSeq + 1 &&
   decide (f.payload.length ≤ 1114112)) && macOk x.mac r.nonce typ f

/-- The state in which the effect of such a frame happens: it is counted, and its FSEQ and arrival are noted. -/
def frameTaken (conn : Nat) (f : Frame) (s : State) : State :=
  let s := count .eph 0x05 1 s
  { s with repl.conns := modAll (fun c => c.conn == conn) (fun c => { c with rxSeq := f.fseq, lastRx := s.now }) s.repl.conns }

end Sys2Proof.Machine
end

