-- ==== Sys2Proof/Certificates/Slice0/Obligations.lean ====
section
/-! DEFINITION. The statements for the provers. Rules R<n> are those of spec/; a condition on the state names what its rules
ask, and each command's clause says in which next state it ends. -/

open Sys2Proof Sys2Proof.Machine

/-- REGISTER_WRITE: a 4-byte write of HDR_SPARE of any existing block stores the value and changes nothing else; a 4-byte
write of ERR_STAT clears the bits written as 1 and changes nothing but the register file and the output log; an
aligned 8-byte write is two 4-byte writes, the lower address first; a write of ERR_INJECT with INJ set, or of
EVR_RELEASE while EVR runs, does what ERR_INJECT_WRITE or EVR_RELEASE does (R59, R613); a write to an absent page
changes nothing; a write that is not naturally aligned 4 or 8 bytes is discarded and FCO records a Notice (R51, R52).
The model's own choices of log entries 13, 14, 18, 126 enter its clauses. -/
def Obligations.RegisterWriteReachesItsWord : Prop :=
  (∀ (b : Block) (v : Nat) (s : State), exists_ b = true → s.pwc.held = false → v < 2 ^ 32 →
      exec (.registerWrite (base b + 0x3C) 4 v) s = .next (setF (H.spare b) v s)) ∧
  (∀ (b : Block) (v : Nat) (s : State), exists_ b = true → s.pwc.held = false → v < 2 ^ 32 →
      ∃ t, exec (.registerWrite (base b + 0x10) 4 v) s = .next t ∧ getF (H.errStat b) t = bclrMask (getF (H.errStat b) s) v % 2 ^ 32 ∧
      t = { s with regs := t.regs, out := t.out }) ∧
  (∀ (a v : Nat) (s : State), s.pwc.held = false → a % 8 = 0 →
      exec (.registerWrite a 8 v) s = .next (regWord (a + 4) (v / 2 ^ 32 % 2 ^ 32) (regWord a (v % 2 ^ 32) s))) ∧
  (∀ (b : Block) (v : Nat) (s : State), exists_ b = true → s.pwc.held = false → v < 2 ^ 32 → bit v 8 = true →
      exec (.registerWrite (base b + 0x1C) 4 v) s = exec (.errInjectWrite b (bits v 4 0) (bits v 16 9)) s) ∧
  (∀ (v : Nat) (s : State), s.pwc.held = false → graved s = false → getF (H.pwrState .evr) s ≠ 2 →
    getF (H.state .evr) s ≠ 5 → v < 2 ^ 32 →
      exec (.registerWrite 0x3080 4 v) s = exec (.evrRelease v) s) ∧
  (∀ (a v : Nat) (s : State), s.pwc.held = false → a % 4 = 0 → blockAt a = none →
      exec (.registerWrite a 4 v) s = .next s) ∧
  (∀ (a n v : Nat) (s : State), s.pwc.held = false → ¬(n = 4 ∧ a % 4 = 0) → ¬(n = 8 ∧ a % 8 = 0) →
      exec (.registerWrite a n v) s = .next (fcoNotice s))

/-- LATCH_READ_LO and MGMT_SIDEBAND_READ: a read of CNT_VAL_LO of any existing block returns bits [31:0] of its counter
and latches bits [63:32] for CNT_VAL_HI; nothing else changes but the output log and the model's draw counter. The
sideband answers from 1 ms after the release of cold reset (R59, R677). A misaligned read is answered with Unsupported
Request and recorded (R52). Both are in service in the Grave state (R616). The model's own choices of log entries 3,
14 enter its clauses. -/
def Obligations.CounterReadLatchesHighWord : Prop :=
  (∀ (b : Block) (s : State), exists_ b = true → s.pwc.held = false →
      ∃ t, exec (.latchReadLo (base b + 0x34)) s = .next t ∧
      t.out = .mgeRead (base b + 0x34) (tget s.regs.cnt (base b) 0 % 2 ^ 32) :: s.out ∧
      tget t.regs.latchHi (base b + 0x38) 0 = tget s.regs.cnt (base b) 0 / 2 ^ 32 % 2 ^ 32 ∧
      t = { s with regs := { s.regs with latchHi := t.regs.latchHi }, out := t.out, free := s.free + 1 }) ∧
  (∀ (b : Block) (s : State), exists_ b = true → s.pwc.held = false → 1000000 ≤ s.now →
      ∃ t, exec (.mgmtSidebandRead (base b + 0x34)) s = .next t ∧
      t.out = .sideband (base b + 0x34) (tget s.regs.cnt (base b) 0 % 2 ^ 32) :: s.out ∧
      tget t.regs.latchHi (base b + 0x38) 0 = tget s.regs.cnt (base b) 0 / 2 ^ 32 % 2 ^ 32) ∧
  (∀ (a : Nat) (s : State), s.pwc.held = false → a % 4 ≠ 0 →
      exec (.latchReadLo a) s = .next (emit (.pcieUr .mge) (fcoNotice s)))

/-- COMMIT: with no capture waiting in the page and TXN 0, the shadow values of every shadowed field of the page are
captured as they stand and nothing else changes (R64); with a capture waiting the write is ignored (R67); with TXN 1
the page is armed in transaction TXN_ID, and with TXN_ID 0 the write is ignored in full (R71). DISCARD gives back the
captured values of a page that waits, else the active ones (R68). COMMIT_APPLY of a captured commit outside a
transaction, that its block does not refuse: COMMIT and COMMIT_BUSY clear in the page, COMMIT_SEQ increments modulo
65,536 and INT_STAT.COMMIT_DONE sets in page 0 of the set (R65); every shadowed field of the page that lies behind no
index register reads its captured value, whatever its shadow copy has become since (R64, R66), and no field of another
page but COMMIT_SEQ and INT_STAT changes. The window page of EPH also places its entries (R520) and is left out. The
model's own choices of log entries 3, 17 enter its clauses. -/
def Obligations.ShadowValuesAreCapturedAndApplied : Prop :=
  (∀ (b : Block) (pg : Nat) (s : State), halted s = false → exists_ b = true → pg < pages b →
    capOf b pg s = none → getF (H.txn b pg) s = 0 →
      exec (.commit b pg) s = .next { s with regs.caps := s.regs.caps ++
        [⟨b, pg, 0, indexOf b pg s, tslice s.regs.shd (pageLo b pg) (pageHi b pg)⟩] }) ∧
  (∀ (b : Block) (pg : Nat) (s : State), (capOf b pg s).isSome = true → exec (.commit b pg) s = .next s) ∧
  (∀ (b : Block) (pg n : Nat) (s : State), halted s = false → exists_ b = true → pg < pages b →
    capOf b pg s = none → getF (H.txn b pg) s = 1 → getF (H.txnId b pg) s = n →
      exec (.commit b pg) s = .next (if n = 0 then s else { s with regs.caps := s.regs.caps ++
        [⟨b, pg, n, indexOf b pg s, tslice s.regs.shd (pageLo b pg) (pageHi b pg)⟩] })) ∧
  (∀ (b : Block) (pg : Nat) (c : Capture) (s : State), halted s = false → capOf b pg s = some c →
      exec (.discard b pg) s = .next { s with regs.shd := treplace s.regs.shd (pageLo b pg) (pageHi b pg) c.vals }) ∧
  (∀ (b : Block) (pg : Nat) (s : State), halted s = false → capOf b pg s = none →
      ∃ t, exec (.discard b pg) s = .next t ∧ (∀ f, f.sh = true → pageLo b pg ≤ fkey f → fkey f < pageHi b pg → peekF f t = getF f s) ∧
      (∀ f, ¬(pageLo b pg ≤ fkey f ∧ fkey f < pageHi b pg) → peekF f t = peekF f s) ∧ t = { s with regs.shd := t.regs.shd }) ∧
  (∀ (b : Block) (pg : Nat) (c : Capture) (s : State), halted s = false → capOf b pg s = some c → c.txn = 0 →
    commitRefused c s = none → indexedFields b pg c.index = [] → indexOf b pg s = c.index → ¬(b = .eph ∧ pg = 1) →
      ∃ t, exec (.commitApply b pg) s = .next t ∧ capOf b pg t = none ∧
      getF (H.commitSeq b pg) t = (getF (H.commitSeq b pg) s + 1) % 65536 ∧ bit (getF (H.intStat b) t) 1 = true ∧
      (∀ f, f.sh = true → pageLo b pg ≤ fkey f → fkey f < pageHi b pg → getF f t = tget c.vals (fkey f) f.reset) ∧
      (∀ f, ¬(pageLo b pg ≤ fkey f ∧ fkey f < pageHi b pg) → fkey f ≠ fkey (H.intStat b) → getF f t = getF f s) ∧
      t = { s with regs := t.regs, out := t.out })

/-- BLOCK_ENABLE_WRITE: setting HDR_CTRL.EN of a block that is not in reset or fault, outside the Control and Memory
Planes, gives EN 1, STATE 2 Run; in the Control and Memory Planes EN is RO and nothing changes (R56). A service enable
of a block that is neither power-gated nor in reset takes the value written; a main-road enable is set by microcode,
and a driver's write of 1 changes nothing (R694). The model's own choices of log entry 3 enter its clauses. -/
def Obligations.EnablesSwitchTheirBlock : Prop :=
  (∀ (b : Block) (mc : Bool) (s : State), halted s = false → planeOf b ≠ .control → planeOf b ≠ .memory →
    (∀ w, b ≠ .wsp w) → blockDown b s = false →
      ∃ t, exec (.blockEnableWrite b none true mc) s = .next t ∧ getF (H.en b) t = 1 ∧ getF (H.state b) t = 2 ∧
      t = { s with regs := t.regs }) ∧
  (∀ (b : Block) (on mc : Bool) (s : State), (planeOf b = .control ∨ planeOf b = .memory) →
      exec (.blockEnableWrite b none on mc) s = .next s) ∧
  (∀ (b : Block) (n : Nat) (f : Fld) (on mc : Bool) (s : State), halted s = false →
    enableOf b n = some (f, .service) → getF (H.pwrState b) s ≠ 2 → getF (H.state b) s ≠ 5 →
      exec (.blockEnableWrite b (some n) on mc) s = .next (flagF f on s)) ∧
  (∀ (b : Block) (n : Nat) (f : Fld) (mc : Bool) (s : State), halted s = false →
    enableOf b n = some (f, .mainRoad) → getF (H.pwrState b) s ≠ 2 → getF (H.state b) s ≠ 5 →
      exec (.blockEnableWrite b (some n) true mc) s = .next (if mc then setF f 1 s else s))

/-- SOFT_RESET of a block of the Host, Reduction, Media or Pair Plane has the effect of a Class 2 reset of the block and
is recorded as a Notice, record 0x0010; in the Memory and Control Planes and in summary pages it changes nothing (R57,
R608). SOFT_RESET_DONE of a block in STATE 5 gives STATE 2, or 4 while EN is 0, clears RST_BUSY and sets RST_DONE. -/
def Obligations.SoftResetIsHonouredByPlane : Prop :=
  (∀ (b : Block) (s : State), halted s = false → srstHonoured b = true →
      exec (.softReset b) s =
      .next (evrEvent (mkRec 0x0010 0 (latchBit b) (inst b) 0xFF 0 (blockCode b) 0) (blockReset b s))) ∧
  (∀ (b : Block) (s : State), srstHonoured b = false → exec (.softReset b) s = .next s) ∧
  (∀ (b : Block) (s : State), halted s = false → getF (H.state b) s = 5 →
      ∃ t, exec (.softResetDone b) s = .next t ∧ getF (H.state b) t = (if onF (H.en b) s then 2 else 4) ∧ getF (H.rstBusy b) t = 0 ∧
      bit (getF (H.intStat b) t) 3 = true)

/-- MQ_SQ_ENABLE on a page-aligned base and a nonzero size gives SQ_EN 1 with head and tail 0, and otherwise ERR;
MQ_CQ_ENABLE checks its base, size and a vector of 8 or more, and starts with PHASE 1 at entry 0 (R79, R83).
MQ_SQ_DOORBELL and MQ_CQ_DOORBELL of an enabled half store an index within the queue and set DB_ERR for one beyond it
(R79). MGE is neither power-gated nor in reset (R60). The model's own choices of log entry 3 enter its clauses. -/
def Obligations.ManagementQueuesEnableAndRing : Prop :=
  (∀ (q : Nat) (s : State), halted s = false → mgeOff s = false → getF (F.mqCfgSqEn q) s = 0 →
    getF (F.mqSqBaseLoAddr q) s % 0x1000 = 0 → getF (F.mqCfgSqSize q) s ≠ 0 →
      exec (.mqSqEnable q true) s = .next (setF (F.mqStatSqHead q) 0 (setF (F.mqSqTailTail q) 0 (setF (F.mqCfgSqEn q) 1 s)))) ∧
  (∀ (q : Nat) (s : State), halted s = false → mgeOff s = false → getF (F.mqCfgSqEn q) s = 0 →
    (getF (F.mqSqBaseLoAddr q) s % 0x1000 ≠ 0 ∨ getF (F.mqCfgSqSize q) s = 0) →
      exec (.mqSqEnable q true) s = .next (setF (F.mqStatErr q) 1 s)) ∧
  (∀ (q : Nat) (s : State), halted s = false → mgeOff s = false → getF (F.mqCfgCqEn q) s = 0 →
    getF (F.mqCqBaseLoAddr q) s % 0x1000 = 0 → getF (F.mqCfgCqSize q) s ≠ 0 → 8 ≤ getF (F.mqCfgVector q) s →
      exec (.mqCqEnable q true) s = .next (setF (F.mqCqHeadHead q) 0 (setF (F.mqCfgCqEn q) 1
        { s with mgmt.queues := tset s.mgmt.queues q { cqTail := 0, phase := true } }))) ∧
  (∀ (q : Nat) (s : State), halted s = false → mgeOff s = false →
      exec (.mqCqEnable q false) s = .next (mqErrClear q (setF (F.mqCfgCqEn q) 0 s))) ∧
  (∀ (q n : Nat) (s : State), halted s = false → mgeOff s = false → getF (F.mqCfgSqEn q) s = 1 →
      exec (.mqSqDoorbell q n) s = .next (if n ≤ getF (F.mqCfgSqSize q) s then setF (F.mqSqTailTail q) n s else setF (F.mqStatDbErr q) 1 s)) ∧
  (∀ (q n : Nat) (s : State), halted s = false → mgeOff s = false → getF (F.mqCfgCqEn q) s = 1 →
      exec (.mqCqDoorbell q n) s = .next (if n ≤ getF (F.mqCfgCqSize q) s then setF (F.mqCqHeadHead q) n s else setF (F.mqStatDbErr q) 1 s))

/-- COUNTER_CLEAR zeroes the block's counter and no other (R59). POWER_REQUEST of 0, 1 or 2 sets MOVING and holds the
request; POWER_TRANSITION_DONE shows the requested state in PWR_STAT, clears MOVING and sets PWR_DONE (R630). A
request to a DDR channel or VLT is not carried out. ERR_INJECT_WRITE while injection is enabled, of an error that is
not Class 4, arms the block's injection in place of an earlier one; while injection is disabled it arms nothing and is
recorded, with INJ_REFUSED of FCO (R619, R620). INJECT_TAKE_EFFECT of an armed injection, in a block that runs, takes
the arming away and raises the error, marked as injected, in the lane of R59 (R59, R621). The model's own choices of
log entries 3, 18 enter its clauses. -/
def Obligations.CountersInjectionsAndPowerFollowTheirRequest : Prop :=
  (∀ (b : Block) (s : State), halted s = false →
      ∃ t, exec (.counterClear b) s = .next t ∧ tget t.regs.cnt (base b) 0 = 0 ∧
      (∀ k, k ≠ base b → tget t.regs.cnt k 0 = tget s.regs.cnt k 0) ∧ t = { s with regs := { s.regs with cnt := t.regs.cnt } }) ∧
  (∀ (b : Block) (r : Nat) (s : State), halted s = false → r < 3 → (∀ n, b ≠ .dmc n) → (∀ w, b ≠ .wsp w) →
    b ≠ .vlt →
      ∃ t, exec (.powerRequest b r) s = .next t ∧ getF (H.pwrReq b) t = r ∧ getF (H.pwrMoving b) t = 1 ∧
      t.pwc.moving = s.pwc.moving.filter (fun m => m.1 != b) ++ [(b, r)] ∧ getF (H.pwrState b) t = getF (H.pwrState b) s) ∧
  (∀ (b : Block) (r : Nat) (s : State), halted s = false → s.pwc.moving.find? (fun m => m.1 == b) = some (b, r) →
    r < 3 →
      ∃ t, exec (.powerTransitionDone b) s = .next t ∧ getF (H.pwrState b) t = r ∧ getF (H.pwrMoving b) t = 0 ∧
      bit (getF (H.intStat b) t) 4 = true ∧ t.pwc.moving = s.pwc.moving.filter fun m => m.1 != b) ∧
  (∀ (b : Block) (n l : Nat) (s : State), halted s = false → getF F.fcoInjCtlInjEn s ≠ 0 →
    errClass? b n ≠ some 4 →
      exec (.errInjectWrite b n l) s =
      .next { s with regs.armed := s.regs.armed.filter (fun a => a.blk != b) ++ [{ blk := b, bit := n, lane := l }] }) ∧
  (∀ (b : Block) (n l : Nat) (s : State), halted s = false → getF F.fcoInjCtlInjEn s = 0 →
      ∃ t, exec (.errInjectWrite b n l) s = .next t ∧ t.regs.armed = s.regs.armed ∧ t.fco = s.fco) ∧
  (∀ (b : Block) (a : Armed) (l : Nat) (s : State), halted s = false →
    s.regs.armed.find? (fun a => a.blk == b) = some a → getF (H.pwrState b) s ≠ 2 → getF (H.state b) s ≠ 5 →
    injectLane a s = some l →
      exec (.injectTakeEffect b) s = .next (errorLine true b a.bit l { s with regs.armed := s.regs.armed.filter fun x => x.blk != b }))

/-- MQ_FETCH of a queue that may fetch: the head advances and wraps after the last entry, and the control block waits with
the status that its descriptor's checks give it at once, if any (R80, R83, R84, R87, R698); a bus error of the entry
sets ERR, and nothing is fetched (R80). NOP that is ready completes with SUCCESS and result 0 (R88). The model's own
choices of log entry 19 enter its clauses. -/
def Obligations.ManagementFetchChecksItsDescriptor : Prop :=
  (∀ (q : Nat) (d : MgmtDesc) (e : Bool) (s : State), halted s = false → mqFetchable q s = true →
    descReject d e ≠ some stBusError →
      ∃ u, exec (.mqFetch q (some d) e) s = .next (mgmtRejects q u) ∧
      u.mgmt.cmds = s.mgmt.cmds ++ [⟨q, d.tag, d.opcode, d.fence, d.dataLen, false, descReject d e, false⟩] ∧
      getF (F.mqStatSqHead q) u = (if getF (F.mqStatSqHead q) s = getF (F.mqCfgSqSize q) s then 0 else getF (F.mqStatSqHead q) s + 1) % 4096 ∧
      getF (F.mqStatIdle q) u = 0) ∧
  (∀ (q : Nat) (e : Bool) (s : State), halted s = false → mqFetchable q s = true →
      exec (.mqFetch q none e) s = .next (setF (F.mqStatErr q) 1 s)) ∧
  (∀ (q tag : Nat) (s : State), halted s = false → mgmtReady q tag 0 s = true →
      exec (.nop q tag) s = .next (mgmtPost q tag stSuccess 0 (mgmtBegin q tag s)))

/-- Completing a control block of an enabled completion queue removes it from the blocks in progress, writes the entry at
the queue's tail with TAG, status, SQ_HEAD, result and the queue's PHASE, sends the queue's MSI-X vector, and advances
the tail, wrapping to entry 0 with PHASE inverted after the last (R83, R86). Of a disabled completion queue it is
discarded and recorded with its TAG and opcode (R81). The model's own choices of log entry 3 enter its clauses. -/
def Obligations.ManagementCompletionTakesTheTailEntry : Prop :=
  (∀ (q tag st r : Nat) (c : MgmtCmd) (s : State),
    s.mgmt.cmds.find? (fun c => c.q == q && c.tag == tag) = some c → c.unposted = false →
    getF (F.mqCfgCqEn q) s = 1 →
      let t := mgmtPost1 q tag st r s
    t.mgmt.cmds = s.mgmt.cmds.filter (fun c => !(c.q == q && c.tag == tag)) ∧
      t.out = .mgeMsix (getF (F.mqCfgVector q) s) :: .mgmtCpl q tag st (getF (F.mqStatSqHead q) s) r (mqOf q s).phase :: s.out ∧
      mqOf q t = (if (mqOf q s).cqTail = getF (F.mqCfgCqSize q) s then ⟨0, !(mqOf q s).phase⟩ else ⟨(mqOf q s).cqTail + 1, (mqOf q s).phase⟩)) ∧
  (∀ (q tag st r : Nat) (c : MgmtCmd) (s : State),
    s.mgmt.cmds.find? (fun c => c.q == q && c.tag == tag) = some c → c.unposted = false →
    getF (F.mqCfgCqEn q) s = 0 →
      mgmtPost1 q tag st r s = evrEvent (mkRec 0x0200 0 12 0 0xFF 0 (tag + 65536 * q) c.opcode)
        (mqIdle q { s with mgmt.cmds := s.mgmt.cmds.filter fun c => !(c.q == q && c.tag == tag) }))

/-- TXN_COMMIT that passes the checks of R90 schedules the transaction with an entry of the Ephemeris at its instant, or,
with INSTANT 0, freezes it at once (R72, R76). TXN_FREEZE freezes the pages armed with it, of which no block stands in
STATE 7 (R72, R74). TXN_APPLY at the instant takes it off the schedule and applies every capture of its members (R73).
TXN_HOLD_END lets HQE and destage resume, sets TXN_DONE of every member and completes it with SUCCESS; TXN_APPLY
without a member completes it with TXN_EMPTY, and TXN_ABORT_ONLY gives its pages their captured values back as shadow
values and completes with ABORTED, or TXN_EMPTY when there was nothing to abort (R74, R75, R90). The model's own
choices of log entries 3, 16 enter its clauses. -/
def Obligations.TransactionsCommitAtTheirInstant : Prop :=
  (∀ (q tag id T : Nat) (s : State), halted s = false → mgmtReady q tag 0x0080 s = true → id ≠ 0 → T ≠ 0 →
    T % 8 = 0 → timeUnset s = false → s.eph.time + 50000 ≤ T → s.txn.sched.any (fun t => t.id == id) = false →
    s.txn.holding.any (fun t => t.id == id) = false → (s.txn.sched.filter fun t => t.instant != 0).length < 32 →
    (freeEntry s).isSome = true →
      ∃ t, exec (.txnCommit q tag id T) s = .next t ∧ t.txn.sched = s.txn.sched ++ [⟨id, T, q, tag, none⟩] ∧
      t.eph.entries = s.eph.entries ++ [⟨(freeEntry s).getD 16, .txn, T, T, 0, 1, false, false, id, false⟩] ∧ t.regs = s.regs) ∧
  (∀ (q tag id : Nat) (s : State), halted s = false → mgmtReady q tag 0x0080 s = true → id ≠ 0 →
    s.txn.sched.any (fun t => t.id == id) = false → s.txn.holding.any (fun t => t.id == id) = false →
      exec (.txnCommit q tag id 0) s = .next (txnFreeze id
        { mgmtBegin q tag s with txn.sched := s.txn.sched ++ [⟨id, 0, q, tag, none⟩] })) ∧
  (∀ (id : Nat) (s : State), halted s = false →
    s.txn.sched.any (fun t => t.id == id && t.instant != 0 && t.frozen.isNone) = true →
    (armedPages id s).all (fun m => getF (H.state m.1) s != 7) = true →
      ∃ t, exec (.txnFreeze id) s = .next t ∧ t = { s with txn := t.txn } ∧ t.txn.holding = s.txn.holding ∧
      t.txn.sched = modFirst (fun t => t.id == id) (fun t => { t with frozen := some (armedPages id s) }) s.txn.sched) ∧
  (∀ (x : Txn) (ms : List (Block × Nat)) (s : State), halted s = false →
    s.txn.sched.find? (fun t => t.id == x.id) = some x → x.frozen = some ms → ms ≠ [] → s.txn.holding = none →
    x.instant = 0 →
      exec (.txnApply x.id) s = .next (modeEval false (forEach (s.regs.caps.filter fun c => c.txn == x.id && ms.contains (c.blk, c.pg)) commitOne
        { s with txn.sched := s.txn.sched.filter (fun u => u.id != x.id),
                 txn.holding := some { x with instant := s.eph.time },
                 eph.entries := s.eph.entries.filter fun e => !(e.kind == .txn && e.ref == x.id) }))) ∧
  (∀ (x : Txn) (s : State), halted s = false → s.txn.sched.find? (fun t => t.id == x.id) = some x →
    x.frozen = some [] → s.txn.holding = none → x.instant = 0 →
      exec (.txnApply x.id) s = .next (mgmtPost x.q x.tag stTxnEmpty s.eph.time
        { s with txn.sched := s.txn.sched.filter (fun u => u.id != x.id),
                 eph.entries := s.eph.entries.filter fun e => !(e.kind == .txn && e.ref == x.id) })) ∧
  (∀ (x : Txn) (s : State), halted s = false → s.txn.holding = some x →
      exec (.txnHoldEnd x.id) s = .next (mgmtPost x.q x.tag stSuccess x.instant
        (txnDone ((x.frozen.getD []).map (·.1)) { s with txn.holding := none }))) ∧
  (∀ (q tag id : Nat) (s : State), halted s = false → mgmtReady q tag 0x0080 s = true → id ≠ 0 →
      exec (.txnAbortOnly q tag id) s = .next (mgmtPost q tag (if armedPages id s = [] ∧ s.txn.sched.all (fun t => t.id != id) then stTxnEmpty else stAborted)
        s.eph.time (txnAbort id (mgmtBegin q tag s))))

/-- PERST_DEASSERT of an HPE port ends PERST_IN and training begins unless HOLD_DETECT holds the port (R139, R144).
HPE_LINK_UP of a training port, out of PERST# and not held, takes the lower of MAX_SPEED and the partner's speed and
of MAX_WIDTH and its width, with UP 1 (R97, R139); port 4 is MGE's link. LINK_RETRAIN of an HPE whose link is up
trains it anew, at no more than its active limits. PORT_CONVENTIONAL_RESET resets the port, PERST# also setting its
interrupt (R136, R137); PORT_HOLD_DETECT stores the bit, and holding a port whose link is up loses the link and resets
it. MGE_CONVENTIONAL_RESET disables every management queue and lets the operations in progress run unposted (R82,
R142). The model's own choices of log entries 3, 23 enter its clauses. -/
def Obligations.HostLinksTrainAndReset : Prop :=
  (∀ (p : Nat) (s : State), halted s = false → p < 4 →
      exec (.perstDeassert p) s = .next (putPort p { portOf p s with training := !onF (F.hpeLinkCtrlHoldDetect p) s } (setF (F.hpeLinkStatPerstIn p) 0 s))) ∧
  (∀ (p v w : Nat) (fl : Bool) (s : State), halted s = false → p < 4 → 1 ≤ v → v ≤ 6 →
    (w = 1 ∨ w = 2 ∨ w = 4 ∨ w = 8) → getF (F.hpeLinkStatPerstIn p) s = 0 →
    getF (F.hpeLinkCtrlHoldDetect p) s = 0 → blockDown (.hpe p) s = false → getF (F.hpeLinkStatUp p) s = 0 →
    getF (F.hpeLinkCtrlMaxSpeed p) s ≤ 6 → getF (F.hpeLinkCtrlMaxWidth p) s ≤ 8 →
      ∃ t, exec (.hpeLinkUp p v w fl) s = .next t ∧ getF (F.hpeLinkStatUp p) t = 1 ∧
      getF (F.hpeLinkStatSpeed p) t = min (getF (F.hpeLinkCtrlMaxSpeed p) s) v ∧
      getF (F.hpeLinkStatWidth p) t = min (getF (F.hpeLinkCtrlMaxWidth p) s) w ∧ getF (F.hpeLinkStatFlit p) t = b2n fl ∧
      bit (getF (H.intStat (.hpe p)) t) 16 = true) ∧
  (∀ (v w : Nat) (fl : Bool) (s : State), s.pwc.held = false → s.pwc.dumping = false → 1 ≤ v → v ≤ 6 →
    (w = 1 ∨ w = 2 ∨ w = 4 ∨ w = 8) →
      exec (.hpeLinkUp 4 v w fl) s = .next (mgeLinkUp v w s)) ∧
  (∀ (p : Nat) (s : State), halted s = false → getF (H.pwrState (.hpe p)) s ≠ 2 → getF (H.state (.hpe p)) s ≠ 5 →
    getF (F.hpeLinkStatUp p) s = 1 →
      ∃ t, exec (.linkRetrain (.hpe p)) s = .next t ∧ (portOf p t).training = true ∧
      getF (F.hpeLinkStatSpeed p) t = min (getF (F.hpeLinkStatSpeed p) s) (getF (F.hpeLinkCtrlMaxSpeed p) s) % 8 ∧
      getF (F.hpeLinkStatUp p) t = 1) ∧
  (∀ (p : Nat) (s : State), halted s = false → exec (.portConventionalReset p 1) s = .next (portReset p s)) ∧
  (∀ (p : Nat) (s : State), halted s = false →
      exec (.portConventionalReset p 0) s = .next (portReset p (setInt (.hpe p) I.hpePerst (setF (F.hpeLinkStatPerstIn p) 1 s)))) ∧
  (∀ (p : Nat) (on : Bool) (s : State), halted s = false → getF (H.pwrState (.hpe p)) s ≠ 2 →
    getF (H.state (.hpe p)) s ≠ 5 → getF (F.hpeLinkStatUp p) s = 0 → getF (F.hpeLinkStatPerstIn p) s = 1 →
      exec (.portHoldDetect p on) s = .next (flagF (F.hpeLinkCtrlHoldDetect p) on s)) ∧
  (∀ (s : State), s.pwc.held = false → s.pwc.dumping = false →
      exec .mgeConventionalReset s = .next (mgeReset s) ∧ (∀ q, q < 16 → getF (F.mqCfgSqEn q) (mgeReset s) = 0 ∧ getF (F.mqCfgCqEn q) (mgeReset s) = 0) ∧
      (mgeReset s).mgmt.cmds = s.mgmt.cmds.map fun c => { c with unposted := true })

/-- FLR of a function present on its port and not already in an FLR resets it and holds it in the FLR until FLR_COMPLETE
(R137, R138). VF_ENABLE_CHANGE with a number no greater than TotalVFs, while VF Enable is 0 and stays so or becomes 1,
stores both and sets VF_CHANGE (R104). VF_BLOCK stores the bit of a virtual function (R111). CONFIG_REQUEST of a port
whose link is up is answered with Request Retry Status before the Head Identity Record is latched or while the
function is in an FLR, and a write of a present function's setting is taken (R138, R140). UNSUPPORTED_REQUEST answers
a non-posted request with Unsupported Request, logs it through AER and sets UR_SENT; a vendor-defined message of type
1 is discarded without error (R122). POISONED_WRITE_RX discards the TLP, logs it and sets POISON_RX or BAD_TLP (R124).
The model's own choices of log entries 3, 15, 24 enter its clauses. -/
def Obligations.FunctionsResetAndVirtualFunctionsChange : Prop :=
  (∀ (p f : Nat) (s : State), halted s = false → fnPresent p f s = true → (portOf p s).flr.contains f = false →
      let u := flrFn p f (setInt (.hpe p) I.hpeFlr s)
    exec (.flr p f) s = .next (putPort p { portOf p u with flr := (portOf p u).flr ++ [f] } u)) ∧
  (∀ (p f : Nat) (s : State), halted s = false → (portOf p s).flr.contains f = true →
      exec (.flrComplete p f) s = .next (putPort p { portOf p s with flr := (portOf p s).flr.filter (· != f) } s)) ∧
  (∀ (p n : Nat) (on : Bool) (s : State), halted s = false → n ≤ (portOf p s).totalVfs →
    getF (F.hpeSriovVfEnabled p) s = 0 → ¬(n = getF (F.hpeSriovNumVfs p) s ∧ on = false) →
      exec (.vfEnableChange p n on) s = .next (setInt (.hpe p) I.hpeVfChange (flagF (F.hpeSriovVfEnabled p) on (setF (F.hpeSriovNumVfs p) n s)))) ∧
  (∀ (p f : Nat) (on : Bool) (s : State), halted s = false → f ≠ 0 → getF (H.pwrState (.hpe p)) s ≠ 2 →
    getF (H.state (.hpe p)) s ≠ 5 →
      exec (.vfBlock p f on) s = .next (flagF (F.hpeVfQpBlock p (f - 1)) on s)) ∧
  (∀ (p f : Nat) (wr : Option (CfgReg × Nat)) (s : State), halted s = false → getF (F.hpeLinkStatUp p) s = 1 →
    (s.bld.hir = none ∨ (portOf p s).flr.contains f = true) →
      exec (.configRequest p f wr) s = .next (emit (.pcieRrs p) (count (.hpe p) 0x02 1 (count (.hpe p) 0x01 1 s)))) ∧
  (∀ (p f : Nat) (r : CfgReg) (v : Nat) (s : State), halted s = false → getF (F.hpeLinkStatUp p) s = 1 →
    s.bld.hir.isSome = true → (portOf p s).flr.contains f = false → f = 0 →
      exec (.configRequest p f (some (r, v))) s = .next (emit (.pcieCfg p f) (cfgWrite p f r v (count (.hpe p) 0x02 1 (count (.hpe p) 0x01 1 s))))) ∧
  (∀ (b : Block) (posted : Bool) (s : State), halted s = false → isEndpoint b = true →
      exec (.unsupportedRequest b posted false) s = .next (note b E.hpeUrSent 0xFF (emit (.aer b E.hpeUrSent)
        (if posted then count b 0x01 1 s else emit (.pcieUr b) (count b 0x01 1 s))))) ∧
  (∀ (b : Block) (posted : Bool) (s : State), halted s = false → isEndpoint b = true →
      exec (.unsupportedRequest b posted true) s = .next (count b 0x01 1 s)) ∧
  (∀ (b : Block) (po : Bool) (s : State), halted s = false → isEndpoint b = true →
      let n := if po then E.hpePoisonRx else E.hpeBadTlp
    exec (.poisonedWriteRx b po) s = .next (note b n 0xFF (emit (.aer b n) (count b 0x01 1 s))))

/-- HOST_READ_COMPLETION of an outstanding command's read that is not the whole of it adds its bytes and counts them; the
whole of it frees the tag and the data goes to the command (R114, R116). A completion for a tag that is not in use is
an Unexpected Completion: counted, logged through AER and recorded (R129). COMPLETION_TIMEOUT of an outstanding read
with the timeout enabled puts its tag into quarantine, sets CPL_TIMEOUT and fails what the read was for (R125, R126,
R128); TAG_QUARANTINE_END frees the tag (R128). The model's own choices of log entries 3, 20, 21, 22 enter its
clauses. -/
def Obligations.ReadCompletionsAreTakenByTag : Prop :=
  (∀ (p f g n h : Nat) (r : ReadReq) (s : State), halted s = false → readOf p f g s = some r → r.st = .live →
    r.kind = .data h → r.got + n < r.len →
      exec (.hostReadCompletion p f g n false false) s = .next (dataArrived h n (issueAll
        (modRead p f g (fun r => { r with got := r.got + n }) (count (.hpe p) 0x04 n (count (.hpe p) 0x01 1 s)))))) ∧
  (∀ (p f g n h : Nat) (r : ReadReq) (s : State), halted s = false → readOf p f g s = some r → r.st = .live →
    r.kind = .data h → r.got + n = r.len →
      exec (.hostReadCompletion p f g n false false) s =
      .next (dataArrived h n (issueAll (dropRead p f g (count (.hpe p) 0x04 n (count (.hpe p) 0x01 1 s)))))) ∧
  (∀ (p f g n : Nat) (bad po : Bool) (s : State), halted s = false → readOf p f g s = none →
      exec (.hostReadCompletion p f g n bad po) s = .next (note (.hpe p) E.hpeUnexpCpl 0xFF (count (.hpe p) 0x07 1
        (emit (.aer (.hpe p) E.hpeUnexpCpl) (count (.hpe p) 0x01 1 s))))) ∧
  (∀ (p f g : Nat) (r : ReadReq) (s : State), halted s = false → readOf p f g s = some r → r.st = .live →
    (fnCfg p f s).ctoDisable = false →
      exec (.completionTimeout p f g) s = .next (issueAll (readFailed r (note (.hpe p) E.hpeCplTimeout 0xFF
        (count (.hpe p) 0x06 1 (emit (.aer (.hpe p) E.hpeCplTimeout) (modRead p f g (fun r => { r with st := .quarantined }) s))))))) ∧
  (∀ (p f g : Nat) (r : ReadReq) (s : State), halted s = false → readOf p f g s = some r → r.st = .quarantined →
      exec (.tagQuarantineEnd p f g) s = .next (issueAll (dropRead p f g s)))

/-- SQ_DOORBELL and CQ_DOORBELL of an enabled controller that takes accesses store an index below the queue's size, and
report an invalid doorbell for one at or beyond it or without a queue (R123). SQ_FETCH of a queue that may fetch,
under no throttle or hold, takes the entry in and advances the head, wrapping at the queue's size (R190, R192, R197).
AGGREGATION_TIME_EXPIRY sends the held MSI-X message of a completion queue (R193). QOS_REFILL_TICK refills every token
bucket (R196). The model's own choices of log entries 3, 25, 26, 27 enter its clauses. -/
def Obligations.DoorbellsAndFetchMoveTheQueues : Prop :=
  (∀ (c : Ctl) (i n : Nat) (q : SubQ) (s : State), halted s = false → ctlServes c s = true →
    (ctlOf c s).en = true → sqOf c i s = some q →
      exec (.sqDoorbell c i n) s = .next (if n < q.size then modSq c i (fun q => { q with tail := n }) s else badDoorbell c s)) ∧
  (∀ (c : Ctl) (i n : Nat) (q : CplQ) (s : State), halted s = false → ctlServes c s = true →
    (ctlOf c s).en = true → cqOf c i s = some q →
      exec (.cqDoorbell c i n) s = .next (if n < q.size then modCq c i (fun q => { q with head := n }) s else badDoorbell c s)) ∧
  (∀ (c : Ctl) (i n : Nat) (s : State), halted s = false → ctlServes c s = true → (ctlOf c s).en = true →
    sqOf c i s = none →
      exec (.sqDoorbell c i n) s = .next (badDoorbell c s)) ∧
  (∀ (c : Ctl) (i : Nat) (e : Sqe) (q : SubQ) (s : State), halted s = false → sqOf c i s = some q →
    hqeOpen s = true → ctlOpen c s = true → fetchable c q s = true → throttled (tenantOf c s) s = false →
    heldByWb i e s = false → heldByFwd i e s = false →
      exec (.sqFetch c i (some e)) s = .next (deliver c i e
        (modSq c i (fun q => { q with head := if q.head + 1 = q.size then 0 else q.head + 1 }) s))) ∧
  (∀ (c : Ctl) (i : Nat) (q : CplQ) (s : State), halted s = false → cqOf c i s = some q → q.held ≠ 0 →
      exec (.aggregationTimeExpiry c i) s = .next (emit (.msix c q.vector) (modCq c i (fun q => { q with held := 0 }) s))) ∧
  (∀ (s : State), halted s = false → exec .qosRefillTick s = .next (forEach (s.hqe.buckets.map (·.1)) refill s))

/-- Posting a completion on a controller's queue writes the entry, moves the tail of the completion queue of its
submission queue on by one, to 0 after the last entry, and inverts the queue's phase exactly then (R188, R193); no
submission queue and no other completion queue changes. -/
def Obligations.CqEntryCarriesThePhase : Prop :=
  ∀ (c : Ctl) (i cid : Nat) (st : NvmeSt) (q : SubQ) (k : CplQ) (s : State), sqOf c i s = some q →
  cqOf c q.cqid s = some k →
    let t := postCpl c i cid st s
  Out.nvmeCpl c i cid st ∈ t.out ∧ t.hqe.sqs = s.hqe.sqs ∧
    (cqOf c q.cqid t).map (fun x => (x.tail, x.phase)) = some (if k.tail + 1 = k.size then (0, !k.phase) else (k.tail + 1, k.phase)) ∧
    (∀ j, j ≠ q.cqid → cqOf c j t = cqOf c j s)

/-- CC_ENABLE of a function that serves and whose controller is disabled creates the controller with the queue limits the
function has then and its admin queues of the given sizes (R107, R141). CSTS_RDY_SET sets RDY of an enabled controller
once the head is in service (R141, R641). SHUTDOWN_NOTIFICATION of an enabled controller in normal operation starts
the shutdown, and SHUTDOWN_COMPLETE ends it when no command of the controller but held Asynchronous Event Requests is
outstanding (R194). CONTROLLER_RESET of an enabled controller resets it (R137, R216). POWER_STATE_TRANSITION_DONE
reaches the level aimed at (R219, R220). The model's own choices of log entries 3, 27, 30, 32, 105 enter its clauses. -/
def Obligations.ControllersEnableReadyAndShutDown : Prop :=
  (∀ (p asq acq : Nat) (s : State), halted s = false → fnServes p 0 s = true → (ctlOf (.hpe p 0) s).en = false →
    asq ≤ 4096 → acq ≤ 4096 →
      exec (.ccEnable (.hpe p 0) asq acq) s = .next (psEval (addSq (.hpe p 0) 0 asq 0 0 (addCq (.hpe p 0) 0 acq 0 true
        (putCtl (newCtl (.hpe p 0) (getF (F.hpePfQpQpMax p) s) 0 0 false true) s))))) ∧
  (∀ (c : Ctl) (s : State), halted s = false → (ctlOf c s).en = true → (ctlOf c s).rdy = false →
    inService s = true →
      exec (.cstsRdySet c) s = .next (putCtl { ctlOf c s with rdy := true } s)) ∧
  (∀ (c : Ctl) (s : State), halted s = false → ctlServes c s = true → (ctlOf c s).en = true →
    (ctlOf c s).shst = .normal →
      exec (.shutdownNotification c) s = .next (putCtl { ctlOf c s with shst := .processing } s)) ∧
  (∀ (c : Ctl) (s : State), halted s = false → (ctlOf c s).shst = .processing →
    s.hqe.cmds.all (fun m => m.ctl != some c || (ctlOf c s).aers.contains m.h) = true →
      exec (.shutdownComplete c) s = .next (putCtl { ctlOf c s with shst := .complete } s)) ∧
  (∀ (c : Ctl) (s : State), halted s = false → ctlServes c s = true → (ctlOf c s).en = true →
      exec (.controllerReset c) s = .next (ctlDisable c 0 s)) ∧
  (∀ (l : Nat) (s : State), halted s = false → s.hqe.psTo = some l →
      exec .powerStateTransitionDone s = .next (psEval (setF F.hqePsStatLevel l (flagF F.hqePsStatEntering false
        (flagF F.hqePsStatExiting false { s with hqe.psTo := none })))))

/-- CREATE_IO_CQ with a free identifier, a size of 2 to 16,384, a vector the function has and contiguous memory, and
CREATE_IO_SQ that names a completion queue, create the queue and succeed (R107, R189, R204). DELETE_IO_SQ discards the
entries not yet fetched and is held; DELETE_SQ_DONE completes it when no fetched command of the queue is left;
DELETE_IO_CQ succeeds when no submission queue names it (R192). The model's own choices of log entry 28 enter its
clauses. -/
def Obligations.QueuesAreCreatedAndDeleted : Prop :=
  (∀ (h i n v : Nat) (ien : Bool) (k : Ctl) (m : Cmd) (s : State), halted s = false →
    adminReady h 0x05 s = some m → m.ctl = some k → i ≠ 0 → i ≤ (ctlOf k s).qpMax → cqOf k i s = none → 2 ≤ n →
    n ≤ 16384 → v ≤ (ctlOf k s).qpMax →
      exec (.createIoCq h i n v ien true) s = .next (endCmd h .success (addCq k i n v ien s))) ∧
  (∀ (h i n j pr : Nat) (k : Ctl) (m : Cmd) (s : State), halted s = false → adminReady h 0x01 s = some m →
    m.ctl = some k → j ≠ 0 → (cqOf k j s).isSome = true → i ≠ 0 → i ≤ (ctlOf k s).qpMax → sqOf k i s = none →
    2 ≤ n → n ≤ 16384 →
      exec (.createIoSq h i n j pr true) s = .next (endCmd h .success (addSq k i n j pr s))) ∧
  (∀ (h i : Nat) (q : SubQ) (k : Ctl) (m : Cmd) (s : State), halted s = false → adminReady h 0x00 s = some m →
    m.ctl = some k → i ≠ 0 → sqOf k i s = some q → q.deleting = none →
      exec (.deleteIoSq h i) s = .next (holdCmd h (modSq k i (fun q => { q with head := q.tail, deleting := some h }) s))) ∧
  (∀ (h : Nat) (q : SubQ) (s : State), halted s = false →
    s.hqe.sqs.find? (fun q => q.deleting == some h) = some q →
    s.hqe.cmds.any (fun m => m.ctl == some q.ctl && m.qid == q.qid) = false →
      exec (.deleteSqDone h) s =
      .next (endCmd h .success { s with hqe.sqs := s.hqe.sqs.filter fun x => x.deleting != some h })) ∧
  (∀ (h i : Nat) (k : Ctl) (m : Cmd) (s : State), halted s = false → adminReady h 0x04 s = some m →
    m.ctl = some k → i ≠ 0 → (cqOf k i s).isSome = true →
    s.hqe.sqs.any (fun q => q.ctl == k && q.cqid == i) = false →
      exec (.deleteIoCq h i) s = .next (endCmd h .success { s with hqe.cqs := s.hqe.cqs.filter fun q => !(q.ctl == k && q.qid == i) }))

/-- GET_LOG_PAGE of a page offered answers it, and reading the Changed Namespace List empties it (R207). IDENTIFY answers
the structures offered (R204). ABORT succeeds with Dword 0 bit 0 set and touches no command (R217). SET_FEATURES of a
supported feature stores it, and GET_FEATURES answers its value (R206); FID 0x06 is the write cache enable (R214).
ASYNC_EVENT_REQUEST takes a waiting event, or is held while fewer than 16 are (R204). KEEP_ALIVE succeeds (R165).
PROPERTY_GET answers a property that exists, and PROPERTY_SET writes CC (R156). The model's own choices of log entries
28, 30, 33 enter its clauses. -/
def Obligations.AdminCommandsAnswerTheirController : Prop :=
  (∀ (h l : Nat) (k : Ctl) (m : Cmd) (s : State), halted s = false → adminReady h 0x02 s = some m →
    m.ctl = some k → (l = 0x01 ∨ l = 0x02 ∨ l = 0x03 ∨ l = 0x05 ∨ l = 0x0C ∨ l = 0x80 ∨ l = 0x81) →
      exec (.getLogPage h l) s = .next (endCmd h .success (emit (.adminData h (0x200 + l) 0) s))) ∧
  (∀ (h : Nat) (k : Ctl) (m : Cmd) (s : State), halted s = false → adminReady h 0x02 s = some m →
    m.ctl = some k →
      exec (.getLogPage h 0x04) s = .next (endCmd h .success (emit (.adminData h 0x204 0) (putCtl { ctlOf k s with changed := [] } s)))) ∧
  (∀ (h n : Nat) (k : Ctl) (m : Cmd) (s : State), halted s = false → adminReady h 0x06 s = some m →
    m.ctl = some k →
    (n = 0x00 ∨ n = 0x01 ∨ n = 0x02 ∨ n = 0x03 ∨ n = 0x05 ∨ n = 0x06 ∨ n = 0x07 ∨ n = 0x08 ∨ n = 0x0C ∨ n = 0x10 ∨ n = 0x11 ∨ n = 0x12 ∨ n = 0x13) →
      exec (.identify h n) s = .next (endCmd h .success (emit (.adminData h (0x100 + n) 0) s))) ∧
  (∀ (h : Nat) (k : Ctl) (m : Cmd) (s : State), halted s = false → adminReady h 0x08 s = some m →
    m.ctl = some k →
      exec (.abort h) s = .next (endCmd h .success (emit (.adminData h 0x400 1) s))) ∧
  (∀ (h v : Nat) (k : Ctl) (m : Cmd) (s : State), halted s = false → adminReady h 0x09 s = some m →
    m.ctl = some k →
      exec (.setFeatures h 0x06 v) s = .next (endCmd h .success (putCtl { ctlOf k s with wce := bit v 0 } s))) ∧
  (∀ (h f : Nat) (k : Ctl) (m : Cmd) (s : State), halted s = false → adminReady h 0x0A s = some m →
    m.ctl = some k → featOk f = true →
      exec (.getFeatures h f) s = .next (endCmd h .success (emit (.adminData h (0x300 + f) (getFeat k m.sqe.nsid f s)) s))) ∧
  (∀ (h : Nat) (k : Ctl) (m : Cmd) (s : State), halted s = false → adminReady h 0x0C s = some m →
    m.ctl = some k → (ctlOf k s).events = [] → (ctlOf k s).aers.length < 16 →
      exec (.asyncEventRequest h) s = .next (holdCmd h (putCtl { ctlOf k s with aers := (ctlOf k s).aers ++ [h] } s))) ∧
  (∀ (h : Nat) (e : AsyncEv) (r : List AsyncEv) (k : Ctl) (m : Cmd) (s : State), halted s = false →
    adminReady h 0x0C s = some m → m.ctl = some k → (ctlOf k s).events = e :: r → (ctlOf k s).aers.length < 16 →
      exec (.asyncEventRequest h) s = .next (endCmd h .success (emit (.asyncEvent k e) (putCtl { ctlOf k s with events := r } s)))) ∧
  (∀ (h : Nat) (k : Ctl) (m : Cmd) (s : State), halted s = false → adminReady h 0x18 s = some m →
    m.ctl = some k →
      exec (.keepAlive h) s = .next (endCmd h .success s)) ∧
  (∀ (h o v : Nat) (k : Ctl) (m : Cmd) (s : State), halted s = false → adminReady h 0x7F s = some m →
    m.ctl = some k → propOf (ctlOf k s) o = some v →
      exec (.propertyGet h o) s = .next (endCmd h .success (emit (.adminData h (0x500 + o) v) s))) ∧
  (∀ (h v : Nat) (k : Ctl) (m : Cmd) (s : State), halted s = false → adminReady h 0x7F s = some m →
    m.ctl = some k →
      exec (.propertySet h 0x14 v) s = .next (endCmd h .success (ccWrite k h v s)))

/-- FAB_LINK_UP of a port below 4 that is down, transmits and is not in reset or fault, at a speed its active MODE takes,
shows the speed, AN_DONE for auto-negotiation, UP and its interrupt (R151). FAB_LINK_DOWN takes the port down, with
LINK_LOST unless the head itself went silent (R175, R185); FAB_LINK_RESTART takes it down without an error (R151).
PFC_FRAME while PFC_EN is 1 starts or ends the pause; PFC_STORM reports a pause of 100 ms (R153, R185). ARP_REQUEST
for the port's enabled address is answered, LLDP_FRAME has no effect but the count of frames (R153, R155). The model's
own choices of log entries 3, 23 enter its clauses. -/
def Obligations.FabricLinksComeUpAndGoDown : Prop :=
  (∀ (p v : Nat) (s : State), halted s = false → p < 4 → blockDown (.fab p) s = false →
    getF (F.fabLinkCtrlTxOff p) s = 0 → getF (F.fabLinkStatUp p) s = 0 → getF (F.fabLinkCtrlMode p) s = 0 →
    (v = 1 ∨ v = 2) →
      exec (.fabLinkUp p v) s = .next (setInt (.fab p) I.fabLinkUp (setF (F.fabLinkStatUp p) 1
        (flagF (F.fabLinkStatAnDone p) true (setF (F.fabLinkStatSpeed p) v s))))) ∧
  (∀ (p : Nat) (s : State), halted s = false → p < 4 → getF (F.fabLinkStatUp p) s = 1 →
    getF (F.fabLinkCtrlTxOff p) s = 0 →
      exec (.fabLinkDown p) s = .next (fabDown p (note (.fab p) E.fabLinkLost 0xFF s))) ∧
  (∀ (p : Nat) (s : State), halted s = false → p < 4 → getF (H.pwrState (.fab p)) s ≠ 2 →
    getF (H.state (.fab p)) s ≠ 5 → getF (F.fabLinkStatUp p) s = 1 →
      exec (.fabLinkRestart p) s = .next (fabDown p s)) ∧
  (∀ (p : Nat) (on : Bool) (s : State), halted s = false → p < 4 → getF (F.fabLinkStatUp p) s = 1 →
    getF (F.fabVlanPfcEn p) s = 1 →
      ∃ t, exec (.pfcFrame p on) s = .next t ∧
      tget? t.fab.paused p = (if on then some ((tget? s.fab.paused p).getD s.now) else none) ∧
      (∀ k, k ≠ p → tget? t.fab.paused k = tget? s.fab.paused k)) ∧
  (∀ (p t : Nat) (s : State), halted s = false → tget? s.fab.paused p = some t → 100000000 ≤ s.now - t →
      exec (.pfcStorm p) s = .next (note (.fab p) E.fabPfcStorm 0xFF s)) ∧
  (∀ (p : Nat) (s : State), halted s = false → p < 4 → getF (F.fabLinkStatUp p) s = 1 →
    getF (F.fabIpv4CfgV4En p) s = 1 →
      exec (.arpRequest p (getF (F.fabIpv4Addr p) s) false) s =
      .next (fabTx p (emit (.arpReply p (getF (F.fabIpv4Addr p) s)) (fabRx p s)))) ∧
  (∀ (p : Nat) (s : State), halted s = false → p < 4 → getF (F.fabLinkStatUp p) s = 1 →
      exec (.lldpFrame p) s = .next (count (.fab p) 0x01 1 s))

/-- TCP_SYN at a port that serves the address, with TOE running: where something listens and fewer than 65,536 connections
are open, a connection opens with the next number and SYN-ACK is sent; elsewhere RST is sent (R155–R159).
RDMA_CONNECT_REQUEST for the NVMe service with ROCE_EN opens a connection in the same way; any other is rejected.
ICREQ on an NVMe/TCP connection that is not yet ready makes it ready, with the digests asked for and allowed
(R156–R158). FABRIC_CONNECT for an admin queue of 1 to 32 entries, on a ready connection without a controller, gives
it the lowest free fabric controller with its admin queues, within TOE_QP_RES (R160, R161). ASSOCIATION_END ends the
association (R164), KEEP_ALIVE_TIMEOUT ends it with KATO_EXPIRED (R165). The model's own choices of log entries 3, 31,
73 enter its clauses. -/
def Obligations.ConnectionsOpenAndClose : Prop :=
  (∀ (p d r rp : Nat) (k : ConnKind) (s : State), halted s = false → portServes p (isV4 r) s = true →
    running .toe s = true → listens p d (fabTx p (fabRx p s)) = some k → s.fab.conns.length < 65536 →
      exec (.tcpSyn p d r rp) s = .next (emit (.synAck s.fab.nextConn) (openConn p k r rp (k == .repl) (fabTx p (fabRx p s))))) ∧
  (∀ (p d r rp : Nat) (s : State), halted s = false → portServes p (isV4 r) s = true → running .toe s = true →
    listens p d (fabTx p (fabRx p s)) = none →
      exec (.tcpSyn p d r rp) s = .next (emit (.rst p) (fabTx p (fabRx p s)))) ∧
  (∀ (p r rq : Nat) (s : State), halted s = false → portServes p (isV4 r) s = true → running .toe s = true →
    getF F.toeCtrlRoceEn (fabTx p (fabRx p s)) = 1 → s.fab.conns.length < 65536 →
      exec (.rdmaConnectRequest p (getF F.toePortsNvmePort (fabTx p (fabRx p s))) r rq false) s =
      .next (emit (.rdmaAccept s.fab.nextConn) (openConn p .roce r rq true (fabTx p (fabRx p s))))) ∧
  (∀ (n : Nat) (h d : Bool) (x : Conn) (s : State), halted s = false → connOf n s = some x →
    (x.kind = .tcp ∨ x.kind = .disc) → running .toe s = true → x.ready = false →
      exec (.icreq n h d false) s = .next (emit (.icresp n (h && onF F.toeCtrlHdgstOk s) (d && onF F.toeCtrlDdgstOk s))
        (modConn n (fun c => { c with ready := true, hdgst := h && onF F.toeCtrlHdgstOk s, ddgst := d && onF F.toeCtrlDdgstOk s }) s))) ∧
  (∀ (n cid kato size i : Nat) (nqn : List Byte) (x : Conn) (s : State), halted s = false →
    s.fab.conns.find? (fun c => c.id == n) = some x → x.ready = true → (x.kind = .tcp ∨ x.kind = .roce) →
    x.ctl = none → 1 ≤ size → size ≤ 32 → freeFctl s = some i → fabQps s < getF F.toeQpResQpRes s →
      exec (.fabricConnect n 0 cid kato size nqn false) s = .next (emit (.connectRsp n .success i) (bindConn n i 0 size
        (putCtl (newCtl (.fab i) 64 (boundTo nqn s) kato false false) s)))) ∧
  (∀ (n : Nat) (s : State), halted s = false → exec (.associationEnd n) s = .next (loseConn n s)) ∧
  (∀ (i : Nat) (s : State), halted s = false → s.hqe.ctls.any (fun k => k.id == .fab i && k.kato != 0) = true →
      exec (.keepAliveTimeout i) s = .next (endAssoc i (note .toe E.toeKatoExpired 0xFF s)))

/-- CAPSULE_RECEIVED on a ready connection of a controller, with TOE and HQE taking commands, its queue not full and
nothing throttling or holding it, delivers the command (R156, R188–R191); a capsule on a connection without a
controller closes it (R168). H2CDATA_RECEIVED takes in up to 131,072 bytes of a fabric command's missing data (R156,
R157). TRANSMIT_ACKNOWLEDGED frees held data and restarts the count of retries (R169). TCP_RTO_EXPIRY and
ROCE_RETRY_TIMEOUT retransmit, until the limit of retries is reached and the connection closes with RETX_FAIL (R166,
R167). CONGESTION_NOTIFICATION_PACKET reduces the rate while CC_EN is 1 (R186). The model's own choices of log entries
3, 27, 44, 73 enter its clauses. -/
def Obligations.CapsulesAndDataMoveOnConnections : Prop :=
  (∀ (n i : Nat) (e : Sqe) (x : Conn) (s : State), halted s = false → connOf n s = some x → x.kind = .tcp →
    running .toe s = true → x.ready = true → x.ctl = some i → x.qid = 0 → hqeOpen s = true →
    (s.hqe.cmds.filter fun m => m.ctl == some (.fab i) && m.qid == 0).length < (sqOf (.fab i) 0 s).elim 0 (·.size) →
    throttled (tenantOf (.fab i) s) s = false → heldByWb 0 e s = false → heldByFwd 0 e s = false →
      exec (.capsuleReceived n e false false false) s = .next (deliver (.fab i) 0 e (count .toe 0x07 1 s))) ∧
  (∀ (n : Nat) (e : Sqe) (x : Conn) (s : State), halted s = false → connOf n s = some x → x.kind = .tcp →
    running .toe s = true → x.ctl = none →
      exec (.capsuleReceived n e false false false) s = .next (pduError x E.toeProtoErr s)) ∧
  (∀ (h n i : Nat) (c : Cmd) (s : State), halted s = false → cmdOf h s = some c → c.ctl = some (.fab i) →
    c.need ≠ 0 → running .toe s = true →
      exec (.h2cdataReceived h n) s = .next (dataArrived h (min (min 131072 n) c.need) s)) ∧
  (∀ (n b : Nat) (x : Conn) (s : State), halted s = false → connOf n s = some x → running .toe s = true →
      exec (.transmitAcknowledged n b false) s = .next (modConn n (fun c => { c with unacked := c.unacked - b, retx := 0 }) s)) ∧
  (∀ (n : Nat) (x : Conn) (s : State), halted s = false → connOf n s = some x → x.kind = .tcp →
    running .toe s = true →
      exec (.tcpRtoExpiry n) s = .next (if x.retx < getF F.toeTcpRetxMax s then
        count .toe 0x03 1 (emit (.retransmit n) (modConn n (fun c => { c with retx := c.retx + 1 }) s))
      else loseConn n (note .toe E.toeRetxFail 0xFF s))) ∧
  (∀ (n l : Nat) (x : Conn) (s : State), halted s = false → connOf n s = some x → x.kind = .roce →
    running .toe s = true →
      exec (.roceRetryTimeout n l) s = .next (if x.retx < l then
        count .toe 0x04 1 (emit (.retransmit n) (modConn n (fun c => { c with retx := c.retx + 1 }) s))
      else loseConn n (note .toe E.toeRetxFail 0xFF s))) ∧
  (∀ (n : Nat) (x : Conn) (s : State), halted s = false → connOf n s = some x → x.kind = .roce →
    running .toe s = true → getF F.toeRoceCcEn s = 1 →
      ∃ t, exec (.congestionNotificationPacket n) s = .next t ∧ t.fab.conns = modFirst (fun c => c.id == n) (fun c => { c with cnp := c.cnp + 1 }) s.fab.conns)

/-- For a command that no check stops: WRITE of whole buffers, with slots free, none of its units landing and no cut
needing their slots, takes its slots, marked DURABLE for FUA or without the write cache, fetches its data and
completes when it waits for nothing (R22, R211, R214). READ and VERIFY start the reads of their units, and COMPARE
those of its own against the data the host sends (R29, R205). WRITE_ZEROES unmaps its range (R210). DATASET_MANAGEMENT
without Deallocate changes nothing and succeeds (R210). FLUSH of one namespace waits for the writes completed before
it (R28, R213). The model's own choices of log entries 28, 41, 42, 43, 45 enter its clauses. -/
def Obligations.IoCommandsRunOnTheirNamespace : Prop :=
  (∀ (h : Nat) (c : Cmd) (x : Namespace) (d : List Byte) (s : State), halted s = false →
    ioClear h 0x01 { range := true, resv := some true, cap := true, key := true } c x s = true → bufsOk c = true →
    c.sqe.len = byteLen c s → d.length = c.sqe.len →
    (unitsIn (byteStart c s) (byteLen c s)).length ≤ freeSlots s →
    landingIn x.nsid (unitsIn (byteStart c s) (byteLen c s)) s = false →
    cutHeld x.nsid (unitsIn (byteStart c s) (byteLen c s)).contains s = false →
      exec (.write h d) s = .next (settle h (fetchData c (takeRange c x (byteStart c s) d
        (c.sqe.fua || c.ctl.any fun k => !(ctlOf k s).wce) (syncBegin h x.nsid (begin_ h s)))))) ∧
  (∀ (h : Nat) (c : Cmd) (x : Namespace) (s : State), halted s = false →
    ioClear h 0x02 { range := true, resv := some false, cap := false, key := false } c x s = true →
      exec (.read h) s = .next (settle h (startReads c (begin_ h s)))) ∧
  (∀ (h : Nat) (c : Cmd) (x : Namespace) (d : List Byte) (s : State), halted s = false →
    ioClear h 0x05 { range := true, resv := some false, cap := false, key := false } c x s = true →
    bufsOk c = true → c.sqe.len = byteLen c s → d.length = c.sqe.len →
      exec (.compare h d) s = .next (settle h (startReads { c with cmp := d } (fetchData { c with cmp := d }
        (modCmd h (fun c => { c with cmp := d }) (begin_ h s)))))) ∧
  (∀ (h : Nat) (c : Cmd) (x : Namespace) (s : State), halted s = false →
    ioClear h 0x08 { range := true, resv := some true, cap := false, key := true } c x s = true →
    s.ftu.admitStop = false → s.par.blocked.contains x.layout = false →
      exec (.writeZeroes h) s = .next (unmapCmd c x [(byteStart c s, byteLen c s)] s)) ∧
  (∀ (h : Nat) (c : Cmd) (x : Namespace) (s : State), halted s = false →
    ioClear h 0x09 { range := false, resv := some true, cap := false, key := false } c x s = true →
    c.sqe.ranges.length ≤ 256 → c.sqe.deac = false →
      exec (.datasetManagement h) s = .next (endCmd h .success s)) ∧
  (∀ (h : Nat) (c : Cmd) (x : Namespace) (s : State), halted s = false →
    ioClear h 0x0C { range := true, resv := some false, cap := false, key := false } c x s = true →
      exec (.verify h) s = .next (settle h (startReads c (begin_ h s)))) ∧
  (∀ (h : Nat) (c : Cmd) (x : Namespace) (s : State), halted s = false →
    ioClear h 0x00 { range := false, resv := some true, cap := false, key := false } c x s = true →
    c.sqe.nsid ≠ 0xFFFFFFFF →
      exec (.flush h) s = .next (durCheck (syncSend h (flushNs c x.nsid (syncBegin h x.nsid (begin_ h s))))))

/-- RESERVATION_REGISTER of a host that is not registered registers its key and counts a generation; RESERVATION_REPORT
answers the generation; RESERVATION_ACQUIRE by a registrant with its key takes a free reservation with its type;
RESERVATION_RELEASE by the holder with its key and type frees it and notifies the other registrants; a command of a
host whose key is not the registered one ends with Reservation Conflict (R209). -/
def Obligations.ReservationsFollowTheRegistrants : Prop :=
  (∀ (h k nk : Nat) (c : Cmd) (x : Namespace) (s : State), halted s = false →
    ioClear h 0x0D resvNeed c x s = true → isReg x.resv (hostOf c s) = false →
      let r := x.resv
    exec (.reservationRegister h 0 k nk false none) s = .next (endCmd h .success (putResv x.nsid
      { r with regs := r.regs.filter (fun p => p.1 != hostOf c s) ++ [(hostOf c s, nk)], gen := r.gen + 1 } s))) ∧
  (∀ (h k nk : Nat) (ig : Bool) (pt : Option Bool) (c : Cmd) (x : Namespace) (s : State), halted s = false →
    ioClear h 0x0D resvNeed c x s = true → isReg x.resv (hostOf c s) = false →
      exec (.reservationRegister h 1 k nk ig pt) s = .next (endCmd h .reservationConflict s)) ∧
  (∀ (h : Nat) (c : Cmd) (x : Namespace) (s : State), halted s = false → ioClear h 0x0E resvNeed c x s = true →
      exec (.reservationReport h) s = .next (endCmd h .success (emit (.adminData h 0x600 x.resv.gen) s))) ∧
  (∀ (h t k pk : Nat) (c : Cmd) (x : Namespace) (s : State), halted s = false →
    ioClear h 0x11 resvNeed c x s = true → 1 ≤ t → t ≤ 6 → keyOf x.resv (hostOf c s) = some k →
    x.resv.holder = none →
      let r := x.resv
    exec (.reservationAcquire h 0 t k pk) s =
      .next (endCmd h .success (putResv x.nsid { r with holder := some (hostOf c s), rtype := t } s))) ∧
  (∀ (h k : Nat) (c : Cmd) (x : Namespace) (s : State), halted s = false → ioClear h 0x15 resvNeed c x s = true →
    keyOf x.resv (hostOf c s) = some k → x.resv.holder = some (hostOf c s) →
      let r := x.resv
    exec (.reservationRelease h 0 r.rtype k) s = .next (endCmd h .success (resvNotify x (hostOf c s) (r.regs.map (·.1))
      (putResv x.nsid { r with holder := none, rtype := 0 } s)))) ∧
  (∀ (h t k pk : Nat) (c : Cmd) (x : Namespace) (s : State), halted s = false →
    ioClear h 0x11 resvNeed c x s = true → 1 ≤ t → t ≤ 6 → keyOf x.resv (hostOf c s) ≠ some k →
      exec (.reservationAcquire h 0 t k pk) s = .next (endCmd h .reservationConflict s))

/-- FORMAT of a namespace owned here, with LBAF 0 or 1 and SES 0 to 2, while neither a sanitize nor another format runs
and SES 2 meets no shared units, is accepted (R235, R238); FORMAT_NVM of a host does the same and its command is held
(R204). FORMAT_BEGIN, once every command taken in before has completed, unmaps every unit and gives the namespace the
new LBA format with its size rescaled (R234, R235). FORMAT_COMPLETE, once the peer has acknowledged the clause and
nothing is left to erase, ends the format, sets FMT_DONE and completes the control block and the command that asked
for it (R236, R247). SANITIZE with SANACT 2 or 4 while none is active starts the operation and tells the peer; SANACT
1 leaves the failure state and succeeds when the failure was unrestricted (R239–R241, R245). HOST_SANITIZE does so
under HOST_SAN and succeeds once the operation has started (R239). SANITIZE_COMPLETE ends the operation in progress
with its effect and tells the peer; its control block, if one asked for it, completes (R241, R245). The model's own
choices of log entries 3, 34, 35, 36, 40 enter its clauses. -/
def Obligations.FormatAndSanitizeRunToTheirEnd : Prop :=
  (∀ (q tag n l e : Nat) (x : Namespace) (s : State), halted s = false → mgmtReady q tag 0x0021 s = true →
    nsOf n s = some x → x.deleting = none → ownsNs x s = true → l ≤ 1 → e ≤ 1 → sanActive s = false →
    x.format = none →
      exec (.format q tag n l e) s = .next (formatAccept n l e none (some (q, tag)) (mgmtBegin q tag s))) ∧
  (∀ (h n l e : Nat) (k : Ctl) (m : Cmd) (x : Namespace) (s : State), halted s = false →
    adminReady h 0x80 s = some m → m.ctl = some k → sanActive s = false → nsOf n s = some x → x.deleting = none →
    x.tenant = tenantOf k s → l ≤ 1 → e ≤ 1 → ownsNs x s = true → x.format = none →
      exec (.formatNvm h n l e) s = .next (holdCmd h (formatAccept n l e (some h) none s))) ∧
  (∀ (n : Nat) (x : Namespace) (f : FormatOp) (s : State), halted s = false → nsOf n s = some x →
    x.format = some f → f.begun = false → f.ses = 0 → nsBusy n f.since s = false →
      ∃ t y, exec (.formatBegin n) s = .next t ∧ nsOf n t = some y ∧ y.lbaf = f.lbaf ∧ y.nsze = rescale x.lbaf f.lbaf x.nsze ∧
      y.format = some { f with begun := true, cseq := s.ftu.csnext, bands := [] }) ∧
  (∀ (n : Nat) (x : Namespace) (f : FormatOp) (s : State), halted s = false → nsOf n s = some x →
    x.format = some f → f.begun = true → f.ses = 0 → f.mgmt = none → f.bands = [] → f.cseq ≤ s.ftu.cack →
    s.cry.purges = [] →
      exec (.formatComplete n) s = .next (f.cmd.elim id (endCmd · .success)
        (setInt .hqe I.hqeFmtDone (modNs n (fun x => { x with format := none }) s)))) ∧
  (∀ (q tag a : Nat) (au : Bool) (s : State), halted s = false → mgmtReady q tag 0x0020 s = true →
    (a = 2 ∨ a = 4) → sanActive s = false →
      exec (.sanitize q tag a au) s = .next (sanBegin a au (some (q, tag)) (mgmtBegin q tag s))) ∧
  (∀ (q tag : Nat) (au : Bool) (s : State), halted s = false → mgmtReady q tag 0x0020 s = true →
    sanActive s = false → s.hqe.sanFail ≠ some false →
      exec (.sanitize q tag 1 au) s = .next (mgmtPost q tag stSuccess 0 (sanExit (mgmtBegin q tag s)))) ∧
  (∀ (h a : Nat) (au : Bool) (k : Ctl) (m : Cmd) (s : State), halted s = false → adminReady h 0x84 s = some m →
    m.ctl = some k → getF F.hqeCtrlHostSan s = 1 → (a = 2 ∨ a = 4) → sanActive s = false →
      exec (.hostSanitize h a au) s = .next (endCmd h .success (sanBegin a au none s))) ∧
  (∀ (ok : Bool) (p : Progress) (s : State), halted s = false →
    s.hqe.progress.find? (fun p => p.kind == 1 && p.state == 1) = some p →
    (sendTroys (.progress p.action (if ok then 2 else 3)) (sanEnd p.action p.ause ok s)).hqe.sanMgmt = none →
      exec (.sanitizeComplete ok) s = .next (sendTroys (.progress p.action (if ok then 2 else 3)) (sanEnd p.action p.ause ok s))) ∧
  (∀ (s : State), halted s = false →
      let t := sanErase s
    t.ftu.maps = [] ∧ t.ftu.bands = [] ∧ t.fiu.fpt = [] ∧ t.fiu.tier1 = [] ∧ t.wb.own = [] ∧ t.wb.mir = [] ∧ t.eph.epochs = [] ∧ t.repl.streams = [] ∧
      t.cry = s.cry ∧ t.hqe.ns = s.hqe.ns.filter fun x => x.cloneOf = 0) ∧
  (∀ (s : State), s.cry.purges = [] →
      let t := sanCrypto s
    t.cry.data = [] ∧ t.cry.dedup = [] ∧ t.ftu.maps = [] ∧ t.ftu.bands = s.ftu.bands ∧ ∀ x ∈ t.hqe.ns, x.key = 0 ∧ x.nextKey = 0)

/-- NS_CREATE with a valid body, a group owned here and a free NSID, over a Troys link, creates the namespace with the
attributes of the body and completes with its NSID (R228, R229, R232). NS_MODIFY of an owned namespace that neither
shrinks nor names a bad attribute applies the attributes it selects (R230). NS_DELETE of an owned namespace without
snapshots marks it as deleted from this command on, and detaches it (R231–R233). ANA_GROUP_SET creates a group that
neither head has, and deletes an owned group without namespaces (R228, R231). The model's own choices of log entries
38, 39, 82 enter its clauses. -/
def Obligations.NamespacesAndGroupsAreManaged : Prop :=
  (∀ (q tag : Nat) (b : NsCreateBody) (g : AnaGroup) (s : State), halted s = false →
    mgmtReady q tag 0x0010 s = true → 1 ≤ b.nsid → b.nsid ≤ 32768 → 1 ≤ b.group → b.group ≤ 1024 →
    b.tenant ≤ 4091 → b.nsze ≠ 0 → b.lbaf = 1 → b.cmpMode = 0 → b.grouping ≤ 1 → b.domain ≤ 16383 → b.layout ≤ 7 →
    classOn b.layout s = true → b.nsze ≤ 2 ^ 52 → groupOf b.group s = some g → g.mine = true →
    sanActive s = false → troysUp s = true → nsidTaken b.nsid s = false → b.key = 0 → b.nextKey = 0 →
      let u := mgmtBegin q tag s
    exec (.nsCreate q tag b []) s = .next (mgmtPost q tag stSuccess b.nsid
      (modeEval false (nsAdd (nsOfBody b.nsid b u) (sendTroys (.nsRequest 0 b.nsid) u))))) ∧
  (∀ (q tag n : Nat) (x : Namespace) (s : State), halted s = false → mgmtReady q tag 0x0011 s = true →
    nsOf n s = some x → x.deleting = none → ownsNs x s = true → x.format = none → sanActive s = false →
    s.eph.epochs = [] →
      let u := mgmtBegin q tag s
    exec (.nsDelete q tag n false) s = .next (nsDeleteDone n (nsChanged x.tenant n (systemClause n
      (modNs n (fun x => { x with deleting := some (q, tag, s.hqe.nextSeq) }) u))))) ∧
  (∀ (q tag : Nat) (b : NsModifyBody) (x : Namespace) (s : State), halted s = false →
    mgmtReady q tag 0x0012 s = true → b.action = 0 → nsOf b.nsid s = some x → x.deleting = none →
    ownsNs x s = true → b.valid = 1 → unitsOf { x with nsze := b.nsze } ≤ 2 ^ 52 → x.format = none →
    sanActive s = false → x.nsze ≤ b.nsze →
      exec (.nsModify q tag b) s = .next (mgmtPost q tag stSuccess 0 (systemClause b.nsid (modNs b.nsid (nsApply b) (mgmtBegin q tag s))))) ∧
  (∀ (q tag g : Nat) (s : State), halted s = false → mgmtReady q tag 0x0013 s = true → 1 ≤ g → g ≤ 1024 →
    groupOf g s = none → troysUp s = true → s.hqe.reserving.contains (1, g) = false →
      let u := mgmtBegin q tag s
    exec (.anaGroupSet q tag g 0 false) s = .next (mgmtPost q tag stSuccess 0 (systemClause 0 (sendTroys (.nsRequest 1 g)
      { u with hqe.groups := s.hqe.groups ++ [{ id := g, mine := true, change := false }] })))) ∧
  (∀ (q tag g : Nat) (x : AnaGroup) (s : State), halted s = false → mgmtReady q tag 0x0013 s = true → 1 ≤ g →
    g ≤ 1024 → groupOf g s = some x → x.mine = true → troysUp s = true →
    s.hqe.ns.any (fun x => x.group == g) = false →
      let u := mgmtBegin q tag s
    exec (.anaGroupSet q tag g 1 false) s = .next (mgmtPost q tag stSuccess 0 (systemClause 0 (sendTroys (.nsRequest 1 g)
      { u with hqe.groups := s.hqe.groups.filter fun x => x.id != g }))))

/-- MIRROR_ACK of a landed slot marks it acknowledged, fills it and settles its command (R22, R251); of a slot that has no
former slot of its unit, the slot is Filled then, with the instant of it (R251). SLOT_RELEASE_ACK frees a Releasing
slot (R251, R252). DESTAGE_START of a whole Filled slot that is first in line makes it Destaging and puts its unit in
the pipeline (R254, R257–R259). FINGERPRINT_DONE of an all-zero unit sends it to its clause, and of any other computes
its fingerprint under its domain's key (R261, R263). FILTER_REBUILD with 1,024 counters or fewer at 15 leaves the
filter (R256). The model's own choices of log entries 3, 99 enter its clauses. -/
def Obligations.SlotsFillAndEnterDestage : Prop :=
  (∀ (n : Nat) (x : Slot) (s : State), halted s = false → tget? s.wb.own n = some x → x.st = .landing →
    x.landed = true → x.acked = false →
      exec (.mirrorAck n) s = .next (settle x.cmd (modCmd x.cmd (fun c => { c with waitAck := c.waitAck.filter (· != n) })
        (fillSlot n (modSlot n (fun y => { y with acked := true }) s))))) ∧
  (∀ (n : Nat) (x : Slot) (s : State), tget? s.wb.own n = some x → x.st = .landing → x.landed = true →
    x.acked = true → x.replaced = false → s.wb.own.find? (fun p => p.1 != n && indexed x.nsid x.unit p) = none →
      tget? (fillSlot n s).wb.own n = some { x with st := .filled, shadow := false, acked := true, filledAt := s.now }) ∧
  (∀ (n : Nat) (x : Slot) (s : State), halted s = false → tget? s.wb.own n = some x → x.st = .releasing →
      exec (.slotReleaseAck n) s = .next (freeSlot n s) ∧ tget? (freeSlot n s).wb.own n = none) ∧
  (∀ (n : Nat) (x : Slot) (s : State), halted s = false → tget? s.wb.own n = some x → running .ftu s = true →
    s.txn.holding = none → ready (n, x) = true → due x s = true → firstInLine x s = true →
    s.wb.units.length < 8192 → x.mask = 0xFF →
      let t := modSlot n (fun y => { y with st := .destaging }) s
    exec (.destageStart n) s = .next { t with
      wb.units := s.wb.units ++ [slotUnit n x .fingerprint s], wb.nextU := s.wb.nextU + 1 }) ∧
  (∀ (u : Nat) (d : DestUnit) (s : State), halted s = false → unitOf u s = some d → d.stage = .fingerprint →
    running .dge s = true → getF F.dgeCtrlUnitEn s = 1 →
    (List.range 16).any (fun l => laneUsable .dge l s) = true →
      let t := count .dge 0x01 1 (wakeLane .dge (List.range 16) s)
    exec (.fingerprintDone u) s = .next (dgeRun (if allZero d.data then count .dge 0x02 1 (modUnit u (fun d => { d with zero := true, stage := .clause }) t)
      else modUnit u (fun e => { e with fp := ((nsOf d.nsid t).bind fun x => domKey x.domain t).elim [] fun k => Config.hmac256 k d.data,
                                        stage := .search }) t))) ∧
  (∀ (s : State), halted s = false → filterSat s ≤ 1024 → exec .filterRebuild s = .next s) ∧
  (∀ (s : State), halted s = false → 1024 < filterSat s →
      exec .filterRebuild s = .next (forEach (s.wb.own.filter fun p => indexed p.2.nsid p.2.unit p && readable p.2)
      (fun p t => filterAdd p.2.nsid p.2.unit t) { s with wb.filter := [] }))

/-- INDEX_DECISION of a unit whose domain has deduplication off stores it as unique, not counted in the index (R24, R264,
R281). TIER1_INSERT_DONE into a ready bank with room puts the entry at its sorted place and marks its FPT entry
INDEXED (R268, R269, R273). TIER1_REMOVAL_DONE removes it, and frees a Dead entry (R271, R285). SCRUB_SEGMENT in a
segment whose copies agree goes on to the next; a bad SRAM entry raises BANK_PARITY of its bank (R273).
BANK_RELOAD_DONE makes a loading bank Ready and raises BANK_READY; BANK_POWER writes BANK_ON and starts or stops the
banks that change (R274). FPT_REFILL reinserts the log's records, ends the refill and raises REFILL_DONE (R291).
BGD_MERGE journals a Merge of a unit into an equal live unit (R290). The model's own choices of log entries 3, 13, 26,
64, 90, 98, 101, 114 enter its clauses. -/
def Obligations.IndexDecidesAndKeepsItsTiers : Prop :=
  (∀ (u n dom : Nat) (d : DestUnit) (k : List Byte) (s : State), halted s = false → unitOf u s = some d →
    d.stage = .search → d.src = .gc n false → dom = (nsOf d.nsid s).elim 0 (·.domain) → domKey dom s = some k →
    domOn dom s = false →
      exec (.indexDecision u) s = .next (count .fiu 0x08 1 (modUnit u (fun d => { d with stage := .compress }) s))) ∧
  (∀ (i k : Nat) (e : TagEntry) (s : State), halted s = false →
    s.fiu.ins.find? (fun p => p.2.fptIdx == i) = some (k, e) → bankUp (k % 16) s = true →
    (tget? s.fiu.fpt i).isSome = true → (segOf k s).length < 128 →
      exec (.tier1InsertDone i) s = .next (count .fiu 0x06 1 (modFpt i (fun e => { e with indexed := true })
      (putSeg k (sortIn e (segOf k s)) { s with fiu.ins := s.fiu.ins.filter fun p => p.2.fptIdx != i })))) ∧
  (∀ (i : Nat) (e : FptEntry) (s : State), halted s = false → s.fiu.rem.contains i = true →
    tget? s.fiu.fpt i = some e →
      let t := putSeg (fpSeg e.fp) ((segOf (fpSeg e.fp) s).filter fun x => x.fptIdx != i) { s with fiu.rem := s.fiu.rem.filter (· != i) }
    exec (.tier1RemovalDone i) s = .next (if e.st = .dead then { t with fiu.fpt := terase s.fiu.fpt i }
      else modFpt i (fun e => { e with indexed := false }) t)) ∧
  (∀ (k : Nat) (s : State), halted s = false → running .fiu s = true → getF F.fiuScrubScrubEn s = 1 →
    k = s.fiu.scrubSeg → s.fiu.ins = [] → s.fiu.rem = [] → segOf k s = tget s.fiu.dcopy k [] →
      exec (.scrubSegment k false false) s = .next (scrubNext s)) ∧
  (∀ (k : Nat) (d : Bool) (s : State), halted s = false → running .fiu s = true → getF F.fiuScrubScrubEn s = 1 →
    k = s.fiu.scrubSeg → s.fiu.ins = [] → s.fiu.rem = [] → bankUp (k % 16) s = true →
      exec (.scrubSegment k true d) s = .next (raise .fiu E.fiuBankParity (k % 16) (scrubNext s))) ∧
  (∀ (b : Nat) (s : State), halted s = false → b < 16 → bit (getF F.fiuBankStatLoading s) b = true →
    laneReady .fiu b s = true →
      ∃ t, exec (.bankReloadDone b) s = .next t ∧ bit (getF F.fiuBankStatReady t) b = true ∧ bit (getF F.fiuBankStatLoading t) b = false ∧
      t.fiu.tier1 = tmerge (s.fiu.tier1.filter fun p => !(p.1 % 16 == b)) (s.fiu.dcopy.filter fun p => p.1 % 16 == b)) ∧
  (∀ (m : Nat) (s : State), halted s = false →
      exec (.bankPower m) s = .next (regWrite .fiu (fun s => forEach (List.range 16)
      (fun b t => if bit m b && !bit (getF F.fiuBankEnBankOn s) b then bankReset b t
                  else if !bit m b && bit (getF F.fiuBankEnBankOn s) b then bankOff b t else t) (setF F.fiuBankEnBankOn m s)) s)) ∧
  (∀ (n : Nat) (s : State), halted s = false → s.fiu.refill = some n → running .fiu s = true →
      let t := forEach s.fiu.log refillOne s
    exec .fptRefill s = .next (setInt .fiu I.fiuRefillDone (setF F.fptRefillActive 0 { t with fiu.refill := none }))) ∧
  (∀ (n i k old : Nat) (s : State), halted s = false → old = mapGet 0 n i s → running .fiu s = true →
    bgOk s = true → getF F.fiuCtrlBgdEn s = 1 → winOpen 2 s = true → uBand old ≠ 0 → old ≠ k → jrnlRoom s = true →
    tget? s.fiu.sut old = none → backOf old s = some (n, i) → liveUnit k s = true → (logOf old s).isSome = true →
    logOf old s = logOf k s →
      let t := clause (mkClause cMerge 0 n i old k) s
    exec (.bgdMerge n i k) s = .next (if mapGet 0 n i t = k then count .fiu 0x09 1 t else t))

/-- COMPRESS_DONE of a unit whose namespace has compression off forms it raw for encryption, under the namespace's present
key, attributes and layout class (R301, R304, R426). GROUP_WAIT_EXPIRY closes the open group (R311). ENCRYPT_DONE of a
lone unit whose key is loaded seals it with the store counter and the head number as its tweak, counts the counter on,
and packs (R299, R335–R338). CLAUSE_APPLY of a unit that is still its slot's version, with room in the journal and its
duplicate decided, journals its clause and releases the slot after it (R26, R27, R260, R261). DECRYPT_DONE of a unit
whose header is not one is rejected with UNIT_FORMAT (R329); without its key the read fails with KEY_MISSING (R338).
EXPAND_DONE of a unit that does not expand is rejected with the reason (R328, R329). BULK_COMPRESS_JOB and
BULK_EXPAND_JOB deliver their segments and a completion record (R330–R334). The model's own choices of log entries 3,
41 enter its clauses. -/
def Obligations.UnitsAreEncodedSealedAndOpened : Prop :=
  (∀ (u : Nat) (d : DestUnit) (x : Namespace) (s : State), halted s = false → unitOf u s = some d →
    d.stage = .compress → running .cmp s = true → nsOf d.nsid s = some x → x.cmpMode = 0 →
      exec (.compressDone u) s = .next (storeSingle u 0 0 (modUnit u (fun d => { d with
      gen := x.attrGen, cls := x.layout, key := if d.key = 0 then x.key else d.key }) s))) ∧
  (∀ (g : Nat) (s : State), halted s = false → running .cmp s = true →
      exec (.groupWaitExpiry g) s = .next (closeGroup g s)) ∧
  (∀ (u : Nat) (d : DestUnit) (k : List Byte) (s : State), halted s = false → unitOf u s = some d →
    d.stage = .encrypt → d.grp = none → d.body ≠ [] → running .cry s = true → getF F.cryCtrlXtsEn s = 1 →
    (List.range 16).any (fun l => laneUsable .cry l s) = true → dataKey d.key s = some k →
      let w := s.cmp.storeCtr % 2 ^ 63 + s.pins.headSel % 2 * 2 ^ 63
    let b := sealUnit d.mode 1 d.key k w d.body d.data
    let t := count .cry 0x01 1 { wakeLane .cry (List.range 16) s with cmp.storeCtr := (s.cmp.storeCtr + 1) % 2 ^ 63 }
    exec (.encryptDone u) s = .next (packAll { t with wb.units := modAll (fun e => e.id == u) (fun e => { e with stage := .pack, body := b }) s.wb.units })) ∧
  (∀ (u n : Nat) (d : DestUnit) (s : State), halted s = false → unitOf u s = some d → d.src = .slot n →
    d.stage = .clause → running .ftu s = true → getF F.ftuCtrlMapEn s = 1 → d.zero = true → d.dup = none →
    superseded d n s = false → jrnlRoom s = true → s.ftu.csnext ≤ mcaLow s + 4096 →
      exec (.clauseApply u) s = .next (durCheck (releaseAfter n s.ftu.csnext (destaged u 0x03 (unmapRun d.nsid d.unit 1 d.seq s))))) ∧
  (∀ (u n : Nat) (d : DestUnit) (s : State), halted s = false → unitOf u s = some d → d.src = .slot n →
    d.stage = .clause → running .ftu s = true → getF F.ftuCtrlMapEn s = 1 → d.zero = false → d.dup = none →
    unitAccepted d.uaddr s = true → superseded d n s = false → jrnlRoom s = true →
    s.ftu.csnext ≤ mcaLow s + 4096 →
      exec (.clauseApply u) s = .next (durCheck (releaseAfter n s.ftu.csnext (dropUnit u (count .stg 0x01 1
      (goLive d (clause (mkClause cMapSet 0 d.nsid d.unit d.uaddr d.seq) s))))))) ∧
  (∀ (r : Nat) (b : List Byte) (x : UnitRead) (s : State), halted s = false → uRead r s = some x →
    x.stage = .decrypt → x.body = [] → running .cry s = true → getF F.cryCtrlXtsEn s = 1 →
    (List.range 16).any (fun l => laneUsable .cry l s) = true → b.length = uLen x.uaddr * 16 →
    headerOk b = false →
      exec (.decryptDone r b) s = .next (readReject x (note .cmp E.cmpUnitFormat 0xFF s))) ∧
  (∀ (r h : Nat) (b : List Byte) (x : UnitRead) (s : State), halted s = false → uRead r s = some x →
    x.stage = .decrypt → x.for_ = .host h → x.body = [] → running .cry s = true → getF F.cryCtrlXtsEn s = 1 →
    (List.range 16).any (fun l => laneUsable .cry l s) = true → b.length = uLen x.uaddr * 16 → headerOk b = true →
    dataKey (hdKey b) s = none →
      exec (.decryptDone r b) s = .next (readFail x (note .cry E.cryKeyMissing 0xFF s))) ∧
  (∀ (r : Nat) (x : UnitRead) (s : State), halted s = false → uRead r s = some x → x.stage = .expand →
    running .cmp s = true → getF F.cmpCtrlExpEn s = 1 →
    (List.range 32).any (fun l => laneUsable .cmp (0x80 + l) s) = true →
      let t := count .cmp 0x06 1 (wakeLane .cmp ((List.range 32).map (0x80 + ·)) s)
    exec (.expandDone r) s = .next (match expand (hdMode x.body) (hdMembers x.body * 4096) (payloadOf x.body) with
      | .streamErr => readReject x (note .cmp E.cmpStreamErr 0xFF t)
      | .overrun => readReject x (note .cmp E.cmpExpandOverrun 0xFF t)
      | .short => readReject x (note .cmp E.cmpExpandShort 0xFF t)
      | .ok o => if crc32c o = plainCrc x.body then readPlain x o t else readReject x (note .cmp E.cmpCrcMismatch 0xFF t))) ∧
  (∀ (j : BulkJob) (s : State), halted s = false → bulkOk s = true → j.input = [] → j.chain = [8] →
      exec (.bulkCompressJob j) s = .next (emit (.bulkRecord j.id 0 0 8) (emit (.bulkData j.id (zeros 8)) (count .cmp 0x07 0 s)))) ∧
  (∀ (j : BulkJob) (s : State), halted s = false → bulkOk s = true → j.input.length ≤ 2 ^ 20 →
    j.chain.length ≤ 256 →
      let r := bulkRun j.mode j.level ((j.input.length + 4095) / 4096) j.input j.chain.sum 0 []
    let t := count .cmp 0x07 ((r.1 + 4095) / 4096) s
    exec (.bulkCompressJob j) s = .next (if r.1 = j.input.length ∧ 8 ≤ r.2.2
      then emit (.bulkRecord j.id 0 r.1 (r.2.1.length + 8)) (emit (.bulkData j.id (r.2.1 ++ zeros 8)) t)
      else emit (.bulkRecord j.id 1 r.1 r.2.1.length) (emit (.bulkData j.id r.2.1) (note .cmp E.cmpChainExhausted 0xFF t)))) ∧
  (∀ (j : BulkJob) (s : State), halted s = false → bulkOk s = true → getF F.cmpCtrlExpEn s = 1 →
    (bulkExpand j.limit (j.input.length + 1) j.input [] 0 0).1 = 0 →
      let r := bulkExpand j.limit (j.input.length + 1) j.input [] 0 0
    exec (.bulkExpandJob j) s = .next (emit (.bulkRecord j.id 0 r.2.2.1 r.2.1.length) (emit (.bulkData j.id r.2.1) (count .cmp 0x07 r.2.2.2 s))))

/-- KEY_LOAD of a data or dedup key whose slot is Empty and whose wrap key is loaded unwraps it: a failed unwrap is
UNWRAP_FAIL and AUTH_FAILED, equal halves of a data key KEY_WEAK, and otherwise the slot is Loaded and the completion
carries its new handle (R340–R347); in a pair the peer is told and its status stands when the own check passed (R343,
R344). A full slot is SLOT_BUSY (R344). KEY_PURGE of a current handle that no namespace names starts the purge; a
stale one is HANDLE_STALE (R348, R349). PURGE_DRAINED empties the slot, raises PURGE_DONE and completes what waited
(R349). KEY_RESTORE unwraps every stored copy that waits and raises RESTORE_DONE (R342). The model's own choices of
log entries 3, 39, 47, 48, 112 enter its clauses. -/
def Obligations.KeysAreLoadedPurgedAndRestored : Prop :=
  (∀ (q tag ps : Nat) (b : KeyLoadBody) (w : List Byte) (s : State), halted s = false →
    mgmtReady q tag 0x0040 s = true → keyBodyOk b = true → b.kind ≠ 2 → planeDown .reduction s = false →
    runsAlone s = true → keySlot b.kind b.slot s = none → wrapKeyOf b s = some w →
      let u := mgmtBegin q tag s
    exec (.keyLoad q tag b ps) s = .next (match Config.kwUnwrap w b.wrapped with
      | none => mgmtPost q tag stAuthFailed 0 (note .cry E.cryUnwrapFail 0xFF u)
      | some k => if weakKey b k then mgmtPost q tag stKeyWeak 0 (note .cry E.cryKeyWeak 0xFF u)
        else mgmtPost q tag stSuccess (handleOf b.kind b.slot (nextGen (keyGen b.kind b.slot s))) (keyStore b k u))) ∧
  (∀ (q tag : Nat) (b : KeyLoadBody) (w : List Byte) (s : State), halted s = false →
    mgmtReady q tag 0x0040 s = true → keyBodyOk b = true → b.kind ≠ 2 → planeDown .reduction s = false →
    runsAlone s = false → troysUp s = true → keySlot b.kind b.slot s = none → wrapKeyOf b s = some w →
      let u := sendTroys (.keyLoad b.kind b.slot) (mgmtBegin q tag s)
    exec (.keyLoad q tag b stSuccess) s = .next (match Config.kwUnwrap w b.wrapped with
      | none => mgmtPost q tag stAuthFailed 0 (note .cry E.cryUnwrapFail 0xFF u)
      | some k => if weakKey b k then mgmtPost q tag stKeyWeak 0 (note .cry E.cryKeyWeak 0xFF u)
        else mgmtPost q tag stSuccess (handleOf b.kind b.slot (nextGen (keyGen b.kind b.slot s))) (keyStore b k u))) ∧
  (∀ (q tag ps : Nat) (b : KeyLoadBody) (k : KeySlot) (s : State), halted s = false →
    mgmtReady q tag 0x0040 s = true → keyBodyOk b = true → b.kind ≠ 2 → planeDown .reduction s = false →
    runsAlone s = true → keySlot b.kind b.slot s = some k →
      exec (.keyLoad q tag b ps) s = .next (mgmtPost q tag stSlotBusy 0 (mgmtBegin q tag s))) ∧
  (∀ (q tag h : Nat) (k : KeySlot) (s : State), halted s = false → mgmtReady q tag 0x0041 s = true →
    hKind h = 0 → h ≠ 0 → planeDown .reduction s = false → runsAlone s = true → keyGen 0 (hSlot h) s = hGen h →
    keySlot 0 (hSlot h) s = some k → k.st ≠ .purging → keyUsers h s = 0 →
      exec (.keyPurge q tag h) s = .next (startPurge 0 (hSlot h) (some (q, tag)) none (mgmtBegin q tag s))) ∧
  (∀ (q tag h : Nat) (s : State), halted s = false → mgmtReady q tag 0x0041 s = true → hKind h = 2 →
    hSlot h < 16 → keyGen 2 (hSlot h) s ≠ hGen h →
      exec (.keyPurge q tag h) s = .next (mgmtPost q tag stHandleStale 0 (mgmtBegin q tag s))) ∧
  (∀ (k n : Nat) (x : KeySlot) (s : State), halted s = false → (k = 0 ∨ k = 2) → keySlot k n s = some x →
    x.st = .purging →
      let mine := fun (p : Purge) => p.kind == k && p.slot == n
    let t := setKeyTbl k (terase (keyTbl k s) n) { s with cry.purges := s.cry.purges.filter fun p => !mine p }
    exec (.purgeDrained k n) s = .next (forEach ((s.cry.purges.filter mine).filterMap (·.mgmt))
      (fun p t => mgmtPost p.1 p.2 stSuccess 0 t) (setInt .cry I.cryPurgeDone t))) ∧
  (∀ (n : Nat) (x : KeySlot) (w : List Byte × Nat) (s : State), halted s = false →
    planeDown .reduction s = false → s.cry.data = [(n, x)] → s.cry.dedup = [] → x.st = .restorePending →
    x.stored = some w → (keySlot 2 w.2 s).isSome = true →
      exec .keyRestore s = .next (setInt .cry I.cryRestoreDone (restoreSlot 0 n s)))

/-- DGE_JOB moves the ring's TAIL and HEAD on and is looked at by DGE: an invalid first job completes with INVALID, a
valid one opens the lowest free context (R356–R359, R364). DGE_JOB_COMPLETE of an active job with all its data ends it
with its digest, and after a bus error with BUS_ERR (R365, R366). DGE_QUANTUM_EXPIRY while another context waits
suspends the lane's context (R360). DGE_CONTEXT_EXPIRY clears a context open for OPEN_LIMIT seconds and raises
CTX_EXPIRED (R362). DGE_ALARM and GLITCH_TRIP clear every context (R373), and a glitch extends MR7 (R377). The model's
own choices of log entries 49, 50, 51 enter its clauses. -/
def Obligations.DigestJobsRunInContexts : Prop :=
  (∀ (r : Nat) (d : DgeDesc) (s : State), halted s = false → r < 3 → running .dge s = true →
    getF F.dgeCtrlJobEn s = 1 → d.first = true → jobInvalid d d.alg = true →
      let t := incF (F.dgeRingwHead r) (incF (F.dgeRingwTail r) s)
    exec (.dgeJob r d) s = .next (dgeRun (dgeRec r d d.ctx 7 0 0 t))) ∧
  (∀ (r n : Nat) (d : DgeDesc) (s : State), halted s = false → r < 3 → running .dge s = true →
    getF F.dgeCtrlJobEn s = 1 → d.first = true → jobInvalid d d.alg = false → ctxFree s = some n →
      let t := incF (F.dgeRingwHead r) (incF (F.dgeRingwTail r) s)
    exec (.dgeJob r d) s = .next (dgeRun (ctxOpen r n d t))) ∧
  (∀ (n : Nat) (c : DgeCtx) (d : DgeDesc) (data ex : List Byte) (i : Bool) (s : State), halted s = false →
    ctxOf n s = some c → c.job = some d → c.st = .active → running .dge s = true →
      exec (.dgeJobComplete n data ex true i) s = .next (dgeRun (dgeRec (c.owner - 1) d n 2 0 data.length
      (note .dge E.dgeBusErr 0xFF (ctxDrop n 0 s))))) ∧
  (∀ (n : Nat) (c : DgeCtx) (d : DgeDesc) (data ex : List Byte) (s : State), halted s = false →
    ctxOf n s = some c → c.job = some d → c.st = .active → running .dge s = true → data.length = d.declLen →
      exec (.dgeJobComplete n data ex false false) s = .next (dgeRun (jobEnd n c d data ex s))) ∧
  (∀ (l n : Nat) (c : DgeCtx) (s : State), halted s = false →
    s.dge.ctx.find? (fun c => c.2.lane == some l) = some (n, c) → running .dge s = true → jobWaiting s = true →
      exec (.dgeQuantumExpiry l) s = .next (dgeRun (modCtx n (fun c => { c with st := .waiting, lane := none, since := s.now, susp := true })
      { count .dge 0x05 1 s with dge.wait := s.dge.wait ++ [n] }))) ∧
  (∀ (n : Nat) (c : DgeCtx) (s : State), halted s = false → ctxOf n s = some c → c.st = .open_ →
    getF F.dgeCfgOpenLimit s ≠ 0 → 1000000000 * getF F.dgeCfgOpenLimit s ≤ s.now - c.since →
      exec (.dgeContextExpiry n) s = .next (dgeRun (setInt .dge I.dgeCtxExpired (ctxDrop n 8 s)))) ∧
  (∀ (k : Nat) (s : State), halted s = false → k < 3 →
      exec (.dgeAlarm k) s = .next (dgeRun (dgeAlarm (secAlarm k s)))) ∧
  (∀ (s : State), halted s = false → exec (.dgeAlarm 3) s = .next (dgeRun (dgeAlarm s))) ∧
  (∀ (k : Nat) (s : State), halted s = false → k < 3 →
      let u := dgeRun (dgeAlarm (secAlarm k (raise .sec E.secGlitch 0xFF s)))
    exec (.glitchTrip k) s = .next (mrTry 3 7 0x0030 (Config.freeBytes u.free 48) { u with free := u.free + 1 })) ∧
  (∀ (s : State), (dgeAlarm s).dge.ctx = [])

/-- MR_EXTEND with a 48-byte digest from a source that the register permits makes it the SHA-384 of its old value and the
digest, leaves the other seven, counts it, and logs it while the log has room; from any other source no register
changes and MR_DENIED is recorded (R377–R379). JTAG_ACCESS extends MR7 from SEC, also in the Grave state (R377, R616).
QUOTE_START, when no quote is in progress, captures the nonce, the registers and the log count, sets BUSY and clears
RESULT; QUOTE_DONE clears BUSY, and with an attestation key increments QSEQ and signs the message over the captured
values (R384, R385). The model's own choices of log entries 3, 50, 52 enter its clauses. -/
def Obligations.MeasurementRegistersOnlyExtend : Prop :=
  (∀ (src mr ev : Nat) (dg : List Byte) (s : State), halted s = false → dg.length = 48 → mrOpen src mr s = true →
    s.sec.mr.length = 8 →
      ∃ t, exec (.mrExtend src mr ev dg) s = .next t ∧ t.sec.mr = s.sec.mr.set mr (Config.sha384 (s.sec.mr.getD mr zero48 ++ dg)) ∧
      t.sec.mrCnt = s.sec.mrCnt.set mr (min 65535 (s.sec.mrCnt.getD mr 0 + 1)) ∧
      (s.sec.log.length < 512 → t.sec.log.length = s.sec.log.length + 1) ∧ (512 ≤ s.sec.log.length → t.sec.log = s.sec.log)) ∧
  (∀ (src mr ev : Nat) (dg : List Byte) (s : State), halted s = false → dg.length = 48 →
    mrOpen src mr s = false →
      ∃ t, exec (.mrExtend src mr ev dg) s = .next t ∧ t.sec = s.sec ∧ t = note .sec E.secMrDenied 0xFF s) ∧
  (∀ (s : State),
      ∃ t, exec .jtagAccess s = .next t ∧ t.sec.mr = s.sec.mr.set 7 (Config.sha384 (s.sec.mr.getD 7 zero48 ++ Config.freeBytes s.free 48))) ∧
  (∀ (s : State), s.sec.quote = none →
      ∃ t q, exec .quoteStart s = .next t ∧ t.sec.quote = some q ∧ q.mrs = s.sec.mr ∧ q.count = s.sec.log.length ∧
      q.nonce = (List.range 8).map (fun k => getF (F.secNonceWNonce k) s) ∧ getF F.secQstatBusy t = 1 ∧ getF F.secQstatResult t = 0) ∧
  (∀ (q : Quote) (s : State), s.sec.quote = some q → getF F.secStatAttkeyOk s = 1 →
      let n := (getF F.secQseqQseq s + 1) % 2 ^ 32
    ∃ t, exec .quoteDone s = .next t ∧ t.sec.quote = none ∧ getF F.secQstatBusy t = 0 ∧ getF F.secQstatResult t = 1 ∧
      getF F.secQseqQseq t = n ∧ t.sec.msg = quoteMsg q n s ∧ t.sec.sig = Config.ecdsaSign (quoteMsg q n s)) ∧
  (∀ (q : Quote) (s : State), s.sec.quote = some q → getF F.secStatAttkeyOk s = 0 →
      ∃ t, exec .quoteDone s = .next t ∧ t.sec.quote = none ∧ getF F.secQstatBusy t = 0 ∧ getF F.secQstatResult t = 2 ∧ t.sec.sig = s.sec.sig)

/-- MCA_LOOKUP while MCA serves and no lookup waits in its bank: one of a cached line is a hit and serves the reads that
wait for the unit (R399, R400); one of a page that holds no entry needs no line. MCA_FILL of an outstanding miss, with
none waiting in the bank, removes the miss and installs the line clean (R400). MCA_CLEANER writes back the lines at
MCA_LOW (R402). MCA_GROUP_OFF of a powered group clears its GROUP_ON bit, cleans and drops its lines, gates it and
raises GROUP_OFF; MCA_GROUP_ON of a gated group in H0 sets its bit and powers it (R403). MCA_AUTO_GATE after 10 ms
below IDLE_RATE gates the highest powered group of 3, 2 and 1 (R403). MCA_CACHE_DISABLE clears CACHE_EN and writes
every dirty line back (R402). MCA_RESET_REPLAY ends the replay (R404). The model's own choices of log entries 3, 13,
53, 57, 121 enter its clauses. -/
def Obligations.MapCacheLooksUpFillsAndCleans : Prop :=
  (∀ (n u : Nat) (l : McaLine) (s : State), halted s = false → mcaServes s = true →
    bankWaits (mcaBank 0 n (u / 8)) s = false → getF F.mcaCtrlCacheEn s = 1 → mcaLine 0 n (u / 8) s = some l →
    l.pref = false → l.victim = false → (pageOf 0 n (u / 512) s).all (·.zero) = false →
      let t := touchPage 0 n (u / 512) (lookupRate (count .mca 0x01 1 s))
    exec (.mcaLookup 0 n u) s = .next (serveReads n (· == u) (count .mca 0x02 1
      { t with mca.lines := modFirst (isLine 0 n l.line) (fun l => { l with pref := false }) t.mca.lines }))) ∧
  (∀ (n u : Nat) (s : State), halted s = false → mcaServes s = true → bankWaits (mcaBank 0 n (u / 8)) s = false →
    pageOf 0 n (u / 512) s = none →
      exec (.mcaLookup 0 n u) s = .next (serveReads n (· == u) (touchPage 0 n (u / 512) (lookupRate (count .mca 0x01 1 s))))) ∧
  (∀ (n l : Nat) (m : McaMiss) (s : State), halted s = false → mcaServes s = true → s.mca.misses = [m] →
    m.epoch = 0 → m.nsid = n → m.line = l → m.waiting = false → m.demand = true → mcaLine 0 n l s = none →
    s.wb.reads = [] →
      exec (.mcaFill 0 n l) s = .next (mcaInstall
      { epoch := 0, nsid := n, line := l, dirty := none, way := 0, victim := false, pref := false } { s with mca.misses := [] })) ∧
  (∀ (s : State), halted s = false → running .mca s = true →
      exec .mcaCleaner s = .next (cleanLines (fun l => l.dirty == some (mcaLow s)) s)) ∧
  (∀ (s : State), ∀ l ∈ (cleanLines (fun _ => true) s).mca.lines, l.dirty = none) ∧
  (∀ (g : Nat) (s : State), halted s = false → 1 ≤ g → g ≤ 3 → bit (getF F.mcaWaysGroupOn s) (g - 1) = true →
    s.mca.off.contains g = false →
      exec (.mcaGroupOff g) s = .next (regWrite .mca (fun s => groupOff g
      (setF F.mcaWaysGroupOn (bclr (getF F.mcaWaysGroupOn s) (g - 1)) { s with mca.auto := s.mca.auto.filter (· != g) })) s)) ∧
  (∀ (g : Nat) (s : State),
      g ∈ (groupOff g s).mca.off ∧ ∀ l ∈ (groupOff g s).mca.lines, l.victim = true ∨ l.way / 4 ≠ g) ∧
  (∀ (g : Nat) (s : State), halted s = false → 1 ≤ g → g ≤ 3 → s.mca.off.contains g = true →
    getF F.pwcStatHstate s = 0 →
      exec (.mcaGroupOn g) s = .next (regWrite .mca (fun s => setInt .mca I.mcaGroupOn
      { setF F.mcaWaysGroupOn (bset (getF F.mcaWaysGroupOn s) (g - 1)) s with
        mca.off := s.mca.off.filter (· != g), mca.auto := s.mca.auto.filter (· != g) }) s)) ∧
  (∀ (s : State), halted s = false → s.mca.off = [] → running .mca s = true → getF (H.pwrAuto .mca) s = 1 →
    10000000 ≤ s.now - s.mca.busyAt →
      exec .mcaAutoGate s = .next (groupOff 3 { s with mca.auto := s.mca.auto ++ [3], mca.busyAt := s.now })) ∧
  (∀ (s : State), halted s = false →
      ∃ f, exec .mcaCacheDisable s = .next (regWrite .mca f s) ∧ ∀ u, f u =
      forEach (u.mca.misses.filter fun m => m.demand && m.epoch == 0) (fun m t => serveReads m.nsid (fun x => x / 8 == m.line) t)
        { cleanLines (fun _ => true) (setF F.mcaCtrlCacheEn 0 u) with mca.lines := [], mca.misses := [] }) ∧
  (∀ (k : Nat) (s : State), halted s = false → s.mca.replay = some k → running .ftu s = true →
      exec .mcaResetReplay s = .next { s with mca.replay := none })

/-- MAP_PAGE_LOAD of a loading page makes it resident (R397, R412). JOURNAL_SPILL past SPILL_PCT or in an orderly stop
copies the oldest sealed block without a copy into the metadata band (R408). CHECKPOINT_PAGE_WRITE of a dirty resident
page that goes first writes it (R409); CHECKPOINT_PAGE_DONE, once the copy is programmed, makes it the page's copy and
the page clean unless a clause changed it meanwhile (R409). CHECKPOINT_ROOT in service, one period after the last,
writes a root with the next generation and a CKPT clause, and sends the footprint (R409, R410). SHADOW_CAUGHT_UP of
this head sets CAUGHT_UP and tells the peer (R36, R37). METADATA_RECOVERY in stage 8 resumes SEQ, BSEQ and the store
counter at least 2³² above their persisted values (R303, R411), and with a gap is Class 4 (R412, R618).
MAP_PAGE_REBUILD of a loading page makes it resident and dirty, with MAPPAGE_LOST (R414). The model's own choices of
log entries 3, 54, 55, 56, 57, 58, 105, 113, 119 enter its clauses. -/
def Obligations.MapPagesAndJournalReachFlash : Prop :=
  (∀ (e n g : Nat) (p : MapPage) (s : State), halted s = false → pageOf e n g s = some p → p.resident = false →
    p.zero = false → p.loading = true → running .ftu s = true → mcaServes s = false →
      let t := count .ftu 0x03 1 (putPage { p with resident := true, loading := false, used := s.now } s)
    exec (.mapPageLoad e n g) s = .next (evictPages t.ftu.pages.length (if mapLoaded t && !mapLoaded s then setInt .ftu I.ftuMapLoaded t else t))) ∧
  (∀ (e n g : Nat) (p : MapPage) (s : State), p.epoch = e → p.nsid = n → p.page = g →
      pageOf e n g (putPage p s) = some p) ∧
  (∀ (b : JBlock) (s : State), halted s = false → running .ftu s = true → s.pwc.stopping = true →
    s.ftu.blocks.find? (fun b => b.sealed_ && b.copy == 0) = some b →
    (packMeta 7 0 0 b.no b.first 0 (blockBytes b s) s).isSome = true →
      ∃ u t, packMeta 7 0 0 b.no b.first 0 (blockBytes b s) s = some (u, t) ∧ exec .journalSpill s = .next (count .ftu 0x05 1
      { t with ftu.blocks := modFirst (fun k => k.no == b.no) (fun k => { k with copy := u }) t.ftu.blocks })) ∧
  (∀ (e n g : Nat) (p : MapPage) (s : State), halted s = false → pageOf e n g s = some p →
    running .ftu s = true → getF F.ftuCtrlCkptEn s = 1 → ckptReady p = true →
    (s.ftu.pages.filter ckptReady).all (fun q => ckptFirst p q s) = true →
    (packMeta 1 n e g (s.ftu.capply - 1) p.flash (pageBytes e n g s) (cleanLines (fun l => l.epoch == e && l.nsid == n && l.line / 64 == g) s)).isSome = true →
      ∃ u t, packMeta 1 n e g (s.ftu.capply - 1) p.flash (pageBytes e n g s) (cleanLines (fun l => l.epoch == e && l.nsid == n && l.line / 64 == g) s) = some (u, t) ∧
      exec (.checkpointPageWrite e n g) s = .next (putPage { p with writing := true, wrote := u, again := none } t)) ∧
  (∀ (e n g u : Nat) (p : MapPage) (s : State), halted s = false → pageOf e n g s = some p → p.writing = true →
    p.wrote = u → programmed u s = true → p.flash = 0 →
      exec (.checkpointPageDone e n g u) s = .next (count .ftu 0x04 1 (putPage { p with
      writing := false, flash := u, wrote := 0, dirty := p.again.isSome && !p.zero,
      dirtyCseq := p.again.getD p.dirtyCseq, again := none } s))) ∧
  (∀ (s : State), halted s = false → running .ftu s = true → inService s = true → jrnlRoom s = true →
    1000000 * getF F.ftuCkptCfgPeriodMs s ≤ s.now - s.ftu.rootAt →
      exec .checkpointRoot s = .next (modeEval false (sendTroys (.footprint (footGib (writeRoot false s))) (writeRoot false s)))) ∧
  (∀ (s : State), halted s = false → s.pair.shadow = true →
      exec (.shadowCaughtUp false) s = .next (modeEval false (sendTroys .caughtUp
      (setF F.mirPairStatCaughtUp 1 { s with pair.caughtUp := true })))) ∧
  (∀ (s : State), halted s = false → getF F.bldStatStage s = 8 →
      exec (.metadataRecovery false) s = .next (recoverMeta true s)) ∧
  (∀ (r : Root) (s : State), s.ftu.root = some r →
      let t := resumeCounters s
    r.nextSeq + 2 ^ 32 ≤ t.hqe.nextSeq ∧ r.nextBseq + 2 ^ 32 ≤ t.ftu.nextBseq ∧ (r.storeCtr + 2 ^ 32) % 2 ^ 63 ≤ t.cmp.storeCtr) ∧
  (∀ (s : State), halted s = false → getF F.bldStatStage s = 8 →
      exec (.metadataRecovery true) s = .next (journalGap s)) ∧
  (∀ (e n g : Nat) (p : MapPage) (s : State), halted s = false → pageOf e n g s = some p → p.resident = false →
    p.zero = false → p.loading = true → running .ftu s = true →
      ∃ t q, exec (.mapPageRebuild e n g) s = .next t ∧ pageOf e n g t = some q ∧ q.resident = true ∧ q.loading = false ∧ q.dirty = true)

/-- BAND_OPEN of an enabled class with no open band of its kind, at least D + P eligible members and an unused number
takes the D + P members with the highest free fraction and journals the band (R415–R419, R437–R439); with fewer
members than the smallest width allows, the class is blocked with CLASS_BLOCKED (R438). BAND_SEAL of an open band
whose last stripe is closed seals it, and an early seal one that is to be relocated (R416, R433). EXTENT_REQUEST for a
member with fewer than 512 free blocks asks the peer; an extent it grants is journalled (R418). FREE_SPACE_EVAL starts
collection below START_PCT and stops admission below ADMIT_RES_PCT (R420, R424). PROGRAM_FAIL of an outstanding
program ends it and fails its chunk (R430, R447). ERASE_FAIL retires the block with ERASE_FAIL (R430). The model's own
choices of log entry 99 enter its clauses. -/
def Obligations.BandsOpenSealAndKeepSpace : Prop :=
  (∀ (c d p k no : Nat) (s : State), halted s = false → running .ftu s = true → c < 8 → classOn c s = true →
    openBand c false false s = none → jrnlRoom s = true → classD c s = d → classP c s = p → classK d s = k →
    minD p ≤ d → d + p ≤ (eligible k s).length → freeBand s = some no →
      exec (.bandOpen c false false) s = .next (packAll (openNew no c d p k false false (((eligible k s).take (d + p)).mergeSort (· ≤ ·))
      { s with par.blocked := s.par.blocked.filter (· != c) }))) ∧
  (∀ (c : Nat) (s : State), halted s = false → running .ftu s = true → c < 8 → classOn c s = true →
    openBand c false false s = none → jrnlRoom s = true →
    (eligible (classK (classD c s) s) s).length < minD (classP c s) + classP c s →
    minD (classP c s) ≤ classD c s →
      exec (.bandOpen c false false) s = .next (let t := if (eligible (classK (classD c s) s) s).length - classP c s < classD c s then note .par E.parNarrow 0xFF s else s
      note .par E.parClassBlocked 0xFF { t with par.blocked := t.par.blocked.filter (· != c) ++ [c] })) ∧
  (∀ (n : Nat) (b : Band) (s : State), halted s = false → bandOf n s = some b → running .ftu s = true →
    b.mine = true → b.st = .open_ → lastClosed b s = true →
      exec (.bandSeal n false) s = .next (sealBand n false (forEach ((s.par.stripes.filter fun x => x.band == n && !x.closed).map (·.no))
      (fun k t => closeStripe n k false t) s))) ∧
  (∀ (n : Nat) (b : Band) (s : State), halted s = false → bandOf n s = some b → running .ftu s = true →
    b.mine = true → b.st = .open_ → (b.reloc = true ∨ s.pwc.stopping = true) →
      exec (.bandSeal n true) s = .next (sealBand n true s)) ∧
  (∀ (m e : Nat) (s : State), halted s = false → running .ftu s = true → (memOf m s).st = .present →
    (freeBlocks m s).length < 512 → troysUp s = true → jrnlRoom s = true →
    ownsExtent m e (sendTroys (.extentRequest m) s) = false → e * 256 < (recOf m s).elim 0 blockCount →
      exec (.extentRequest m (some e)) s = .next (clause (mkClause cExtent 0 0 m e s.pins.headSel) (sendTroys (.extentRequest m) s))) ∧
  (∀ (s : State), halted s = false → running .ftu s = true → s.ftu.gcOn = false →
    freePm s < getF F.ftuSpaceStartPct s * 10 →
      ∃ t, exec .freeSpaceEval s = .next t ∧ t.ftu.gcOn = true) ∧
  (∀ (s : State), halted s = false → running .ftu s = true → s.ftu.admitStop = false →
    freePm s < getF F.ftuSpaceAdmitResPct s * 10 →
      ∃ t, exec .freeSpaceEval s = .next t ∧ t.ftu.admitStop = true ∧ bit (getF (H.errStat .ftu) t) E.ftuSpaceLow = true) ∧
  (∀ (m k b n pos : Nat) (c : YmCmd) (s : State), halted s = false →
    s.mods.cmds.find? (fun c => c.m == m && c.block == k && c.opc == 3) = some c → c.for_ = .program b n pos →
      exec (.programFail m k) s = .next (chunkFail b n pos (ymEnd c s))) ∧
  (∀ (m k : Nat) (c : YmCmd) (s : State), halted s = false →
    s.mods.cmds.find? (fun c => c.m == m && c.block == k && c.opc == 4) = some c →
      exec (.eraseFail m k) s = .next (note .ftu E.ftuEraseFail 0xFF (retireBlk m k 2 (ymEnd c s))))

/-- GC_VICTIM_SELECT takes the head of the relocation queue when that band is Sealed and quiet, and seals it first when it
is Open (R424, R433). RELOCATE of a collected unit whose copy is programmed journals the RELOCATE with SHARED and
REENCODED and takes the unit off the collection (R426–R428, R444). ERASE_PENDING of a band with nothing live and
nothing that needs it journals it, marks its blocks Pending erase and issues the erases (R427). ERASE_DONE, with every
block erased, frees them, drops the band's back-pointers and journals it (R427). FIXUP_WALK of an entry that names a
forwarded address journals a RELOCATE with FIXUP to its new address (R428). -/
def Obligations.CollectionMovesUnitsAndErasesBands : Prop :=
  (∀ (n : Nat) (b : Band) (s : State), halted s = false → running .ftu s = true → getF F.ftuCtrlGcEn s = 1 →
    bgOk s = true → s.ftu.relocQ.head? = some n → bandOf n s = some b → b.st = .sealed_ → bandQuiet n s = true →
      exec .gcVictimSelect s = .next (collect n false s)) ∧
  (∀ (n : Nat) (b : Band) (s : State), halted s = false → running .ftu s = true → getF F.ftuCtrlGcEn s = 1 →
    bgOk s = true → s.ftu.relocQ.head? = some n → bandOf n s = some b → b.st = .open_ →
      exec .gcVictimSelect s = .next (sealBand n true s)) ∧
  (∀ (n : Nat) (b : Band) (s : State), bandOf n s = some b → liveIn n s = [] →
      ∃ c, bandOf n (collect n false s) = some c ∧ c.st = .collecting) ∧
  (∀ (n i o w : Nat) (re : Bool) (d : DestUnit) (s : State), halted s = false →
    s.wb.units.find? (fun d => d.src == .gc o re && d.nsid == n && d.unit == i && d.uaddr == w && d.stage == .clause) = some d →
    running .ftu s = true → uBand w ≠ 0 → programmed w s = true → jrnlRoom s = true →
    s.ftu.csnext ≤ mcaLow s + 4096 → gcOf (uBand o) s = none → fptOf o s = none →
      let t := clause (mkClause cRelocate (b2n (sharedUnit o s) + 4 * b2n re) n i o w) s
    exec (.relocate n i o w re) s = .next (dropUnit d.id
      { t with ftu.gcs := t.ftu.gcs.map fun g => if g.band = uBand o then { g with units := g.units.filter (· != o) } else g })) ∧
  (∀ (n : Nat) (b : Band) (s : State), halted s = false → bandOf n s = some b → running .ftu s = true →
    b.st = .collecting → (gcOf n s).isSome = true → liveIn n s = [] → bandNeeded n s = false →
    bandQuiet n s = true → jrnlRoom s = true →
      let t := modBand n (fun b => { b with st := .erasing }) (clause (mkClause cErasePending 0 0 n 0 0) s)
    exec (.erasePending n) s = .next (forEach (eraseList b s) (fun e t => ymSend (ymCmd e.1 4 e.2 0 0 0 (.erase n)) (setBlk e.1 e.2 2 t)) t)) ∧
  (∀ (n : Nat) (b : Band) (s : State), halted s = false → bandOf n s = some b → running .ftu s = true →
    b.st = .erasing → erasing n s = false → jrnlRoom s = true →
      let t := forEach ((eraseList b s).filter fun e => (blkOf e.1 e.2 s).st == 2) (fun e t => setBlk e.1 e.2 0 t) s
    exec (.eraseDone n) s = .next (count .ftu 0x06 1 (clause (mkClause cEraseDone 0 0 n 0 0)
      { t with ftu.gcs := t.ftu.gcs.filter fun g => g.band != n, ftu.back := t.ftu.back.filter fun p => uBand p.1 != n }))) ∧
  (∀ (n i : Nat) (f : Fwd) (s : State), halted s = false →
    s.ftu.fwd.find? (fun f => f.old == mapGet 0 n i s) = some f → running .ftu s = true →
    getF F.ftuCtrlFixupEn s = 1 → jrnlRoom s = true → f.new ≠ lostEntry →
      exec (.fixupWalk 0 n i) s = .next (clause (mkClause cRelocate 2 n i (mapGet 0 n i s) f.new) s))

/-- PARITY_SEND of a closed stripe whose data chunks have all been sent writes its parity chunks, P and with two parity
chunks Q, to their rotated positions (R440, R441, R443). STRIPE_COMPLETE with its parity sent and every chunk
programmed frees its journal record and lets waiting units pack (R443, R446). STRIPE_CLOSE_DEADLINE closes an open
stripe 50 µs after a durable unit entered it (R212). OPEN_STRIPE_COMPLETE of a GC or metadata stripe that no PAR holds
abandons it (R449). RECONSTRUCT_DONE with enough chunks recovers the unit's bytes and lets the read go on (R442,
R450); with too few and nothing left to try the unit is lost (R459, R460). The model's own choices of log entries 41,
63 enter its clauses. -/
def Obligations.StripesGetTheirParityAndComplete : Prop :=
  (∀ (n k : Nat) (b : Band) (x : Stripe) (s : State), halted s = false → bandOf n s = some b →
    stripeAt n k s = some x → running .par s = true → getF F.parCtrlParityEn s = 1 → x.closed = true →
    x.parity = false → x.held = true → x.recover = false →
    (List.range b.d).all (fun d => x.chunks.getD (dataPos b k d) .open_ != .open_) = true →
      exec (.paritySend n k) s = .next (sendParity b k s)) ∧
  (∀ (b : Band) (n : Nat) (x : Stripe) (s : State), stripeAt b.no n s = some x →
      sendParity b n s = forEach (parityOf b x) (fun c t => sendChunk b n c.1 c.2 t) (putStripe { x with parity := true } s)) ∧
  (∀ (n k : Nat) (b : Band) (x : Stripe) (s : State), halted s = false → bandOf n s = some b →
    stripeAt n k s = some x → x.parity = true → chunksDone x = true → s.ftu.blocks = [] →
      exec (.stripeComplete n k) s = .next (packAll (durCheck (count .par 0x01 1 (dropStripe n k s))))) ∧
  (∀ (n k t : Nat) (x : Stripe) (s : State), halted s = false → stripeAt n k s = some x → x.closed = false →
    x.dueAt = some t → t ≤ s.now →
      exec (.stripeCloseDeadline n k) s = .next (closeStripe n k true s)) ∧
  (∀ (n k : Nat) (l : List Nat) (b : Band) (x : Stripe) (s : State), halted s = false → bandOf n s = some b →
    stripeAt n k s = some x → running .par s = true → running .ftu s = true → x.held = false → b.mine = true →
    (x.isGc = true ∨ x.isMeta = true) →
      exec (.openStripeComplete n k l) s = .next (abandonStripe n k s)) ∧
  (∀ (n k : Nat) (l : List Nat) (b : Band) (x : Stripe) (s : State), halted s = false → bandOf n s = some b →
    stripeAt n k s = some x → running .par s = true → running .ftu s = true → getF F.parCtrlParityEn s = 1 →
    x.held = false → b.mine = true → x.isGc = false → x.isMeta = false →
      exec (.openStripeComplete n k l) s = .next (completeStripe b x l s)) ∧
  (∀ (r : Nat) (o : List (Nat × List Byte)) (x : UnitRead) (b : Band) (s : State), halted s = false →
    uRead r s = some x → bandOf (uBand x.uaddr) s = some b → x.stage = .module_ → x.gone ≠ [] → x.late = [] →
    x.tries = [] → b.p < x.gone.length → x.gone.all (· < b.d) = true → x.gone.Nodup → running .par s = true →
    getF F.parCtrlParityEn s = 1 →
      exec (.reconstructDone r o []) s = .next (readLost x (lossCause x s) s))

/-- Over data chunks of one nonzero length, in data position order: with one position unreadable and P read, solving gives
that chunk; so it does from Q alone, for up to 30 positions; and with two positions unreadable, P and Q together give
both chunks (R441, R442). -/
def Obligations.ParityRecoversUnreadableChunks : Prop :=
  (∀ (ds : List (List Byte)) (q : List Byte) (n x : Nat), 0 < n → (∀ c ∈ ds, c.length = n) → x < ds.length →
      solve [x] (((List.range ds.length).zip ds).filter fun c => c.1 != x) (parityP ds) q = some [(x, ds.getD x [])]) ∧
  (∀ (ds : List (List Byte)) (n x : Nat), 0 < n → (∀ c ∈ ds, c.length = n) → x < ds.length → ds.length ≤ 30 →
      solve [x] (((List.range ds.length).zip ds).filter fun c => c.1 != x) [] (parityQ ds) = some [(x, ds.getD x [])]) ∧
  (∀ (ds : List (List Byte)) (n x y : Nat), 0 < n → (∀ c ∈ ds, c.length = n) → x < y → y < ds.length →
    ds.length ≤ 30 →
      solve [x, y] (((List.range ds.length).zip ds).filter fun c => c.1 != x && c.1 != y) (parityP ds) (parityQ ds) =
      some [(x, ds.getD x []), (y, ds.getD y [])])

/-- MEMBER_TIMEOUT of a read later than MEMBER_TIMEOUT marks the command late, counts the timeout and reads around the
member (R451, R453). PROGRAM_ERASE_TIMEOUT counts a timeout in the same way (R453). MEMBER_FAILED declares a member
with a fatal status, or three timeouts within a second, Failed (R453); MEMBER_DECLARE_FAILED and
MEMBER_DECLARE_RETIRING do so by command (R453, R454), MEMBER_DECLARATION for the peer's (R455), MEMBER_GRACE_EXPIRY
after GRACE_S down on both heads (R453). A member that fails is Failed and its rebuild is due after DELAY_S (R456).
REBUILD_PLAN_TICK notes a rebuild without space (R458), REBUILD_START starts one that is due, REBUILD_BAND collects
the first band in order (R456, R457), MEMBER_RELEASED releases a member that no band names (R454). The model's own
choices of log entry 3 enter its clauses. -/
def Obligations.MembersFailRetireAndRebuild : Prop :=
  (∀ (m q cid r pos : Nat) (c : YmCmd) (s : State), halted s = false → ymOf m q cid s = some c →
    c.for_ = .read r pos → c.late = false → c.issued + memTimeout s < s.now →
    s.now ≤ c.issued + 10 * memTimeout s → running .par s = true →
      let mine := fun (d : YmCmd) => d.m == m && d.q == q && d.cid == cid
    let t := timedOut m false (timedOut m false { s with mods.cmds := modFirst mine (fun d => { d with late := true }) s.mods.cmds })
    exec (.memberTimeout m q cid) s = .next (readGone r pos true (count .par 0x03 1 (note .par E.parReadAround 0xFF
      (putMem m { memOf m t with arounds := min 65535 ((memOf m t).arounds + 1) } t))))) ∧
  (∀ (m q cid : Nat) (c : YmCmd) (x : ModRec) (s : State), halted s = false → ymOf m q cid s = some c →
    c.opc = 3 → c.late = false → recOf m s = some x → c.issued + memTimeout s + 1000 * x.tProgMax < s.now →
      exec (.programEraseTimeout m q cid false) s = .next (timedOut m false { s with
      mods.cmds := modFirst (fun d => d.m == m && d.q == q && d.cid == cid) (fun d => { d with late := true }) s.mods.cmds })) ∧
  (∀ (m : Nat) (s : State), halted s = false → canFail m s = true →
    ((memOf m s).fatal = true ∨ 3 ≤ (recentTimeouts m s).length) →
      exec (.memberFailed m) s = .next (declareFail m s)) ∧
  (∀ (m : Nat) (s : State), halted s = false → getF (H.pwrState .par) s ≠ 2 → getF (H.state .par) s ≠ 5 →
    getF F.parMemSelModule s = m → canFail m s = true →
      exec .memberDeclareFailed s = .next (declareFail m s)) ∧
  (∀ (m : Nat) (s : State), halted s = false → getF (H.pwrState .par) s ≠ 2 → getF (H.state .par) s ≠ 5 →
    getF F.parMemSelModule s = m → canRetire m s = true →
      exec .memberDeclareRetiring s = .next (memberRetire m (sendTroys (.member m 2) s))) ∧
  (∀ (m : Nat) (s : State), halted s = false → canFail m s = true →
      exec (.memberDeclaration m 3) s = .next (memberFail m s)) ∧
  (∀ (m : Nat) (s : State), halted s = false → canRetire m s = true →
      exec (.memberDeclaration m 2) s = .next (memberRetire m s)) ∧
  (∀ (m t : Nat) (s : State), halted s = false → canFail m s = true → getF (F.mptLinkStatUp m) s = 0 →
    (memOf m s).downAt = some t → 1000000000 * getF F.parGraceGraceS s ≤ s.now - t →
      exec (.memberGraceExpiry m true) s = .next (declareFail m s)) ∧
  (∀ (m : Nat) (s : State),
      (tget? (memberRetire m s).par.members m).map (·.st) = some .retiring ∧
      (memberRetire m s).par.rebuilds.getLast? = some { member := m, started := false, dueAt := s.now + 1000000000 * getF F.parRebuildDelayS s }) ∧
  (∀ (s : State), halted s = false → running .par s = true → getF F.parCtrlRebuildEn s = 1 →
    rebuildTight s = true → rebuildList s ≠ [] →
      exec .rebuildPlanTick s = .next (note .par E.parRebuildSpace 0xFF s)) ∧
  (∀ (m : Nat) (s : State), halted s = false → running .par s = true → getF F.parCtrlRebuildEn s = 1 →
    s.par.rebuilds.any (fun r => r.member == m && !r.started && decide (r.dueAt ≤ s.now)) = true →
      exec (.rebuildStart m) s = .next { s with
      par.rebuilds := modFirst (fun r => r.member == m) (fun r => { r with started := true }) s.par.rebuilds }) ∧
  (∀ (b : Band) (s : State), halted s = false → rebuildNext s = some b → running .par s = true →
    running .ftu s = true → getF F.parCtrlRebuildEn s = 1 → rebuildTight s = false → b.st = .sealed_ →
    bandQuiet b.no s = true →
      exec (.rebuildBand b.no) s = .next (collect b.no true s)) ∧
  (∀ (m : Nat) (s : State), halted s = false → (memOf m s).st = .retiring → s.ftu.bands = [] →
      let t := putMem m { memOf m s with st := .released } (sendTroys (.member m 4) s)
    exec (.memberReleased m) s = .next (setInt .par I.parRebuildDone { t with
      par.rebuilds := t.par.rebuilds.filter fun r => r.member != m,
      ftu.eblk := tcut t.ftu.eblk (blockKey m 0) (blockKey (m + 1) 0),
      ftu.extents := tcut t.ftu.extents (65536 * m) (65536 * (m + 1)) }))

/-- LOST_LOG_ACK of n entries that the log holds removes the oldest n and clears OVERFLOW (R463); of more, or of none,
changes nothing. PATROL_STRIPE of a stripe not yet swept whose members cannot all be read is swept; when it was the
sweep's last the sweep ends, SWEEPS counts and SWEEP_DONE is raised (R464, R465). PATROL_PERIOD_END of a sweep that
has not ended in its period is PATROL_LATE (R464). A loss recorded into an empty log is one record with its cause and
raises LOST_NEW (R462, R463). The model's own choices of log entry 3 enter its clauses. -/
def Obligations.LossesAreLoggedAndStripesPatrolled : Prop :=
  (∀ (n : Nat) (s : State), halted s = false → getF (H.pwrState .par) s ≠ 2 → getF (H.state .par) s ≠ 5 → 1 ≤ n →
    n ≤ s.par.lost.length →
      exec (.lostLogAck n) s = .next (setF F.parLostStatOverflow 0 { s with par.lost := s.par.lost.drop n })) ∧
  (∀ (n : Nat) (s : State), halted s = false → getF (H.pwrState .par) s ≠ 2 → getF (H.state .par) s ≠ 5 →
    (n = 0 ∨ s.par.lost.length < n) →
      exec (.lostLogAck n) s = .next s) ∧
  (∀ (n u e c : Nat) (r : Bool) (s : State), s.par.lost = [] →
      (lostAdd n u e c r s).par.lost = [{ nsid := n, unit := u, count := 1, time := stamp s, epoch := e, cause := c, recon := r }] ∧
      bit (getF (H.intStat .par) (lostAdd n u e c r s)) I.parLostNew = true) ∧
  (∀ (n k : Nat) (mm ok : Bool) (o : Option Nat) (f : List Nat) (b : Band) (s : State), halted s = false →
    bandOf n s = some b → running .par s = true → getF F.parCtrlPatrolEn s = 1 → winOpen 1 s = true →
    bgOk s = true → patrolSet s = [(n, k)] → s.par.swept = [] → stripeReadable b k s = false →
      exec (.patrolStripe n k mm o ok f) s = .next (setInt .par I.parSweepDone (incF F.parPatrolStatSweeps
      { s with par.swept := [], par.sweepAt := s.now }))) ∧
  (∀ (s : State), halted s = false → running .par s = true → getF F.parCtrlPatrolEn s = 1 →
    3600000000000 * getF F.parPatrolPeriodH s ≤ s.now - s.par.sweepAt →
      exec .patrolPeriodEnd s = .next (note .par E.parPatrolLate 0xFF { s with par.sweepAt := s.now }))

/-- MPT_LINK_UP of a down link out of PERST# with a nonzero speed and width shows UP, the trained speed and width within
their limits, raises LINK_UP, reads the fence and sends what waits (R470, R472, R493). MPT_LINK_DOWN ends a link with
its commands (R473); MPT_PERST asserted shows PERST and takes the link down, deasserted clears it (R472). MODULE_ADMIT
on a running port with its link up shows the module's state and, when R496 fails, refuses it with ADMIT_REFUSED;
otherwise it is ADMITTED, and a new module comes In service (R454, R496–R498). MODULE_ALERT of an I3C module raises
ALERT and takes the record (R494). SIDEBAND_POLL of an admitted module in SMBus mode shows YM_STAT, and FATAL is kept
as a fatal status (R453, R494). SYSTEM_RECORD_MOVE moves the records of members no longer In service (R498). The
model's own choices of log entries 3, 23, 59, 60, 61, 62, 97 enter its clauses. -/
def Obligations.ModuleLinksAreAdmittedAndWatched : Prop :=
  (∀ (m sp w fe : Nat) (fl : Bool) (s : State), halted s = false → getF (F.mptLinkStatUp m) s = 0 →
    getF (F.mptLinkCtrlPerst m) s = 0 → blockDown (.mpt m) s = false → 1 ≤ sp → 1 ≤ w → unanswered m s = false →
    getF (F.mptFenceResResult m) s ≠ 3 →
      let t := setF (F.mptLinkStatSpeed m) (min sp (getF (F.mptLinkCtrlMaxSpeed m) s)) (setF (F.mptLinkStatWidth m) (min w 2) s)
    let u := setInt (.mpt m) I.mptLinkUp (flagF (F.mptLinkStatFlit m) fl (setF (F.mptLinkStatUp m) 1 t))
    exec (.mptLinkUp m sp w fl fe) s = .next (ymPump m (fenceRead m fe
      { u with par.members := tmod u.par.members m fun x => { x with downAt := none } }))) ∧
  (∀ (m : Nat) (s : State), halted s = false → getF (F.mptLinkStatUp m) s = 1 →
      exec (.mptLinkDown m) s = .next (linkLost m (mptGone m s))) ∧
  (∀ (m : Nat) (s : State), m < 32 → getF (F.mptLinkStatUp m) s = 1 →
      getF (F.mptLinkStatUp m) (mptGone m s) = 0 ∧ bit (getF (H.intStat (.mpt m)) (mptGone m s)) I.mptLinkDown = true) ∧
  (∀ (m : Nat) (s : State), halted s = false → getF (H.pwrState (.mpt m)) s ≠ 2 → getF (H.state (.mpt m)) s ≠ 5 →
      exec (.mptPerst m true) s = .next (mptDown m (flagF (F.mptLinkCtrlPerst m) true s)) ∧
      exec (.mptPerst m false) s = .next (flagF (F.mptLinkCtrlPerst m) false s)) ∧
  (∀ (m : Nat) (r : ModRec) (y : YmRegs) (s : State), halted s = false → getF (F.mptLinkStatUp m) s = 1 →
    running (.mpt m) s = true → admitOk r y = false →
      exec (.moduleAdmit m r y) s = .next (note (.mpt m) E.mptAdmitRefused 0xFF (flagF (F.mptModStatI3c m) r.i3c
      (setF (F.mptModStatYstat m) (y.stat / 2 % 32) (flagF (F.mptModStatMirValid m) (r.crcOk && r.magic == 0x494D4B48) s))))) ∧
  (∀ (m : Nat) (r : ModRec) (y : YmRegs) (s : State), halted s = false → getF (F.mptLinkStatUp m) s = 1 →
    running (.mpt m) s = true → admitOk r y = true → (memOf m s).st = .absent →
      exec (.moduleAdmit m r y) s = .next (admitNew m r (flagF (F.mptModStatAdmitted m) true (flagF (F.mptModStatI3c m) r.i3c
      (setF (F.mptModStatYstat m) (y.stat / 2 % 32) (flagF (F.mptModStatMirValid m) (r.crcOk && r.magic == 0x494D4B48) s)))))) ∧
  (∀ (m : Nat) (r : ModRec) (s : State), halted s = false → getF (F.mptModStatI3c m) s = 1 → r.crcOk = true →
    r.magic = 0x494D4B48 →
      exec (.moduleAlert m r) s = .next (recordRead m r (flagF (F.mptModStatMirValid m) true (setInt (.mpt m) I.mptAlert s)))) ∧
  (∀ (m y : Nat) (s : State), halted s = false → getF (F.mptModStatI3c m) s = 0 →
    getF (F.mptModStatAdmitted m) s = 1 → bit y 1 = true →
      let t := setF (F.mptModStatYstat m) (y / 2 % 32) s
    exec (.sidebandPoll m y) s = .next (putMem m { memOf m t with fatal := true } t)) ∧
  (∀ (m : Nat) (s : State), halted s = false → s.mods.sysRecs = [m] → inSvc s = [m + 1] →
      exec .systemRecordMove s = .next { s with mods.sysRecs := [m + 1] })

/-- YM_COMPLETION with SUCCESS of an ERASE ends the command and counts the erase (R419), and of a READ hands its codewords
to LDC (R480, R499); STALE_FENCE submits the command again with the present fence (R484, R492). PROGRAM_ACCEPTED marks
the command and its chunk accepted (R483). PROGRAM_FINAL with SUCCESS of an accepted program marks the chunk
programmed (R443, R483). CODEWORD_DECODE counts its status and takes the codeword off the read that waits for it; one
of no read changes nothing else (R501). READ_RETRY within RETRY_MAX reads the codeword again with that retry set
(R502). The model's own choices of log entries 41, 59, 63 enter its clauses. -/
def Obligations.ModuleCommandsCompleteByStatus : Prop :=
  (∀ (m q cid b : Nat) (d : List Nat) (c : YmCmd) (s : State), halted s = false → ymOf m q cid s = some c →
    c.opc = 4 → c.for_ = .erase b → getF (F.mptLinkStatUp m) s = 1 →
      exec (.ymCompletion m q cid 0 d) s = .next (eraseOk c b (ymEnd c s))) ∧
  (∀ (m q cid : Nat) (d : List Nat) (c : YmCmd) (s : State), halted s = false → ymOf m q cid s = some c →
    c.opc = 4 → getF (F.mptLinkStatUp m) s = 1 →
      exec (.ymCompletion m q cid 4 d) s = .next (staleCmd c (ymEnd c s))) ∧
  (∀ (m q cid r pos : Nat) (d : List Nat) (c : YmCmd) (s : State), halted s = false → ymOf m q cid s = some c →
    c.opc = 1 → c.for_ = .read r pos → getF (F.mptLinkStatUp m) s = 1 →
      let ws := (List.range c.cws).map fun k => (m, c.block, c.pu, c.cw + k)
    exec (.ymCompletion m q cid 0 d) s = .next (modURead r (fun x => { x with cws := x.cws ++ ws.filter fun w => !x.cws.contains w })
      (count (.mpt m) 0x05 (4608 * c.cws) (ymEnd c s)))) ∧
  (∀ (m q cid b n pos : Nat) (c : YmCmd) (s : State), halted s = false → ymOf m q cid s = some c →
    c.for_ = .program b n pos → c.accepted = false → getF (F.mptLinkStatUp m) s = 1 →
      exec (.programAccepted m q cid) s = .next (setChunk b n pos .accepted { s with
      mods.cmds := modFirst (fun d => d.m == m && d.q == q && d.cid == cid) (fun d => { d with accepted := true }) s.mods.cmds })) ∧
  (∀ (b n pos : Nat) (c : ChunkSt) (x : Stripe) (s : State), stripeAt b n s = some x → c ≠ .failed →
    pos < x.chunks.length →
      ∃ y, stripeAt b n (setChunk b n pos c s) = some y ∧ y.chunks = x.chunks.set pos c ∧ y.degraded = x.degraded) ∧
  (∀ (m q cid b n pos : Nat) (c : YmCmd) (s : State), halted s = false → ymOf m q cid s = some c →
    c.for_ = .program b n pos → c.accepted = true → getF (F.mptLinkStatUp m) s = 1 →
      exec (.programFinal m q cid 0) s = .next (durCheck (setChunk b n pos .programmed (ymEnd c s)))) ∧
  (∀ (l m k pu cw b : Nat) (s : State), halted s = false → running .ldc s = true → getF F.ldcCtrlDecEn s = 1 →
    laneUsable .ldc l s = true → bandAt m k s = none → s.wb.reads = [] →
      exec (.codewordDecode l m k pu cw 1 b) s = .next (count .ldc 2 1 (wakeLane .ldc [l] s))) ∧
  (∀ (l m k pu cw b : Nat) (s : State), halted s = false → running .ldc s = true → getF F.ldcCtrlDecEn s = 1 →
    laneUsable .ldc l s = true → bandAt m k s = none → s.wb.reads = [] →
      exec (.codewordDecode l m k pu cw 4 b) s = .next (note .ldc E.ldcUncorr l (count .ldc 5 1 (wakeLane .ldc [l] s)))) ∧
  (∀ (l m k pu cw b : Nat) (x : UnitRead) (s : State), halted s = false → running .ldc s = true →
    getF F.ldcCtrlDecEn s = 1 → laneUsable .ldc l s = true → bandAt m k s = none → s.wb.reads = [x] →
    x.cws.contains (m, k, pu, cw) = true → bandOf (uBand x.uaddr) s = none →
      exec (.codewordDecode l m k pu cw 0 b) s = .next (readAdvance x.id (modURead x.id (fun y => { y with cws := y.cws.filter fun c => c != (m, k, pu, cw) })
      (count .ldc 1 1 (wakeLane .ldc [l] s))))) ∧
  (∀ (m k pu cw st d : Nat) (x : UnitRead) (b : Band) (s : State), halted s = false →
    s.wb.reads.find? (fun x => x.cws.contains (m, k, pu, cw)) = some x → running .ldc s = true → 1 ≤ st →
    st ≤ retryMax m s → reachable m s = true → bandOf (uBand x.uaddr) s = some b → posAt b m k pu s = some d →
    getF F.ldcCfgEarlyRecon s = 0 →
      exec (.readRetry m k pu cw st) s = .next (ymSend { ymCmd m 1 k pu cw 1 (.read x.id d) with retry := st } s))

/-- SERVO_UPDATE from PTP in the Unset state takes the time and enters Acquiring; while set, an offset below 1 ms is
slewed and one of 1 ms or more stepped with STEPPED (R510–R512); without a source a locked clock enters Holdover with
SRC_LOST (R510). PTP_EVENT_MESSAGE on a port that takes part shows the offset (R181, R182). PTP_ANNOUNCE sets
ANNOUNCE_OK, joins the selection; PTP_ANNOUNCE_TIMEOUT ends it (R182). PPS_EDGE stores its timestamp, and carries out
a pending set request of SRC 2 (R509, R513). EPH_SET under SRC 2 sets SET_PEND, cleared after 2 s by EPH_SET_TIMEOUT
(R513). PPS_OUT rises at a whole second while it may be driven, and falls when it may not (R514). The model's own
choices of log entries 3, 65 enter its clauses. -/
def Obligations.TimeFollowsItsSource : Prop :=
  (∀ (x : Option Int) (o : Int) (s : State), halted s = false → running .eph s = true → srcOffset x s = some o →
      exec (.servoUpdate x) s = .next (servo o s)) ∧
  (∀ (o : Int) (s : State), getF F.ephStatState s = 0 →
      getF F.ephStatState (servo o s) = 1 ∧ (servo o s).eph.time = moveTime s.eph.time (-o) ∧ (servo o s).eph.slew = 0) ∧
  (∀ (o : Int) (s : State), getF F.ephStatState s ≠ 0 → o.natAbs < 1000000 →
      (servo o s).eph.time = s.eph.time ∧ (servo o s).eph.slew = o) ∧
  (∀ (o : Int) (s : State), getF F.ephStatState s ≠ 0 → 1000000 ≤ o.natAbs →
      (servo o s).eph.time = moveTime s.eph.time (-o) ∧ (servo o s).eph.slew = 0 ∧ bit (getF (H.errStat .eph) (servo o s)) E.ephStepped = true) ∧
  (∀ (x : Option Int) (s : State), halted s = false → running .eph s = true → srcOffset x s = none →
    getF F.ephStatState s = 2 →
      ∃ t, exec (.servoUpdate x) s = .next t ∧ getF F.ephStatState t = 3 ∧ t.eph.holdSince = some s.now ∧ bit (getF (H.errStat .eph) t) E.ephSrcLost = true) ∧
  (∀ (p : Nat) (o : Int) (s : State), halted s = false → ptpOn p s = true →
      exec (.ptpEventMessage p o) s = .next (setF (F.fabPtpStatOffset p) (twos 16 o) s)) ∧
  (∀ (p k : Nat) (s : State), halted s = false → ptpOn p s = true →
      exec (.ptpAnnounce p k) s = .next (ptpSelect { setF (F.fabPtpStatAnnounceOk p) 1 s with
      fab.announce := (s.fab.announce.filter fun a => a.port != p) ++ [{ port := p, quality := k }] })) ∧
  (∀ (p : Nat) (s : State), halted s = false → s.fab.announce.any (fun a => a.port == p) = true →
      exec (.ptpAnnounceTimeout p) s = .next (ptpSelect (setF (F.fabPtpStatAnnounceOk p) 0
      { s with fab.announce := s.fab.announce.filter fun a => a.port != p }))) ∧
  (∀ (s : State), halted s = false → running .eph s = true → getF F.ephStatSetPend s = 1 →
    getF F.ephCtrlSrc s = 2 →
      ∃ t, exec .ppsEdge s = .next t ∧ t.eph.time = moveTime (get64 F.ephSetLoSet F.ephSetHiSet s) (inDelay s) ∧ t.eph.lastPps = some s.now ∧
      getF F.ephStatSetPend t = 0 ∧ getF F.ephStatState t = 1 ∧
      get64 F.ephPpsTsLoPpsTs F.ephPpsTsHiPpsTs t = moveTime s.eph.time (-inDelay s) % 2 ^ 64) ∧
  (∀ (s : State), halted s = false → getF (H.pwrState .eph) s ≠ 2 → getF (H.state .eph) s ≠ 5 →
    getF F.ephCtrlSrc s = 2 →
      exec .ephSet s = .next (setF F.ephStatSetPend 1 { s with eph.setAt := some s.now })) ∧
  (∀ (s : State), halted s = false → getF (H.pwrState .eph) s ≠ 2 → getF (H.state .eph) s ≠ 5 →
    getF F.ephCtrlSrc s ≠ 2 →
      exec .ephSet s = .next s) ∧
  (∀ (t : Nat) (s : State), halted s = false → s.eph.setAt = some t → 2000000000 ≤ s.now - t →
      exec .ephSetTimeout s = .next (setF F.ephStatSetPend 0 { s with eph.setAt := none })) ∧
  (∀ (s : State), halted s = false → ppsOutOn s = true → s.eph.time % 1000000000 ≤ 8 →
      exec .ppsOutRise s = .next { s with pins := { s.pins with ppsOut := true } }) ∧
  (∀ (s : State), halted s = false → ppsOutOn s = false →
      exec .ppsOutFall s = .next { s with pins := { s.pins with ppsOut := false } })

/-- ENTRY_FIRE of the first due entry: a window whose duration has not passed opens for the rest of it (R517, R518, R520);
a snapshot cut is taken (R524, R525), or skipped with CUT_SKIPPED when it is late with SKIP_LATE (R518). WINDOW_CLOSE
ends windows whose time has come (R520). CUT_GUARD_END ends the guard and posts what it delayed (R526). EPOCH_READY of
a settled Pending epoch makes it Ready (R529). EPOCH_RESERVE_REFILL adds agreed numbers (R524). SNAP_CREATE and
EPH_PLACE place an entry in the lowest free place (R516, R521, R533); EPH_REMOVE removes a cut's entry (R522);
SNAP_DELETE marks an epoch without clones or holders Deleting (R536), SNAP_DELETE_WALK frees it. CLONE_CREATE makes a
namespace whose map is the epoch's (R537). The model's own choices of log entries 3, 39, 66, 67, 68, 69, 82, 120 enter
its clauses. -/
def Obligations.EphemerisFiresCutsAndWindows : Prop :=
  (∀ (e : Nat) (x : Entry) (s : State), halted s = false → s.eph.entries = [x] → x.no = e → ephFires s = true →
    dueEntry x s = true → (x.kind = .winGc ∨ x.kind = .winPatrol ∨ x.kind = .winDedup) →
      exec (.entryFire e) s = .next (winFire x s)) ∧
  (∀ (x : Entry) (s : State),
    s.eph.time < x.start + (s.eph.time - x.start) / max 1 x.period * x.period + 1000000000 * getF (F.ephWinDurDurS x.ref) s →
      (x.ref, x.start + (s.eph.time - x.start) / max 1 x.period * x.period + 1000000000 * getF (F.ephWinDurDurS x.ref) s) ∈ (winFire x s).eph.open_) ∧
  (∀ (e : Nat) (x : Entry) (c : CutDef) (s : State), halted s = false → s.eph.entries = [x] → x.no = e →
    ephFires s = true → dueEntry x s = true → x.kind = .snapCut → cutOf x.ref s = some c → jrnlRoom s = true →
    lateNow x s = false → x.requireTime = false →
      exec (.entryFire e) s = .next (cutFire x c s)) ∧
  (∀ (e : Nat) (x : Entry) (c : CutDef) (s : State), halted s = false → s.eph.entries = [x] → x.no = e →
    ephFires s = true → dueEntry x s = true → x.kind = .snapCut → cutOf x.ref s = some c → jrnlRoom s = true →
    x.skipLate = true → lateNow x s = true →
      exec (.entryFire e) s = .next (cutSkip x c stSkippedLate s)) ∧
  (∀ (k : Nat) (s : State), halted s = false →
      exec (.windowClose k) s = .next { s with
      eph.open_ := s.eph.open_.filter fun w => !(w.1 == k && decide (w.2 ≤ s.eph.time)) }) ∧
  (∀ (e g : Nat) (s : State), halted s = false → s.eph.guards = [(e, g)] → g ≤ s.eph.time →
      let f := fun (c : Cmd) => if guardHeld c { s with eph.guards := [] } then c else { c with guard := false }
    exec (.cutGuardEnd e) s = .next (settleAll { s with eph.guards := [], hqe.cmds := s.hqe.cmds.map f })) ∧
  (∀ (n : Nat) (e : Epoch) (s : State), halted s = false → s.eph.epochs.find? (fun e => e.no == n) = some e →
    e.st = .pending → (nsOf e.nsid s).any (fun x => ownsNs x s) = true → epochSettled e s = true →
    jrnlRoom s = true → s.repl.streams = [] → s.eph.cuts = [] →
      exec (.epochReady n) s = .next (setInt .eph I.ephCutReady (sysClause e.nsid n 2
      { s with eph.epochs := modAll (fun x => x.no == n) (fun x => { x with st := .ready }) s.eph.epochs }))) ∧
  (∀ (l : List Nat) (s : State), halted s = false → troysUp s = true →
      let ok := fun (n : Nat) => decide (1 ≤ n ∧ n ≤ 1048575) && !s.eph.reserve.contains n && s.eph.epochs.all fun e => e.no != n
    exec (.epochReserveRefill l) s = .next (sendTroys .epochReserve
      { s with eph.reserve := (s.eph.reserve ++ (l.filter ok).eraseDups).take 4096 })) ∧
  (∀ (q tag no : Nat) (b : SnapBody) (s : State), halted s = false → mgmtReady q tag 0x0030 s = true →
    nsListOk b.nsids = true → b.instant = 0 → b.nsids.any (fun n => (nsOf n s).isNone) = false →
    peerNs b.nsids s = false → freeEntry s = some no →
      let u := mgmtBegin q tag s
    let i := (s.eph.time + 100007) / 8 * 8
    let e : Entry := ⟨no, .snapCut, i, i, 0, 1, b.skipLate, b.requireTime, s.eph.nextCut, false⟩
    let c : CutDef := ⟨s.eph.nextCut, b.nsids, b.groupId, 0, some (q, tag), stSuccess, 0, []⟩
    exec (.snapCreate q tag b) s = .next (sendTroys (.nsRequest 2 no) (placeEntry e
      { u with eph.cuts := s.eph.cuts ++ [c], eph.nextCut := s.eph.nextCut + 1 }))) ∧
  (∀ (q tag no : Nat) (b : PlaceBody) (s : State), halted s = false → mgmtReady q tag 0x003A s = true →
    nsListOk b.nsids = true → b.instant ≠ 0 → b.instant % 8 = 0 → periodOk b.period = true → b.retain ≤ 4095 →
    timeUnset s = false → s.eph.time + 50000 ≤ b.instant → b.nsids.any (fun n => (nsOf n s).isNone) = false →
    runsAlone s = true → freeEntry s = some no →
      ∃ t e, exec (.ephPlace q tag b) s = .next (mgmtPost q tag stSuccess no t) ∧ e ∈ t.eph.entries ∧ e.no = no ∧ e.next = b.instant ∧
      e.period = b.period ∧ e.kind = .snapCut ∧ e.left = if b.period = 0 then 1 else b.count) ∧
  (∀ (q tag e : Nat) (x : Entry) (s : State), halted s = false → mgmtReady q tag 0x003B s = true →
    s.eph.entries.find? (fun x => x.no == e) = some x → x.kind = .snapCut → cutOf x.ref s = none →
      ∃ t, exec (.ephRemove q tag e) s = .next (mgmtPost q tag stSuccess ((tget? s.eph.past e).elim 0 (·.last)) t) ∧
      t.eph.entries = s.eph.entries.filter fun x => x.no != e) ∧
  (∀ (q tag n e : Nat) (x : Epoch) (y : Namespace) (s : State), halted s = false →
    mgmtReady q tag 0x0031 s = true →
    s.eph.epochs.find? (fun x => x.no == e && x.nsid == n && x.st != .deleting) = some x → nsOf n s = some y →
    ownsNs y s = true → x.clones = 0 → heldEpoch e s = false →
      exec (.snapDelete q tag n e) s = .next (mgmtPost q tag stSuccess 0 (dropEpoch e (mgmtBegin q tag s)))) ∧
  (∀ (n : Nat) (e : Epoch) (s : State), halted s = false → s.eph.epochs.find? (fun e => e.no == n) = some e →
    e.st = .deleting → running .ftu s = true → s.ftu.pages = [] →
      exec (.snapDeleteWalk n) s = .next (let t := setMap n e.nsid [] { s with ftu.pages := [], mca.lines := s.mca.lines.filter fun l => l.epoch != n }
      { t with eph.epochs := t.eph.epochs.filter (fun x => x.no != n), eph.guards := t.eph.guards.filter fun g => g.1 != n })) ∧
  (∀ (q tag : Nat) (b : CloneBody) (x : Namespace) (e : Epoch) (g : AnaGroup) (s : State), halted s = false →
    mgmtReady q tag 0x0032 s = true → nsOf b.srcNsid s = some x → 1 ≤ b.nsid → b.nsid ≤ 32768 → 1 ≤ b.group →
    b.group ≤ 1024 → b.tenant ≤ 4091 →
    s.eph.epochs.find? (fun e => e.no == b.srcEpoch && e.nsid == b.srcNsid && e.st == .ready) = some e →
    ownsNs x s = true → groupOf b.group s = some g → g.mine = true → sanActive s = false → troysUp s = true →
    cloneDepth 17 b.srcNsid s < 16 → nsidTaken b.nsid s = false →
      keyOk b.key s = true → keyOk b.nextKey s = true → ∃ t, exec (.cloneCreate q tag b) s = .next (mgmtPost q tag stSuccess b.nsid t))

/-- Cutting a namespace with a number in the reserve and room in its epoch list: the epoch is recorded as Pending under
that number with the cut's SEQ, its map reads in every unit as the current map did, the current map reads as before,
and the number leaves the reserve (R524, R525, R528–R530). With an empty reserve nothing is cut and EPOCH_LIMIT is
recorded. The model's own choices of log entry 3 enter its clauses. -/
def Obligations.CutGivesItsEpochTheCurrentMap : Prop :=
  (∀ (x : Epoch) (n i : Nat) (r : List Nat) (s : State), s.eph.reserve = n :: r → n ≠ 0 →
    (s.eph.epochs.filter fun e => e.nsid == i).length < 4096 → s.eph.epochs.length < 1048575 →
      let t := (cutNs x i s).2
    (cutNs x i s).1 = n ∧ t.eph.reserve = r ∧ (∀ u, mapGet n i u t = mapGet 0 i u s) ∧ (∀ k u, mapGet 0 k u t = mapGet 0 k u s) ∧
      ∃ y ∈ t.eph.epochs, y.no = n ∧ y.nsid = i ∧ y.st = x.st ∧ y.cutSeq = x.cutSeq) ∧
  (∀ (x : Epoch) (i : Nat) (s : State), s.eph.reserve = [] → cutNs x i s = (0, note .eph E.ephEpochLimit 0xFF s))

/-- REPL_SETUP of an asynchronous source that passes its checks takes the lowest free stream slot, places its REPL_CUT
entry and posts the slot, or posts the status its keys give; of a target it protects the namespaces (R538, R539).
REPL_CONNECT_RETRY that opens a connection sends HELLO (R545, R547); HELLO with equal namespaces and MAC is answered
by HELLO_ACK, HELLO_ACK with STATUS 0 brings the connection up. KEEPALIVE only shows that the connection lives; one is
sent after 1 s without a frame; after 10 s without one received, and on ABORT, the connection closes (R543, R545,
R547). At the end of its grace a SYNC_WRITE without SYNC_ACK fractures an active stream that is not strict (R549), and
a fractured stream that is connected takes a catch-up cut. REPL_TEARDOWN removes the stream; an unused number answers
STREAM_NOT_FOUND (R551). The model's own choices of log entries 39, 68, 70, 71, 73, 74, 75, 82, 120 enter its clauses. -/
def Obligations.ReplicationStreamsAreSetUpConnectedAndEnded : Prop :=
  (∀ (q tag n k : Nat) (b : ReplBody) (s : State), halted s = false → mgmtReady q tag 0x38 s = true →
    replBodyOk b = true → b.target = false → b.sync = false → b.firstCut = 0 →
    b.ns.all (fun p => (nsOf p.1 s).isSome) = true → peerNs (b.ns.map (·.1)) s = false → s.repl.streams = [] →
    (runsAlone s = true ∨ troysUp s = true) → freeStream s = some n → freeEntry s = some k →
      let u := mgmtBegin q tag s
    let i := (s.eph.time + 7) / 8 * 8
    let x : Stream := ⟨n, b, true, .setup, (streamKeys b u).2.1, (streamKeys b u).2.2, [], 0, none, false, [], [], 0, 0, 0, none, [], 0, [], 0, 0, 0, [], [], 0⟩
    let t := { u with repl.streams := [x], dge.jobKeys := tset u.dge.jobKeys n (streamKeys b u).2.1 }
    exec (.replSetup q tag b) s = .next (if (streamKeys b u).1 = stSuccess then
      mgmtPost q tag stSuccess n (sendTroys (.nsRequest 3 n) (sysClause 0 b.streamId n (placeEntry ⟨k, .replCut, i, i, b.period, 0, false, false, n, false⟩ t)))
      else mgmtPost q tag (streamKeys b u).1 0 u)) ∧
  (∀ (q tag n : Nat) (b : ReplBody) (s : State), halted s = false → mgmtReady q tag 0x38 s = true →
    replBodyOk b = true → b.target = true → b.sync = false → b.firstCut = 0 →
    b.ns.all (fun p => (nsOf p.1 s).isSome) = true → peerNs (b.ns.map (·.1)) s = false → s.repl.streams = [] →
    (runsAlone s = true ∨ troysUp s = true) → freeStream s = some n → (streamKeys b s).1 ≠ stSuccess →
      let u := mgmtBegin q tag s
    exec (.replSetup q tag b) s = .next (mgmtPost q tag (streamKeys b s).1 0 u)) ∧
  (∀ (q tag n : Nat) (p k : Bool) (s : State), halted s = false → mgmtReady q tag 0x39 s = true →
    streamId? n s = none →
      exec (.replTeardown q tag n p k) s = .next (mgmtPost q tag stStreamNotFound 0 (mgmtBegin q tag s))) ∧
  (∀ (q tag n : Nat) (k : Bool) (x : Stream) (s : State), halted s = false → mgmtReady q tag 0x39 s = true →
    s.repl.streams = [x] → x.body.streamId = n → s.repl.conns = [] → x.body.target = true →
      ∃ t, exec (.replTeardown q tag n false k) s = .next (mgmtPost q tag stSuccess 0 (settleAll (sysClause 0 n 0 t))) ∧ t.repl.streams = [] ∧ t.eph.epochs = s.eph.epochs) ∧
  (∀ (streamId port : Nat) (x : Stream) (s : State), halted s = false → streamId? streamId s = some x →
    x.body.target = false → x.mine = true → x.st ≠ .broken → port < 4 → bit x.body.ports port = true →
    s.repl.conns = [] → x.tried = [] → getF (F.fabLinkStatUp port) s = 1 → running .toe s = true →
      let t := modStream x.slot (fun x => { x with tried := tset x.tried port s.now }) s
    let n := s.fab.nextConn
    let d := drawBytes 16 t
    let c : Conn := ⟨n, port, .repl, x.body.addrs.getD (ones port x.body.ports) 0, x.body.remotePort, true, false, false, none, 0, 0, 0, 0⟩
    let r : ReplConn := ⟨n, x.slot, false, d.1, n % 2 ^ 32, [], 0, 0, s.now, s.now⟩
    exec (.replConnectRetry streamId port true) s = .next (sendFrame n 1 0 (x.body.ns.map (·.2)) (32 + 16 * x.body.ns.length)
      (count .toe 0x01 1 { d.2 with fab.conns := s.fab.conns ++ [c], fab.nextConn := n + 1, repl.conns := [r] }))) ∧
  (∀ (conn : Nat) (f : Frame) (nonce : List Byte) (x : Stream) (s : State), halted s = false →
    nonce.length = 16 → s.fab.conns.any (fun c => c.id == conn && c.kind == .repl) = true → s.repl.conns = [] →
    f.magic = frameMagic → f.version = 1 → f.dir = 0 → f.fseq = 0 → 32 ≤ f.payload.length →
    f.payload.length % 16 = 0 →
    s.repl.streams.find? (fun x => x.body.streamId == f.streamId && x.body.target) = some x →
    (helloNs f.payload).map (·.1) = x.body.ns.map (·.1) →
    (helloNs f.payload).all (fun p => (nsOf p.1 s).isSome) = true → x.st = .active →
    macOk x.mac (zeros 32) 1 f = true →
      let ns := helloNs f.payload
    let t := count .eph 0x05 1 s
    let ok := ns.filter fun p => fpCheck p.1 t == some p.2
    let r : ReplConn := ⟨conn, x.slot, true, f.payload.take 16 ++ nonce, fieldAt f.payload 16 4, ok.map (·.1), 0, 0, s.now, s.now⟩
    exec (.hello conn f nonce) s = .next (sendFrame conn 2 0 (0 :: ns.map fun p => 1 + 2 * b2n (ok.contains p)) (20 + 4 * ns.length)
      { t with repl.conns := [r] })) ∧
  (∀ (conn : Nat) (f : Frame) (r : ReplConn) (x : Stream) (s : State), halted s = false →
    s.repl.conns.find? (fun r => r.conn == conn && !r.up) = some r → streamOf r.slot s = some x →
    x.body.target = false → f.magic = frameMagic → f.version = 1 → f.streamId = x.body.streamId → f.dir = 1 →
    f.fseq = 0 → f.payload.length = 20 + 4 * x.body.ns.length → fieldAt f.payload 16 4 = 0 →
    macOk x.mac (zeros 32) 2 f = true →
      let ok := (x.body.ns.zip (List.range x.body.ns.length)).filter fun p => bit (fieldAt f.payload (20 + 4 * p.2) 4) 1
    let up := fun (c : ReplConn) => { c with up := true, nonce := c.nonce ++ f.payload.take 16, fpOk := ok.map (·.1.1), lastRx := s.now }
    let t := count .eph 0x05 1 s
    exec (.helloAck conn f) s = .next (connUp x.slot { t with repl.conns := modAll (fun c => c.conn == conn) up t.repl.conns })) ∧
  (∀ (conn : Nat) (f : Frame) (r : ReplConn) (x : Stream) (s : State), halted s = false →
    frameOk conn 0x30 f.dir f r x s = true → f.payload = [] → f.ref = 0 → f.dir < 2 →
      exec (.keepalive conn f) s = .next (frameTaken conn f s)) ∧
  (∀ (conn : Nat) (s : State), halted s = false →
    s.repl.conns.any (fun r => r.conn == conn && r.up && decide (1000000000 ≤ s.now - r.lastTx)) = true →
      exec (.keepaliveSend conn) s = .next (sendFrame conn 0x30 0 [] 0 s)) ∧
  (∀ (conn : Nat) (f : Frame) (r : ReplConn) (x : Stream) (s : State), halted s = false →
    frameOk conn 0x31 f.dir f r x s = true → f.payload.length = 4 → f.ref = 0 → f.dir < 2 →
      exec (.replAbort conn f) s = .next (closeConn conn (if x.body.target then modStream r.slot (fun x => { x with rcut := none }) (frameTaken conn f s)
        else frameTaken conn f s))) ∧
  (∀ (conn : Nat) (s : State), halted s = false →
    s.repl.conns.any (fun r => r.conn == conn && decide (10000000000 ≤ s.now - r.lastRx)) = true →
      exec (.replConnIdleTimeout conn) s = .next (closeConn conn s)) ∧
  (∀ (h : Nat) (x : Stream) (s : State), halted s = false → s.repl.streams = [x] →
    x.acks.any (fun a => a.2.1 == h && decide (1000 * x.body.graceUs ≤ s.now - a.2.2)) = true →
      exec (.syncGraceExpiry h) s = .next (fracture x.slot s)) ∧
  (∀ (x : Stream) (s : State), streamOf x.slot s = some x → x.body.target = false → x.body.sync = true →
    x.st = .active → x.body.strict = false → x.mine = true → x.base = [] → x.body.ns = [] →
      bit (getF (H.errStat .eph) (fracture x.slot s)) E.ephReplFractured = true ∧ (streamOf x.slot (fracture x.slot s)).map (fun y => (y.st, y.acks)) = some (.fractured, [])) ∧
  (∀ (i : Nat) (x : Stream) (s : State), halted s = false → streamId? i s = some x → x.st = .fractured →
    x.mine = true →
      exec (.replReconnect i) s = .next (catchUp x.slot s)) ∧
  (∀ (x : Stream) (s : State), streamOf x.slot s = some x → x.body.sync = true → x.body.target = false →
    x.cut = none → x.st = .fractured → connsUp x.slot s ≠ [] → jrnlRoom s = true →
    (takeCut (x.body.ns.map (·.1)) 0 0xFFFF 0 true false false none s).1.all (fun p => p.2 != 0) = true →
      let r := takeCut (x.body.ns.map (·.1)) 0 0xFFFF 0 true false false none s
    catchUp x.slot s = modStream x.slot (fun x => { x with cut := some (s.eph.time, r.1) }) r.2)

/-- A frame that its receiver takes (R544, R547) has its effect. CUT_BEGIN notes the cut being received; FP_BATCH of one
record writes a unit held here as a duplicate and asks for one that is not (R542); DATA lands each unit that no
SYNC_WRITE has written since (R543, R549), UNMAP empties the units held; CUT_END cuts RECEIVED epochs, keeps the
newest two and answers CUT_COMMIT (R543). At the source NEED counts a unit not asked for as saved and sends one asked
for (R542), and CUT_COMMIT makes the cut the base, whose old epochs are dropped (R541). SYNC_WRITE lands its units for
one command record, waits for their durability with FUA, flushes with FLUSH, and is complete with LAST (R548);
SYNC_ACK ends the source command's wait. The model's own choices of log entries 41, 42, 70, 72, 74, 75, 120 enter its
clauses. -/
def Obligations.ReplicationTransfersLandAndCommit : Prop :=
  (∀ (conn : Nat) (f : Frame) (r : ReplConn) (x : Stream) (s : State), halted s = false →
    frameOk conn 0x10 0 f r x s = true → f.payload.length = 8 →
      let g := fun (x : Stream) => { x with rcut := some f.ref, synced := if x.rcut == some f.ref then x.synced else [] }
    exec (.cutBegin conn f) s = .next (modStream r.slot g (frameTaken conn f s))) ∧
  (∀ (conn : Nat) (f : Frame) (r : ReplConn) (x : Stream) (i u n : Nat) (fp : List Byte) (s : State),
    halted s = false → frameOk conn 0x11 0 f r x s = true → f.payload.length = 48 → x.rcut = some f.ref →
    fpRecs f.payload = [(i, u, fp)] → unitOk x i u 1 s = true → nsAt x i = some n → jrnlRoom s = true →
    cutHeld n (fun v => v == u) s = false → x.synced.contains (n, u) = false →
      let t := count .fiu 0x01 1 (frameTaken conn f s)
    exec (.fpBatch conn f) s = .next (match fpFind fp ((nsOf n t).elim 0 (·.domain)) t with
      | some k => sendFrame conn 0x12 f.fseq [] 1 (writeDup n u k t)
      | none => sendFrame conn 0x12 f.fseq [0] 1 t)) ∧
  (∀ (conn : Nat) (f : Frame) (r : ReplConn) (x : Stream) (us : List (Nat × Nat × Option (List Byte))) (s : State),
    halted s = false → frameOk conn 0x13 0 f r x s = true → x.rcut = some f.ref → unitsOn conn x f s = some us →
    landHeld us s = false →
      exec (.replData conn f) s = .next (forEach us (fun e t => if x.synced.contains (e.1, e.2.1) then t else landUnit e.1 e.2.1 e.2.2 t)
      (frameTaken conn f s))) ∧
  (∀ (conn : Nat) (f : Frame) (r : ReplConn) (x : Stream) (s : State), halted s = false →
    frameOk conn 0x14 0 f r x s = true → f.payload.length % 24 = 0 → x.rcut = some f.ref →
    (unmapRecs f.payload).all (fun e => unitOk x e.1 e.2.1 e.2.2 s) = true → jrnlRoom s = true →
    (unmapRecs f.payload).any (fun e => cutHeld ((nsAt x e.1).getD 0) (fun u => decide (e.2.1 ≤ u ∧ u < e.2.1 + e.2.2)) s) = false →
      exec (.replUnmap conn f) s = .next (forEach (unmapRecs f.payload) (fun e t =>
      let n := (nsAt x e.1).getD 0
      forEach ((heldUnits n e.2.1 e.2.2 t).filter fun u => !x.synced.contains (n, u)) (fun u v =>
        unmapUnits n u 1 (takeSeq v).1 (takeSeq v).2) t) (frameTaken conn f s))) ∧
  (∀ (conn : Nat) (f : Frame) (r : ReplConn) (x : Stream) (s : State), halted s = false →
    frameOk conn 0x15 0 f r x s = true → f.payload.length = 24 → x.rcut = some f.ref → jrnlRoom s = true →
    x.body.ns.length ≤ s.eph.reserve.length → s.wb.own = [] →
      let ns := x.body.ns.map (·.1)
    let c := takeCut ns 0 0xFFFF 0 false true false none (frameTaken conn f s)
    let done := fun (x : Stream) => { x with rcut := none, synced := [], lastCut := f.ref }
    exec (.cutEnd conn f) s = .next (setStream r.slot .active (sendFrame conn 0x16 f.ref [] 0
      (modStream r.slot done (forEach ns (fun n t => keepTwo n t) c.2))))) ∧
  (∀ (conn : Nat) (f : Frame) (r : ReplConn) (x : Stream) (p : Nat × Nat) (s : State), halted s = false →
    frameOk conn 0x12 1 f r x s = true → f.payload.length = 1 → x.batches = [(f.ref, [p])] →
    bit (ofBytes f.payload) 0 = true →
      let t := modStream r.slot (fun x => { x with batches := x.batches.filter fun b => b.1 != f.ref }) (frameTaken conn f s)
    exec (.need conn f) s = .next (xferPump r.slot (sendUnits r.slot false [p] (count .eph 0x07 0 t)))) ∧
  (∀ (conn : Nat) (f : Frame) (r : ReplConn) (x : Stream) (p : Nat × Nat) (s : State), halted s = false →
    frameOk conn 0x12 1 f r x s = true → f.payload.length = 1 → x.batches = [(f.ref, [p])] →
    bit (ofBytes f.payload) 0 = false →
      let t := modStream r.slot (fun x => { x with batches := x.batches.filter (fun b => b.1 != f.ref), nDup := x.nDup + 1, saved := x.saved + 1 }) (frameTaken conn f s)
    exec (.need conn f) s = .next (xferPump r.slot (count .eph 0x07 1 t))) ∧
  (∀ (conn : Nat) (f : Frame) (r : ReplConn) (x : Stream) (es : List (Nat × Nat)) (s : State), halted s = false →
    frameOk conn 0x16 1 f r x s = true → f.payload = [] → x.sending = false → x.cut = some (f.ref, es) →
      exec (.cutCommit conn f) s = .next (setStream r.slot .active (modStream r.slot
      (fun x => { x with base := x.cut.elim [] (·.2), baseAt := f.ref, cut := none, changed := [], lastCut := f.ref })
      (forEach (x.base.map (·.2)) dropEpoch (frameTaken conn f s))))) ∧
  (∀ (conn : Nat) (f : Frame) (r : ReplConn) (x : Stream) (us : List (Nat × Nat × Option (List Byte))) (s : State),
    halted s = false → frameOk conn 0x20 0 f r x s = true → unitsOn conn x f s = some us → landHeld us s = false →
    x.rcut = none → f.flush = false → f.last = true →
      let ns := x.body.ns.map (·.1)
    let c := syncCmd conn f.ref ((us.head?.map (·.1)).getD (ns.headD 0)) (frameTaken conn f s)
    let t := modStream r.slot (fun x => { x with synced := if x.rcut.isSome then (x.synced ++ us.map fun e => (e.1, e.2.1)).eraseDups else x.synced }) c.2
    exec (.syncWrite conn f) s = .next (durCheck (settle c.1 (modCmd c.1 (fun d => { d with waitPart := 0 })
      (landPrefix c.1 (forEach us (fun e t => syncUnit c.1 e.1 e.2.1 e.2.2 f.fua t) t)))))) ∧
  (∀ (conn : Nat) (f : Frame) (r : ReplConn) (x : Stream) (h t : Nat) (s : State), halted s = false →
    frameOk conn 0x21 1 f r x s = true → f.payload = [] → x.acks = [(f.ref, h, t)] →
      exec (.syncAck conn f) s = .next (settle h (modCmd h (fun c => { c with waitSync := c.waitSync.filter (· != r.slot) })
      (modStream r.slot (fun x => { x with acks := x.acks.filter fun b => b.1 != f.ref }) (frameTaken conn f s))))) ∧
  (∀ (n u q : Nat) (s : State),
      landLost n u q s = lostAdd n u 0 2 false (dropSlots n u 1 q (clause (mkClause cMapSet 0 n u lostEntry q) s)))

/-- A TROYS_WRITE or TROYS_MSG packet on a link that is up, with its HCRC and the next CSEQ of its channel, has its effect
and is acknowledged; with a bad HCRC it is answered NAK 2, out of order NAK 3, and a write past its window's active
size NAK 1 (R556–R558, R562). TROYS_ACK frees the packets it covers, grants credit and journals the clauses among
them; TROYS_NAK resends, or with WINDOW is a Class 2 fault of the link (R558, R562). The first link up sends a JOIN
record and ends severance (R554, R565, R576). A link down is looked at for detection (R577). WIN_COMMIT makes the
eight standby windows of the link active and advances WIN_SEQ (R561). A write into the mirror half leaves every page
of every window as it was, but the pages it touches. The model's own choices of log entries 23, 76, 77, 78, 79, 80,
81, 82, 86 enter its clauses. -/
def Obligations.PairPacketsFillTheMirrorHalf : Prop :=
  (∀ (link : Nat) (pkt : Pkt) (data : List Byte) (s : State), halted s = false →
    getF (F.tlLinkStatUp link) s = 1 → blockDown (.tl link) s = false → s.pair.joined = true → pkt.hcrcOk = true →
    pkt.typ = 1 → (pkt.ch = 0 ∨ pkt.ch = 1 ∨ pkt.ch = 5) → pkt.win ≤ 7 → data.length = pkt.len →
    (tget s.pair.wins (link * 8 + pkt.win) { base := 0, size := 0 }).size ≠ 0 →
    pkt.offset + pkt.len ≤ 4096 * (tget s.pair.wins (link * 8 + pkt.win) { base := 0, size := 0 }).size →
    pkt.cseq = (chanOf pkt.ch s).taken + 1 →
      let t := count (.tl link) 0x04 (32 + pkt.len) (count (.tl link) 0x02 1 s)
    exec (.troysWrite link pkt data) s = .next (onLink link (.ack pkt.ch pkt.cseq)
      (writeTaken pkt data (putChan pkt.ch { chanOf pkt.ch t with taken := pkt.cseq } t)))) ∧
  (∀ (link : Nat) (pkt : Pkt) (data : List Byte) (s : State), halted s = false →
    getF (F.tlLinkStatUp link) s = 1 → blockDown (.tl link) s = false → s.pair.joined = true → pkt.hcrcOk = true →
    pkt.typ = 1 → (pkt.ch = 0 ∨ pkt.ch = 1 ∨ pkt.ch = 5) → pkt.win ≤ 7 → data.length = pkt.len →
    4096 * (tget s.pair.wins (link * 8 + pkt.win) { base := 0, size := 0 }).size < pkt.offset + pkt.len →
      exec (.troysWrite link pkt data) s = .next (onLink link (.nak pkt.ch pkt.cseq 1) (count (.tl link) 0x04 (32 + pkt.len) (count (.tl link) 0x02 1 s)))) ∧
  (∀ (link : Nat) (pkt : Pkt) (msg : PeerMsg) (s : State), halted s = false → getF (F.tlLinkStatUp link) s = 1 →
    blockDown (.tl link) s = false → s.pair.joined = true → pkt.hcrcOk = true → pkt.typ = 4 →
    (pkt.ch = 2 ∨ pkt.ch = 3 ∨ pkt.ch = 4) → pkt.cseq = (chanOf pkt.ch s).taken + 1 →
      let t := count (.tl link) 0x04 (32 + pkt.len) (count (.tl link) 0x02 1 s)
    exec (.troysMsg link pkt msg) s = .next (onLink link (.ack pkt.ch pkt.cseq)
      (peerMsg msg (putChan pkt.ch { chanOf pkt.ch t with taken := pkt.cseq } t)))) ∧
  (∀ (link : Nat) (pkt : Pkt) (msg : PeerMsg) (s : State), halted s = false → getF (F.tlLinkStatUp link) s = 1 →
    blockDown (.tl link) s = false → pkt.hcrcOk = false → pkt.typ = 4 → (pkt.ch = 2 ∨ pkt.ch = 3 ∨ pkt.ch = 4) →
      exec (.troysMsg link pkt msg) s = .next (onLink link (.nak pkt.ch ((chanOf pkt.ch s).taken + 1) 2) (count (.tl link) 0x04 (32 + pkt.len) (count (.tl link) 0x02 1 s)))) ∧
  (∀ (link : Nat) (pkt : Pkt) (msg : PeerMsg) (s : State), halted s = false → getF (F.tlLinkStatUp link) s = 1 →
    blockDown (.tl link) s = false → s.pair.joined = true → pkt.hcrcOk = true → pkt.typ = 4 →
    (pkt.ch = 2 ∨ pkt.ch = 3 ∨ pkt.ch = 4) → (chanOf pkt.ch s).taken + 1 < pkt.cseq →
      exec (.troysMsg link pkt msg) s = .next (onLink link (.nak pkt.ch ((chanOf pkt.ch s).taken + 1) 3) (count (.tl link) 0x04 (32 + pkt.len) (count (.tl link) 0x02 1 s)))) ∧
  (∀ (ch cseq credit n : Nat) (x : Sent) (s : State), halted s = false → troysUp s = true →
    s.pair.joined = true → s.pair.sent = [x] → x.ch = ch → x.cseq ≤ cseq → x.link < 2 → x.what = .clause n →
      exec (.troysAck ch cseq credit) s = .next (clausesAcked (n + 1) (pumpCh ch
      (putChan ch { chanOf ch s with credit := some credit } { s with pair.sent := [] })))) ∧
  (∀ (ch cseq credit : Nat) (s : State), halted s = false → troysUp s = true → s.pair.joined = true →
    s.pair.sent.all (fun x => x.ch != ch || decide (cseq < x.cseq)) = true →
      exec (.troysAck ch cseq credit) s = .next (pumpCh ch (putChan ch { chanOf ch s with credit := some credit } s))) ∧
  (∀ (link ch cseq : Nat) (s : State), halted s = false → getF (F.tlLinkStatUp link) s = 1 →
      exec (.troysNak link ch cseq 1) s = .next (tlDown link (raise (.tl link) E.tlWindowNak 0xFF s))) ∧
  (∀ (link ch cseq k : Nat) (s : State), halted s = false → getF (F.tlLinkStatUp link) s = 1 → (k = 2 ∨ k = 3) →
      exec (.troysNak link ch cseq k) s = .next (resend (fun x => x.ch == ch && decide (cseq ≤ x.cseq)) s)) ∧
  (∀ (link sp w : Nat) (s : State), halted s = false → getF (F.tlLinkStatUp link) s = 0 → troysUp s = false →
    blockDown (.tl link) s = false → getF (F.tlLinkCtrlTxOff link) s = 0 → (sp = 5 ∨ sp = 6) → (w = 8 ∨ w = 16) →
    s.pair.joined = false →
      let t := setF (F.tlLinkStatSpeed link) (min sp (getF (F.tlLinkCtrlMaxSpeed link) s)) (setF (F.tlLinkStatWidth link) (min w (getF (F.tlLinkCtrlMaxWidth link) s)) s)
    let u := setInt (.tl link) I.tlLinkUp (setF (F.tlLinkStatFlit link) 1 (setF (F.tlLinkStatUp link) 1 t))
    exec (.troysLinkUp link sp w) s = .next (forEach (List.range 6) pumpCh (peerAna (onLink link .join (setF F.mirPairStatSevered 0 u))))) ∧
  (∀ (link : Nat) (s : State), halted s = false →
      exec (.troysLinkDown link) s = .next (detectSilent (tlDown link s))) ∧
  (∀ (link w : Nat) (s : State), halted s = false → getF (H.pwrState (.tl link)) s ≠ 2 →
    getF (H.state (.tl link)) s ≠ 5 → w < 8 →
      ∃ t, exec (.winCommit link) s = .next t ∧
      (tget? t.pair.wins (link * 8 + w)).map (fun x => (x.base, x.size)) = some (bankF (F.tlWinBaseLoBaseLo link) w 0 s + 0x100000000 * bankF (F.tlWinBaseHiBaseHi link) w 0 s, bankF (F.tlWinSizeSize link) w 0 s) ∧
      getF (F.tlWinCtrlWinSeq link) t = (getF (F.tlWinCtrlWinSeq link) s + 1) % 65536) ∧
  (∀ (w off v pg : Nat) (d : List Byte) (s : State), pg < 2 ^ 24 → off < 2 ^ 36 - 4096 → d.length ≤ 4096 →
    (v ≠ w ∨ (pg ≠ off / 4096 ∧ (pg ≠ off / 4096 + 1 ∨ d.length ≤ 4096 - off % 4096))) →
      mirPage v pg (mirWrite w off d s) = mirPage v pg s) ∧
  (∀ (w off : Nat) (d : List Byte) (s : State), d.length ≤ 4096 - off % 4096 →
      mirPage w (off / 4096) (mirWrite w off d s) = overlay (mirPage w (off / 4096) s) (off % 4096) d)

/-- JOIN of a record that agrees with this head is accepted: the pair forms with fresh channels, and its mode is evaluated
(R565, R566, R568); any other is refused with its cause (R566, R669). RESYNC of a server in a pair that has joined
sends its half, open stripes, clauses, region, root, keys, entries, streams, member states and reserve (R585);
MIRROR_CURRENT makes a joining head a standby, a server whose copy is acknowledged current (R585, R586).
FORWARDED_COMMAND is admitted with its tag (R28, R32); FORWARD_COMPLETION ends the forwarded command with the owner's
status, a Read's data sent to the host first. REFCOUNT_MESSAGE adds or takes off a reference (R284, R589).
OWNERSHIP_MOVE puts its groups into the Change state, and hands them over once drained (R587). MODE_RESTORE evaluates
the mode again (R38, R590). The model's own choices of log entries 3, 37, 44, 76, 78, 82, 85, 86, 87, 88, 90, 97, 105,
120 enter its clauses. -/
def Obligations.PairJoinsForwardsAndMovesGroups : Prop :=
  (∀ (r : JoinRec) (s : State), halted s = false → troysUp s = true → s.pair.joined = false →
    r.pairId = get64 F.hqePairIdLoPairLo F.hqePairIdHiPairHi s → r.head ≠ s.pins.headSel →
    s.bld.peerMin ≤ r.ucodeVer → r.ucodeVer ≤ s.bld.peerMax → r.setVer ≤ s.bld.setVer →
    r.cfgDigest = cfgDigest s →
      let t := setF F.mirJoinCause 0 (setF F.hbuStatPeerFault 0 s)
    exec (.join r) s = .next (modeEval true (resyncStart { t with
      pins.peerFaultN := true, pair.peerUcode := r.ucodeVer, pair.joined := true, pair.chans := [], pair.sent := [],
      pair.nextWin := s.ftu.csnext, pair.winAt := s.now }))) ∧
  (∀ (r : JoinRec) (s : State), halted s = false → troysUp s = true → joinCause r s ≠ 0 → s.pair.joined = false →
    inService s = false →
      let link := if onF (F.tlLinkStatUp 0) s then 0 else 1
    exec (.join r) s = .next (onLink link (.joinRefused (joinCause r s)) (note (.tl link) E.tlJoinRefused 0xFF
      (setF F.mirJoinCause (joinCause r s) s)))) ∧
  (∀ (r : JoinRec) (s : State), r.pairId = get64 F.hqePairIdLoPairLo F.hqePairIdHiPairHi s →
    r.head = s.pins.headSel →
      joinCause r s = 2) ∧
  (∀ (s : State), halted s = false → s.pair.resync = some false → s.pair.joined = true → troysUp s = true →
    s.wb.own.any (fun p => decide (1835008 ≤ p.1)) = false → s.ftu.root = none →
      let t := { setF F.mirCtrlMirrorEn 1 s with wb.alone := false, pair.resync := some true }
    let slots := (t.wb.own.filter fun p => p.2.st != .releasing).map (·.1)
    let a := forEach slots (fun n t => sendPkt (.copyDesc n) (sendPkt (.copySlot n) t)) t
    let b := forEach a.par.stripes (fun x t => sendPkt (.copyStripe x.band x.no) t) a
    let c := forEach (b.ftu.jrnl.filter fun j => decide (0 ≤ j.cseq)) (fun j t => sendPkt (.copyClause j.cseq) t) b
    let d := sendPkt .copyRegion c
    let e := forEach (keyCopies d) (fun k t => sendTroys (.keyCopy k.1 k.2) t) d
    let f := forEach (e.eph.entries.filter fun e => (e.kind == .snapCut || e.kind == .replCut) && !e.dormant) (fun e t => sendTroys (.entryCopy e.no) t) e
    let g := forEach (f.repl.streams.filter (·.mine)) (fun x t => sendTroys (.streamCopy x.slot) t) f
    let h := forEach g.par.members (fun m t => sendTroys (.member m.1 (memStNo m.2.st)) t) g
    exec .resync s = .next (sendTroys .epochReserve h)) ∧
  (∀ (s : State), halted s = false → s.pair.joined = true → troysUp s = true → s.pair.role = .joining →
      exec .mirrorCurrent s = .next (becomeCurrent (sendTroys .mirrorCurrent s))) ∧
  (∀ (s : State), halted s = false → s.pair.joined = true → troysUp s = true → s.pair.role ≠ .joining →
    s.pair.resync = some true → s.pair.sent.all (fun x => x.ch != 5) = true →
      exec .mirrorCurrent s = .next (becomeCurrent s)) ∧
  (∀ (s : State), s.pair.queued = [] →
      becomeCurrent s = modeEval true { setInt .mir I.mirMirrorCurrent (setF F.mirPairStatMirrorCurrent 1 { s with ftu.cack := s.ftu.csnext }) with
      pair.resync := none, pair.role := match s.pair.role with | .alone => .serving | .joining => .standby | r => r }) ∧
  (∀ (tag host : Nat) (e : Sqe) (s : State), halted s = false → s.pair.joined = true → troysUp s = true →
    running .hqe s = true → s.hqe.cmds = [] →
      let t := takeSeq (admitCmd none tag host e s)
    exec (.forwardedCommand tag host e) s = .next (modCmd s.hqe.nextH (fun c => { c with seq := t.1 }) t.2)) ∧
  (∀ (f : FwdCmd) (c : Cmd) (st : NvmeSt) (data : List Byte) (s : State), halted s = false → s.pair.fwd = [f] →
    troysUp s = true → s.pair.ecl = none → cmdOf f.h s = some c → c.phase = .forwarded → c.sqe.opc ≠ 2 →
      exec (.forwardCompletion f.tag st data) s = .next (endCmd f.h st { s with pair.fwd := [] })) ∧
  (∀ (f : FwdCmd) (c : Cmd) (data : List Byte) (s : State), halted s = false → s.pair.fwd = [f] →
    troysUp s = true → s.pair.ecl = none → cmdOf f.h s = some c → c.phase = .forwarded → c.sqe.opc = 2 →
      exec (.forwardCompletion f.tag .success data) s = .next (endCmd f.h .success (fwdData f.h data { s with pair.fwd := [] }))) ∧
  (∀ (uaddr : Nat) (s : State), halted s = false → s.pair.joined = true →
    (bandOf (uBand (resolve uaddr s)) s).any (·.mine) = true → jrnlRoom s = true →
      exec (.refcountMessage uaddr true) s = .next (refAdd (resolve uaddr s) (clause (mkClause cSystem 2 0 (resolve uaddr s) 1 0) s))) ∧
  (∀ (uaddr : Nat) (s : State), halted s = false → s.pair.joined = true →
    (bandOf (uBand (resolve uaddr s)) s).any (·.mine) = true → jrnlRoom s = true →
      let u := resolve uaddr s
    let t := clause (mkClause cSystem 2 0 u 0 0) s
    exec (.refcountMessage uaddr false) s = .next (garbage u (match tget? t.fiu.sut u with
      | none => t
      | some r => { t with fiu.sut := tset t.fiu.sut u { r with count := r.count - 1 } }))) ∧
  (∀ (q tag : Nat) (gs : List Nat) (s : State), halted s = false → mgmtReady q tag 0x60 s = true →
    s.pair.move = none → gs ≠ [] → gs.length ≤ 1024 → gs.eraseDups.length = gs.length →
    gs.all (fun g => (groupOf g s).any (·.mine)) = true → getF F.mirPairStatMoveBusy s = 0 → troysUp s = true →
    peerReady s = true →
      let u := mgmtBegin q tag s
    let t := setF F.mirPairStatMoveBusy 1 { u with pair.move := some { q := q, tag := tag, groups := gs } }
    exec (.ownershipMove q tag gs) s = .next (sendTroys (.moving gs true) (forEach gs (fun g t => setGroup g true true t) t))) ∧
  (∀ (q tag : Nat) (gs : List Nat) (s : State), halted s = false →
    s.pair.move = some { q := q, tag := tag, groups := gs } → drained gs s = true → jrnlRoom s = true →
    troysUp s = true →
      let t := sendTroys (.handover gs (s.hqe.nextSeq - 1)) (clause (mkClause cSystem 3 0 gs.length 0 0) s)
    let u := leaveObjects gs (forEach gs (fun g t => setGroup g false false t) t)
    exec (.ownershipMove q tag gs) s = .next (mgmtPost q tag stSuccess (stamp u) (setF F.mirPairStatMoveBusy 0 { u with pair.move := none }))) ∧
  (∀ (q tag : Nat) (s : State), halted s = false → mgmtReady q tag 0x61 s = true → troysUp s = true →
    s.pair.joined = true → modeConds 768 s = true → s.pair.restore = none →
      let u := mgmtBegin q tag s
    exec (.modeRestore q tag) s = .next (modeEval false { u with pair.arbDrop := false, pair.restore := some (q, tag) }))

/-- DIGEST_WINDOW_CLOSE sends the digest of the next 256 clauses, or of fewer after 4 µs (R569); an answer that agrees
with its window ends it, one that differs is a mismatch, and ARBITRATE begins arbitration (R571); ARBITRATION_VERDICT
follows R572's table; ANSWER_LATE is recorded once (R573). HEARTBEAT_SEND sends the state's word 1 µs after the last;
a valid HEARTBEAT_WORD shows the peer's state, one with a bad CRC counts an error; 2.5 µs without one is silence
(R574, R575). PEER_FAULT, silence and words 4 and 5 are looked at for detection (R577), which issues the fences, after
4 µs on head 1 for causes 4 and 5. A fence whose former value is the one compared is WON; a LOST one stops a head that
takes nothing over (R492, R580); after 6 µs the link is taken down. FENCE_DECISION seizes the peer's half, or with a
LOST fence raises FENCE_LOST (R579–R582). The model's own choices of log entries 16, 59, 61, 78, 79, 86, 89, 91, 92,
93 enter its clauses. -/
def Obligations.PairComparesBeatsAndTakesOver : Prop :=
  (∀ (s : State), halted s = false → comparing s = true →
    (min 256 (s.ftu.csnext - s.pair.nextWin) = 256 ∨ 4000 ≤ s.now - s.pair.winAt) →
      let n := min 256 (s.ftu.csnext - s.pair.nextWin)
    let l := winOf s.pair.nextWin n s.ftu.jrnl
    let w : DigWin := ⟨s.pair.nextWin, n, cDig l, mDig l, s.now, false⟩
    exec .digestWindowClose s = .next (sendTroys (.digest false s.pins.headSel w.first n w.cdig w.mdig) (count .ocu 0x01 1 { s with
      pair.ownWins := s.pair.ownWins ++ [w], pair.nextWin := s.pair.nextWin + n, pair.winAt := s.now }))) ∧
  (∀ (m : DigestMsg) (w : DigWin) (s : State), halted s = false → comparing s = true → troysUp s = true →
    m.answer = true → m.stream = s.pins.headSel → s.pair.ownWins = [w] → w.first = m.first → w.count = m.count →
    m.cdig = w.cdig → m.mdig = w.mdig →
      exec (.digestMessage m) s = .next (set64 F.ocuOwnWinLoOwn F.ocuOwnWinHiOwn w.first (count .ocu 0x02 1
      { digestSeen s with pair.ownWins := [] }))) ∧
  (∀ (m : DigestMsg) (w : DigWin) (s : State), halted s = false → comparing s = true → troysUp s = true →
    m.answer = true → m.stream = s.pins.headSel → s.pair.ownWins = [w] → w.first = m.first → w.count = m.count →
    m.cdig ≠ w.cdig →
      exec (.digestMessage m) s = .next (mismatch s.pins.headSel w.first (set64 F.ocuOwnWinLoOwn F.ocuOwnWinHiOwn w.first (count .ocu 0x02 1
      { digestSeen s with pair.ownWins := [] })))) ∧
  (∀ (m : DigestMsg) (s : State), halted s = false → comparing s = true → troysUp s = true → m.answer = false →
    m.stream = peerHead s → s.pair.peerWins = [] →
      exec (.digestMessage m) s = .next (answerAll { digestSeen s with pair.peerWins := [⟨m.first, m.count, m.cdig, m.mdig, s.now, false⟩] })) ∧
  (∀ (o n : Nat) (s : State), halted s = false → comparing s = true → troysUp s = true → o ≤ 1 →
    s.pair.arb = none →
      exec (.arbitrate o n) s = .next (incSatF F.ocuCountsArbitrations 1 (setF F.ocuStatArbitrating 1 { s with pair.arb := some (o, n) }))) ∧
  (∀ (o n : Nat) (own peer : Bool) (s : State), halted s = false → s.pair.arb = some (o, n) →
    running .ocu s = true → o = s.pins.headSel →
      let t := sendTroys (.verdict own) (setF F.ocuStatArbitrating 0 { s with pair.arb := none })
    exec (.arbitrationVerdict o own peer) s = .next (if own then (if peer then diverged true (setF F.ocuStatVerdict 3 t) else setF F.ocuStatVerdict 1 t)
      else if peer then raise .ocu E.ocuSelfCheck 0xFF t else raise .ocu E.ocuPipeFault 0xFF (setF F.ocuStatVerdict 2 t))) ∧
  (∀ (o n : Nat) (own peer : Bool) (s : State), halted s = false → s.pair.arb = some (o, n) →
    running .ocu s = true → o ≠ s.pins.headSel →
      let t := sendTroys (.verdict own) (setF F.ocuStatArbitrating 0 { s with pair.arb := none })
    exec (.arbitrationVerdict o own peer) s = .next (if peer then (if own then diverged false (setF F.ocuStatVerdict 3 t) else raise .ocu E.ocuSelfCheck 0xFF t)
      else if own then setF F.ocuStatVerdict 1 t else raise .ocu E.ocuSelfCheck 0xFF (setF F.ocuStatVerdict 2 t))) ∧
  (∀ (n : Nat) (s : State), halted s = false → comparing s = true →
    s.pair.ownWins.any (fun w => w.first == n && !w.late && decide (100000 ≤ s.now - w.at_)) = true →
      exec (.answerLate n) s = .next (note .ocu E.ocuAnswerLate 0xFF { s with
      pair.ownWins := modAll (fun w => w.first == n) (fun w => { w with late := true }) s.pair.ownWins })) ∧
  (∀ (s : State), graved s = false → s.pwc.held = false → getF F.hbuCtrlTxEn s = 1 → blockDown .hbu s = false →
    s.pair.hbTx.all (fun t => decide (1000 ≤ s.now - t)) = true →
      exec .heartbeatSend s = .next (emit (.heartbeat (hbWordOf (hbState s) s)) { s with pair.hbSeq := s.pair.hbSeq + 1, pair.hbTx := some s.now })) ∧
  (∀ (w : BitVec 64) (s : State), halted s = false → blockDown .hbu s = false →
    bits w.toNat 63 48 = crc16 (toBytes 6 (w.toNat % 2 ^ 48)) → w.toNat % 256 = 0xA5 →
    bits w.toNat 47 32 = getF F.hqePairIdLoPairLo s % 65536 → bits w.toNat 12 9 ≠ 4 → bits w.toNat 12 9 ≠ 5 →
    getF F.mirPairStatPeerState s = bits w.toNat 12 9 →
      let v := w.toNat
    let t := { s with pair.hbAt := some s.now }
    let a := setF F.hbuStatRxOk 1 (setF F.hbuStatPeerState (bits v 12 9) (setF F.hbuStatPeerHead (bits v 8 8) (setF F.hbuStatRxSeq (bits v 31 16) t)))
    let b := setF F.mirPairStatPeerState (bits v 12 9) a
    exec (.heartbeatWord w) s = .next (sever b)) ∧
  (∀ (w : BitVec 64) (s : State), halted s = false → blockDown .hbu s = false →
    bits w.toNat 63 48 = crc16 (toBytes 6 (w.toNat % 2 ^ 48)) → w.toNat % 256 = 0xA5 →
    bits w.toNat 47 32 = getF F.hqePairIdLoPairLo s % 65536 → bits w.toNat 12 9 = 4 →
    getF F.mirPairStatPeerState s ≠ 4 →
      let v := w.toNat
    let t := { s with pair.hbAt := some s.now }
    let a := setF F.hbuStatRxOk 1 (setF F.hbuStatPeerState (bits v 12 9) (setF F.hbuStatPeerHead (bits v 8 8) (setF F.hbuStatRxSeq (bits v 31 16) t)))
    let b := setF F.mirPairStatPeerState (bits v 12 9) a
    exec (.heartbeatWord w) s = .next (detect 2 (sever (setInt .mir I.mirPeerState (setInt .hbu I.hbuPeerState b))))) ∧
  (∀ (w : BitVec 64) (s : State), halted s = false → blockDown .hbu s = false →
    bits w.toNat 63 48 ≠ crc16 (toBytes 6 (w.toNat % 2 ^ 48)) →
      exec (.heartbeatWord w) s = .next (note .hbu E.hbuCrcErr 0xFF (incSatF F.hbuErrsCrcErrs 1 s))) ∧
  (∀ (s : State), halted s = false → getF F.hbuStatRxOk s = 1 →
    s.pair.hbAt.all (fun t => decide (2500 ≤ s.now - t)) = true →
      exec .heartbeatSilent s = .next (detectSilent (note .hbu E.hbuSilent 0xFF
      (incSatF F.hbuErrsSilences 1 (setF F.hbuStatRxOk 0 (setF F.mirPairStatPeerState 0xF s)))))) ∧
  (∀ (t : Nat) (s : State), halted s = false → s.pair.joined = true → getF F.ocuStatStreamOk s = 1 →
    s.pair.lastDig = some t → 8000 ≤ s.now - t → getF F.hbuStatRxOk s = 1 → getF F.hbuStatPeerState s = 2 →
      exec .digestStreamTimeout s = .next (detectSilent (note .ocu E.ocuStreamLost 0xFF (setF F.ocuStatStreamOk 0 s)))) ∧
  (∀ (s : State), halted s = false →
      exec .peerFault s = .next (detect 1 { setF F.hbuStatPeerFault 1 s with pins.peerFaultN := false })) ∧
  (∀ (c : Nat) (s : State), getF F.mirCtrlEclEn s = 1 → s.pair.joined = true → s.pair.ecl = none →
    getF F.mirPairStatSevered s = 0 → s.pwc.inputOk = true → s.pwc.dumping = false →
    getF F.mirPairStatMirrorCurrent s = 1 → s.hqe.groups.any (fun g => !g.mine) = true → s.pins.headSel % 2 = 0 →
      let e : Eclipse := ⟨c, s.now, false, false⟩
    let t := setF F.mirPairStatEclipseBusy 1 { s with pair.ecl := some e }
    let u := set64 F.mirEclLastLoLast F.mirEclLastHiLast (stamp { s with pair.ecl := some e }) t
    detect c s = fenceAll (setF F.mirEclTimesCause c (setF F.mirEclTimesDetectUs (min 255 ((s.now - lastSeen s) / 1000)) u))) ∧
  (∀ (e : Eclipse) (s : State), halted s = false → s.pair.ecl = some e → e.stagger = true → e.fenced = false →
    4000 ≤ s.now - e.at_ →
      exec .fenceStaggerExpiry s = .next (fenceAll s)) ∧
  (∀ (m v : Nat) (c : Cas) (s : State), halted s = false → s.mods.cas = [c] → c.m = m → c.done = false →
    getF (F.mptLinkStatUp m) s = 1 → v = c.compare →
      exec (.fenceCasComplete m v) s = .next (ymPump m (fenceResult m 1 (fenceShow m c.swap
      { s with mods.cas := [{ c with done := true, won := true }] })))) ∧
  (∀ (m v : Nat) (c : Cas) (s : State), halted s = false → s.mods.cas = [c] → c.m = m → c.done = false →
    getF (F.mptLinkStatUp m) s = 1 → v ≠ c.compare → c.tried.contains v = false → s.pair.ecl = none →
      exec (.fenceCasComplete m v) s = .next (fencedOut (fenceResult m 2 (fenceShow m v { s with mods.cas := [{ c with done := true, won := false }] })))) ∧
  (∀ (m : Nat) (s : State), halted s = false →
    s.mods.cas.any (fun c => c.m == m && !c.done && decide (6000 ≤ s.now - c.at_)) = true →
    getF (F.mptLinkStatUp m) s = 1 →
      exec (.fenceCasTimeout m) s = .next (fenceUnreachable m (blockReset (.mpt m) s))) ∧
  (∀ (e : Eclipse) (s : State), halted s = false → s.pair.ecl = some e → e.fenced = true → s.mods.cas = [] →
      let us := min 255 ((s.now - e.at_) / 1000)
    exec .fenceDecision s = .next (seize (setF F.mirEclTimesRearmUs us (setF F.mirEclTimesFenceUs us (setF F.mirPairStatEclipseBusy 0 { s with pair.ecl := none }))))) ∧
  (∀ (e : Eclipse) (c : Cas) (s : State), halted s = false → s.pair.ecl = some e → e.fenced = true →
    s.mods.cas = [c] → c.done = true → c.won = false → getF (F.mptFenceResResult c.m) s = 2 →
      let us := min 255 ((s.now - e.at_) / 1000)
    exec .fenceDecision s = .next (raise .mir E.mirFenceLost 0xFF (setF F.mirEclTimesFenceUs us (setF F.mirPairStatEclipseBusy 0 { s with pair.ecl := none }))))

/-- ERROR_PULSE of an error of no lane raises it with what it destroys (R594). An error sets its ERR_STAT bit; masked and
below Class 2 it goes no further (R57); one of Class 0 or 1 is only recorded, with incident 0 (R601); one of Class 2
or more opens an incident when none is open, and merges into one whose scope it comes from (R601, R603). In the Grave
state it is only recorded (R605). INCIDENT_CLOSE of an incident whose reaction is complete removes it and the lane
resets of its scope, sets INC_CLOSED and records it (R602, R608). WDOG is a Class 2 error of its core (R598, R607).
The model's own choices of log entries 102, 125 enter its clauses. -/
def Obligations.ErrorsAreReportedAndIncidentsClosed : Prop :=
  (∀ (b : Block) (n lane : Nat) (s : State), s.pwc.held = false → graved s = false →
    (errClass? b n).isSome = true → laneErr b n lane = false → b ≠ .stg →
      exec (.errorPulse b n lane) s = .next (raise b n 0xFF (pulseWork b n 0xFF s))) ∧
  (∀ (b : Block) (n lane : Nat) (s : State), s.pwc.held = false → graved s = true →
    (errClass? b n).isSome = true → laneErr b n lane = false →
      exec (.errorPulse b n lane) s = .next (raise b n 0xFF s)) ∧
  (∀ (b : Block) (n : Nat) (s : State), errClass? b n = some 0 → b ≠ .dge → errCls b n s < 2 →
    bit (getF (H.errMask b) s) n = true →
      raise b n 0xFF s = setErr b n s) ∧
  (∀ (b : Block) (n : Nat) (s : State), (errClass? b n).isSome = true → b ≠ .dge → errCls b n s < 2 →
    bit (getF (H.errMask b) s) n = false →
      let t := setErr b n s
    raise b n 0xFF s = errRec { blk := some b, source := latchBit b, inst := inst b, lane := 0xFF, code := 0x1000 + 32 * latchBit b + n, p1 := getF (H.errStat b) t, own := ownCause b n, inj := false }
      (errCls b n s) 0 false false (pulse (latchBit b) (errCls b n s) t)) ∧
  (∀ (b : Block) (n : Nat) (s : State), (errClass? b n).isSome = true → b ≠ .dge → 2 ≤ errCls b n s →
    graved s = false → s.fco.incs = [] →
      let t := setErr b n s
    raise b n 0xFF s = openIncident { blk := some b, source := latchBit b, inst := inst b, lane := 0xFF, code := 0x1000 + 32 * latchBit b + n, p1 := getF (H.errStat b) t, own := ownCause b n, inj := false }
      (errCls b n s) (pulse (latchBit b) (errCls b n s) t)) ∧
  (∀ (b : Block) (n : Nat) (i : Incident) (s : State), (errClass? b n).isSome = true → b ≠ .dge →
    2 ≤ errCls b n s → graved s = false → s.fco.incs = [i] → i.scope = .engine b →
      let t := setErr b n s
    raise b n 0xFF s = mergeIncident i { blk := some b, source := latchBit b, inst := inst b, lane := 0xFF, code := 0x1000 + 32 * latchBit b + n, p1 := getF (H.errStat b) t, own := ownCause b n, inj := false }
      (errCls b n s) (pulse (latchBit b) (errCls b n s) t)) ∧
  (∀ (i : Incident) (s : State), halted s = false → s.fco.incs = [i] → i.cls < 4 → i.scope = .engine .ftu →
    getF (H.state .ftu) s ≠ 5 → i.source ≠ latchBit .stg →
      let lane := fun (k : Nat) => !scopeLane i.scope k
    let r := mkRec 0x0001 i.cls i.source i.inst i.lane i.number (min (s.now - i.openedAt) 0xFFFFFFFF) (i.cls + 256 * min i.subs 255)
    exec (.incidentClose i.number) s = .next (evrEvent r (setInt .fco I.fcoIncClosed
      { s with fco.incs := [], fco.laneRst := s.fco.laneRst.filter lane }))) ∧
  (∀ (b : Block) (l : Nat) (i : Incident) (s : State), halted s = false → s.fco.incs = [i] → i.cls < 4 →
    i.scope = .lane b l → i.source ≠ latchBit .stg →
      let lane := fun (k : Nat) => k != laneKey b l
    let r := mkRec 0x0001 i.cls i.source i.inst i.lane i.number (min (s.now - i.openedAt) 0xFFFFFFFF) (i.cls + 256 * min i.subs 255)
    exec (.incidentClose i.number) s = .next (evrEvent r (setInt .fco I.fcoIncClosed
      { s with fco.incs := [], fco.laneRst := s.fco.laneRst.filter lane }))) ∧
  (∀ (c : Nat) (s : State), s.pwc.held = false → isLane .cpc c = true → lanePowered .cpc c s = true →
      exec (.wdog c) s = .next (raiseHead 44 0 c 0 2 (some .cpc) s))

/-- R614, R616: whatever incidents are open below Class 4, a Class 4 error of any block, once reported, leaves the head in
the Grave state: FAULT_N low, IDLE shown, the vault dump begun (R615), injection disabled, every command held in a
management queue marked unposted, and the source of the error latched. The model's own choices of log entries 3, 15
enter its clauses. -/
def Obligations.ClassFourEntersTheGraveState : Prop :=
  ∀ (b : Block) (n lane : Nat) (s : State), errClass? b n = some 4 → graved s = false →
  s.fco.incs.all (fun i => decide (i.cls < 4)) = true →
    let t := raise b n lane s
  graved t = true ∧ t.pins.faultN = false ∧ t.pwc.dumping = true ∧ t.fco.armAt = none ∧ t.mgmt.cmds.all (·.unposted) = true ∧
    t.fco.grave.all (fun g => g.source == latchBit b) = true

/-- R609: with recording on, a record written to a log that is not full and has dropped nothing is appended with SEQ =
NEXT, and NEXT goes up by 1 modulo 2³². R611: the event that finds 65,535 records appends a FULL record in its place
and sets FULL; while FULL is set, no event changes the records and each adds to DROPPED up to its largest value. The
model's own choices of log entry 3 enter its clauses. -/
def Obligations.RecordsAreNumberedAndNeverOverwritten : Prop :=
  (∀ (r : Rec) (s : State), getF F.evrCtrlRecEn s = 1 → getF F.evrStatFull s = 0 → s.evr.recs.length < 65535 →
    getF F.evrDroppedDropped s = 0 →
      (evrWrite r s).evr.recs = s.evr.recs ++ [{ r with seq := getF F.evrNextNext s, time := stamp s, noTai := timeUnset s }] ∧
      getF F.evrNextNext (evrWrite r s) = (getF F.evrNextNext s + 1) % 2 ^ 32) ∧
  (∀ (r : Rec) (s : State), getF F.evrCtrlRecEn s = 1 → getF F.evrStatFull s = 0 → 65535 ≤ s.evr.recs.length →
      ((evrWrite r s).evr.recs.getLast?).map (fun x => (x.code, x.seq, x.p1)) = some (0x0004, getF F.evrNextNext s, r.code) ∧
      (evrWrite r s).evr.recs.length = s.evr.recs.length + 1 ∧ getF F.evrStatFull (evrWrite r s) = 1) ∧
  (∀ (r : Rec) (s : State), getF F.evrStatFull s = 1 →
      (evrWrite r s).evr = s.evr ∧ getF F.evrDroppedDropped (evrWrite r s) = min (getF F.evrDroppedDropped s + 1) (2 ^ 32 - 1))

/-- EVR_READ copies up to COUNT records from the one named, or from the oldest, answers how many and the next SEQ, and
with RELEASE frees them (R613). Writing EVR_RD_SEQ selects a record (R612), writing EVR_RELEASE frees all older ones
and, below 65,535 records, clears FULL. One second after a code's first suppression its count is recorded, and returns
to 0 (R610). FCO_INJ_CTL written 0x3C and then 0xC3 within 1 ms sets INJ_EN; 0x00 clears it; the sequence lapses after
1 ms (R619). The sideband target writes EVR_RD_SEQ, EVR_RELEASE, FCO_LATCH and each page's HDR_SPARE, ERR_STAT and
INT_STAT, and no other register (R616, R677). The model's own choices of log entry 102 enter its clauses. -/
def Obligations.EventRecordIsReadReleasedAndArmed : Prop :=
  (∀ (c : Nat) (s : State), (pendOf c s).1 ≠ 0 → 1000000000 ≤ s.now - (pendOf c s).2 →
      exec (.suppressionFlush c) s = .next (evrWrite (mkRec 0x0003 0 63 0 0xFF 0 c (pendOf c s).1) (putBucket c (bucketNow c s) 0 s.now s))) ∧
  (∀ (q tag n len seq : Nat) (rel : Bool) (r : Rec) (rs : List Rec) (s : State), halted s = false →
    mgmtReady q tag 0x70 s = true → s.evr.recs = r :: rs → len ≠ 0 → n ≠ 0 → n ≤ len / 32 →
      let u := mgmtBegin q tag s
    let got := (r :: rs).take n
    let after := (got.getLast?).elim r.seq fun x => (x.seq + 1) % 2 ^ 32
    let t := emit (.evrData (got.map (·.seq))) u
    exec (.evrRead q tag seq n len rel true) s = .next (mgmtPost q tag stSuccess (got.length + 2 ^ 32 * after)
      (if rel then evrFreed { t with evr.recs := (r :: rs).drop n } else t))) ∧
  (∀ (q tag seq n len : Nat) (rel : Bool) (s : State), halted s = false → mgmtReady q tag 0x70 s = true →
    len ≠ 0 → n ≠ 0 → n ≤ len / 32 → s.evr.recs.all (fun r => r.seq != seq) = true → seq ≠ getF F.evrNextNext s →
      let u := mgmtBegin q tag s
    exec (.evrRead q tag seq n len rel false) s = .next (mgmtPost q tag 0x130 0 u)) ∧
  (∀ (n : Nat) (s : State), getF (H.pwrState .evr) s ≠ 2 → getF (H.state .evr) s ≠ 5 →
      exec (.evrRecordSelect n) s = .next (setF F.evrRdSeqSeq n s)) ∧
  (∀ (n : Nat) (s : State), getF (H.pwrState .evr) s ≠ 2 → getF (H.state .evr) s ≠ 5 →
      exec (.evrRelease n) s = .next (evrFreed { s with evr.recs := s.evr.recs.filter fun r => !olderSeq r.seq n })) ∧
  (∀ (s : State), s.evr.recs.length < 65535 → evrFreed s = setF F.evrStatFull 0 s) ∧
  (∀ (s : State), halted s = false → getF (H.pwrState .fco) s ≠ 2 → getF (H.state .fco) s ≠ 5 →
      exec (.injectArm 0x3C) s = .next { s with fco.armAt := some s.now }) ∧
  (∀ (t : Nat) (s : State), halted s = false → getF (H.pwrState .fco) s ≠ 2 → getF (H.state .fco) s ≠ 5 →
    s.fco.armAt = some t → s.now - t ≤ 1000000 → getF F.fcoInjCtlInjEn s = 0 →
      exec (.injectArm 0xC3) s = .next (injectEnable { s with fco.armAt := none })) ∧
  (∀ (s : State), halted s = false → getF (H.pwrState .fco) s ≠ 2 → getF (H.state .fco) s ≠ 5 →
      exec (.injectArm 0) s = .next (setF F.fcoInjCtlInjEn 0 { s with fco.armAt := none })) ∧
  (∀ (t : Nat) (s : State), halted s = false → s.fco.armAt = some t → 1000000 < s.now - t →
      exec .injectArmTimeout s = .next { s with fco.armAt := none }) ∧
  (∀ (v : Nat) (s : State), s.pwc.held = false → 1000000 ≤ s.now → getF (H.pwrState .evr) s ≠ 2 →
    getF (H.state .evr) s ≠ 5 →
      exec (.mgmtSidebandWrite 0x305C v) s = .next (setF F.evrRdSeqSeq v s)) ∧
  (∀ (v : Nat) (s : State), s.pwc.held = false → 1000000 ≤ s.now → getF (H.pwrState .evr) s ≠ 2 →
    getF (H.state .evr) s ≠ 5 →
      exec (.mgmtSidebandWrite 0x3080 v) s = .next (evrFreed { s with evr.recs := s.evr.recs.filter fun r => !olderSeq r.seq v })) ∧
  (∀ (a v : Nat) (s : State), s.pwc.held = false → 1000000 ≤ s.now → a % 4 = 0 →
    (a = 0x2040 ∨ a = 0x2044 ∨ a % 0x1000 = 0x10 ∨ a % 0x1000 = 0x20 ∨ a % 0x1000 = 0x3C) →
      exec (.mgmtSidebandWrite a v) s = .next (writeWord a (v % 2 ^ 32) s)) ∧
  (∀ (a v : Nat) (s : State), a ≠ 0x305C → a ≠ 0x3080 → a ≠ 0x2040 → a ≠ 0x2044 → a % 0x1000 ≠ 0x10 →
    a % 0x1000 ≠ 0x20 → a % 0x1000 ≠ 0x3C →
      exec (.mgmtSidebandWrite a v) s = .next s)

/-- POWER_CYCLE loses the Grave state and everything on chip; COLD_RESET keeps the Grave state, both lose the event
record, the write buffer, connections, caches and wrap keys, and hold the head (R595, R609, R617, R628).
COLD_RESET_RELEASE starts the boot ROM. WARM_RESET, and PWC_RST written 0x57A2, reset the head and start it again, and
keep the Grave state; another key does nothing (R617, R629). POWER_FAIL with a write buffer stops the outputs and
starts a dump (R634–R636). VAULT_DUMP_DONE counts the dump; with power restored it ends in a cold reset, without, the
head is held, and in the Grave state with power it stays as it is (R615, R635, R636). The model's own choices of log
entries 3, 93, 94, 95, 96, 104, 106 enter its clauses. -/
def Obligations.ResetsKeepWhatTheirDomainHolds : Prop :=
  (∀ (s : State),
      ∃ t, exec .powerCycle s = .next t ∧ graved t = false ∧ t.pwc.held = true ∧ getF F.pwcStatLastReset t = 0 ∧
      t.evr = State.reset.evr ∧ t.wb.own = [] ∧ t.wb.mir = [] ∧ t.fab = State.reset.fab ∧ t.mca = State.reset.mca ∧ t.dge = State.reset.dge ∧
      t.txn = State.reset.txn ∧ t.cry.wrap = [] ∧ t.fco.incs = []) ∧
  (∀ (s : State),
      ∃ t, exec .coldReset s = .next t ∧ t.fco.grave = s.fco.grave ∧ t.pwc.held = true ∧ getF F.pwcStatLastReset t = 1 ∧ t.now = 0 ∧
      t.evr = State.reset.evr ∧ t.wb.own = [] ∧ t.wb.mir = [] ∧ t.fab = State.reset.fab ∧ t.mca = State.reset.mca ∧ t.dge = State.reset.dge ∧
      t.txn = State.reset.txn ∧ t.cry.wrap = [] ∧ t.fco.incs = []) ∧
  (∀ (s : State), s.pwc.held = true →
      exec .coldResetRelease s = .next (boot { s with now := 0, pwc.held := false, pwc.inputOk := true, pwc.railsOut := [], pwc.clocksOut := [] })) ∧
  (∀ (s : State), s.pwc.held = false → s.pwc.dumping = false → exec .warmReset s = .next (warmResetDo 2 s)) ∧
  (∀ (why : Nat) (s : State),
      (warmResetDo why s).fco.grave = s.fco.grave ∧ (warmResetDo why s).wb.own = [] ∧ (warmResetDo why s).fab = State.reset.fab ∧
      (warmResetDo why s).fco.incs = []) ∧
  (∀ (s : State), halted s = false → getF (H.pwrState .pwc) s ≠ 2 → getF (H.state .pwc) s ≠ 5 →
      exec (.pwcRstWrite 0x57A2) s = .next (warmResetDo 3 s)) ∧
  (∀ (k : Nat) (s : State), halted s = false → getF (H.pwrState .pwc) s ≠ 2 → getF (H.state .pwc) s ≠ 5 →
    k ≠ 0x57A2 →
      exec (.pwcRstWrite k) s = .next s) ∧
  (∀ (s : State), s.pwc.held = false → s.pwc.dumping = false → graved s = false → getF F.stgWbStatReady s = 1 →
      let t := { s with pwc.inputOk := false }
    let u := if getF F.hbuCtrlTxEn s = 1 ∧ blockDown .hbu s = false then hbSend 5 t else t
    exec .powerFail s = .next (setF F.pwcStatMoving 0 { u with
      pwc.dumping := true, pwc.dumpAt := u.now, pwc.toState := none, bld.dumpOpen := true,
      pins := { u.pins with idle := true } })) ∧
  (∀ (s : State), (s.pwc.held = true ∨ s.pwc.dumping = true ∨ graved s = true) →
      exec .powerFail s = .next { s with pwc.inputOk := false }) ∧
  (∀ (b : Bool) (ms : Nat) (s : State), s.pwc.dumping = true → dumpWhole s = false → s.pwc.inputOk = true →
      exec (.vaultDumpDone b ms) s = .next (setF F.pwcDumpLastMs (min ms 65535) (incSatF F.pwcDumpDumps 1 { s with pwc.dumping := false }))) ∧
  (∀ (b : Bool) (ms : Nat) (s : State), s.pwc.dumping = true → dumpWhole s = true → s.pwc.inputOk = true →
      exec (.vaultDumpDone b ms) s = .next (setF F.pwcDumpLastMs (min ms 65535) (incSatF F.pwcDumpDumps 1 { dumpWrite s with pwc.dumping := false }))) ∧
  (∀ (ms : Nat) (s : State), s.pwc.dumping = true → s.pwc.inputOk = false →
      ∃ t, exec (.vaultDumpDone true ms) s = .next t ∧ t.pwc.held = true ∧ t.pwc.inputOk = true ∧ t.fco.grave = s.fco.grave ∧ getF F.pwcStatLastReset t = 5 ∧ t.wb.own = []) ∧
  (∀ (ms : Nat) (s : State), s.pwc.dumping = true → s.pwc.inputOk = false → graved s = false →
      ∃ t, exec (.vaultDumpDone false ms) s = .next t ∧ t.pwc.held = true ∧ t.pwc.inputOk = false ∧ t.wb.own = [])

/-- STARTUP_STAGE (R641): stage 1 ends with the loader measured and the Head Identity Record latched, or fails with the
case of R642; stage 2 starts the microcode; stages 3 and 4 bring up the Memory Plane or fail with cases 5 and 6; stage
5 the links and VLT's work, 6 the module ports, 7 MIR, OCU and HQE. Stage 7 waits for a role; stage 8 for the write
buffer, and ends in service. ROLE_DECISION (R643, R644): a head whose fence readings the peer made takes standby, one
that joined a Serving peer joins, and one alone takes its role when the wait is over. VAULT_RESTORE (R638) fills the
halves from the newest valid image, once; with no source, and the peer joined, the buffer is taken empty as source 3.
The model's own choices of log entries 3, 15, 94, 97, 105, 106, 111, 112, 113, 114 enter its clauses. -/
def Obligations.StartUpReachesService : Prop :=
  (∀ (f : Nat) (h : Hir) (s : State), halted s = false → getF F.bldStatStage s = 0 → running .cpc s = true →
      exec (.startupStage f h) s = .next (setF F.bldStatStage 1 s)) ∧
  (∀ (f : Nat) (h : Hir) (s : State), halted s = false → getF F.bldStatStage s = 1 → s.bld.fwSt ≠ 5 →
    s.bld.fwSt ≠ 6 → passes 1 (slotImage 1 s) s = true → f ≠ 1 → h.readable = false →
      let i := slotImage 1 s
    exec (.startupStage f h) s = .next (startFail 2 (setF F.bldFwLdrLdrVer i.version (measure 0 1 0x0002 [i] (selfTests s))))) ∧
  (∀ (f : Nat) (h : Hir) (s : State), halted s = false → getF F.bldStatStage s = 1 → s.bld.fwSt ≠ 5 →
    s.bld.fwSt ≠ 6 → passes 1 (slotImage 1 s) s = true → f ≠ 1 → h.readable = true → h.magic = 0x49484B48 →
    h.version = 1 → crcAt (hirBytes h) 256 = true → h.head = s.pins.headSel → h.dsn = s.bld.dsn →
    h.flags % 2 = 1 →
      let i := slotImage 1 s
    exec (.startupStage f h) s = .next (setF F.bldStatStage 2 (hirLatch h (setF F.bldFwLdrLdrVer i.version (measure 0 1 0x0002 [i] (selfTests s)))))) ∧
  (∀ (n : Nat) (s : State),
      startFail n s = raise .bld E.bldStartFail 0xFF (setF F.bldStatStage 31 (setF F.bldStatFail n s))) ∧
  (∀ (f : Nat) (h : Hir) (s : State), halted s = false → getF F.bldStatStage s = 2 → installDue s = false →
      exec (.startupStage f h) s = .next (stage2 s)) ∧
  (∀ (f : Nat) (h : Hir) (s : State), halted s = false → getF F.bldStatStage s = 3 → f ≠ 5 →
      exec (.startupStage f h) s = .next (setF F.bldStatStage 4 (forEach (blocksOf .memory) bring s))) ∧
  (∀ (h : Hir) (s : State), halted s = false → getF F.bldStatStage s = 3 →
      exec (.startupStage 5 h) s = .next (startFail 5 s)) ∧
  (∀ (h : Hir) (s : State), halted s = false → getF F.bldStatStage s = 4 →
      exec (.startupStage 6 h) s = .next (startFail 6 s)) ∧
  (∀ (f : Nat) (h : Hir) (s : State), halted s = false → getF F.bldStatStage s = 4 → f ≠ 6 →
    s.bld.dumpOpen = false →
      exec (.startupStage f h) s = .next (setF F.bldStatStage 5 (forEach [.vlt, .tl 0, .tl 1, .fab 0, .fab 1, .fab 2, .fab 3, .toe] bring s))) ∧
  (∀ (f : Nat) (h : Hir) (s : State), halted s = false → getF F.bldStatStage s = 5 →
      exec (.startupStage f h) s = .next (setF F.bldStatStage 6 (forEach (List.range 32) (fun m t => setF (F.mptLinkCtrlPerst m) 0 (bring (.mpt m) t)) s))) ∧
  (∀ (f : Nat) (h : Hir) (s : State), halted s = false → getF F.bldStatStage s = 6 →
      exec (.startupStage f h) s = .next (setF F.bldStatStage 7 { forEach [.mir, .ocu, .hqe] bring s with bld.stageAt := s.now })) ∧
  (∀ (f : Nat) (h : Hir) (s : State), halted s = false → getF F.bldStatStage s = 7 → getF F.bldStatRole s ≠ 0 →
    (getF F.bldStatRole s ≠ 3 ∨ (s.pair.joined = true ∧ troysUp s = true)) →
      exec (.startupStage f h) s = .next (stage7 s)) ∧
  (∀ (f : Nat) (h : Hir) (s : State), halted s = false → getF F.bldStatStage s = 8 →
    getF F.stgWbStatReady s = 1 →
      exec (.startupStage f h) s = .next (stage8 s)) ∧
  (∀ (w : Bool) (s : State), halted s = false → getF F.bldStatStage s = 7 → getF F.bldStatRole s = 0 →
    getF F.mirJoinCause s = 0 → fenceAbove true s = true →
      exec (.roleDecision [] w) s = .next (takeRole 3 (forfeit (discardSource s)))) ∧
  (∀ (w : Bool) (s : State), halted s = false → getF F.bldStatStage s = 7 → getF F.bldStatRole s = 0 →
    getF F.mirJoinCause s = 0 → fenceAbove true s = false → troysUp s = true → s.pair.joined = true →
    getF F.hbuStatRxOk s = 1 → getF F.hbuStatPeerState s = 2 →
      exec (.roleDecision [] w) s = .next (takeRole (if s.hqe.groups.any (·.mine) then 1 else 3) s)) ∧
  (∀ (w : Bool) (s : State), halted s = false → getF F.bldStatStage s = 7 → getF F.bldStatRole s = 0 →
    getF F.mirJoinCause s = 0 → fenceAbove true s = false → troysUp s = false → getF F.hbuStatRxOk s = 0 →
    waited s = true → s.hqe.groups.all (·.mine) = true →
      exec (.roleDecision [] w) s = .next (takeRole 2 s)) ∧
  (∀ (i : ImageHdr) (s : State), halted s = false → getF F.bldStatStage s = 8 → getF F.stgWbStatReady s = 0 →
    sourceOf s = some (2, i) → s.bld.adopt = false →
      exec .vaultRestore s = .next (bufferReady 2 (some i) (fillHalves s))) ∧
  (∀ (s : State), halted s = false → getF F.bldStatStage s = 8 → getF F.stgWbStatReady s = 0 →
    sourceOf s = none → s.pair.joined = true → troysUp s = true →
      exec .vaultRestore s = .next (bufferReady 3 none (fillHalves s))) ∧
  (∀ (s : State), halted s = false → getF F.bldStatStage s = 8 → getF F.stgWbStatReady s = 0 →
    sourceOf s = none → s.pair.joined = false →
      exec .vaultRestore s = .next (bufferNone s)) ∧
  (∀ (n : Nat) (h : ImageHdr) (s : State),
      (bufferReady n (some h) s).bld.consumed = h.gen ∧ (bufferReady n (some h) s).bld.retain = none ∧
      (bufferReady n (some h) s).hqe.nextSeq = max s.hqe.nextSeq (h.nextSeq + 2 ^ 32) ∧ getF F.bldStatImageSrc (bufferReady n (some h) s) = n % 4)

/-- SUPPLY and the loss of a core clock are Class 4, the loss of a port's clock Class 2 of its ports (R598, R607, R627).
LANE_ENABLE_WRITE takes its lanes, the last lane of a kind staying on with LAST_LANE (R630–R632); LANE_AUTO_GATE gates
a ready lane. HEAD_STATE_EVAL begins a transition of 20 or 30 µs towards the state aimed at, and ends it (R633, R634,
R688). ORDERLY_SHUTDOWN stops admission; with nothing left SHUT_DONE writes the root, sends heartbeat state 4 and sets
SHUT_DONE (R639). SENSOR_READ takes the hottest sensor in service, raises SENSOR_FAULT for one that fails, and sets
the level of its thresholds (R686, R687, R689, R690); THROTTLE_RELEASE goes down one level after 10 ms below the
release threshold. The model's own choices of log entries 3, 54, 93, 96, 98, 99, 100, 103 enter its clauses. -/
def Obligations.PowerLanesAndTemperatureAreManaged : Prop :=
  (∀ (r : Nat) (s : State), s.pwc.held = false → r < 7 → s.pwc.inputOk = true → s.pwc.dumping = false →
      let t := { s with pwc.railsOut := s.pwc.railsOut.filter (· != r) ++ [r] }
    exec (.supply r) s = .next (raiseHead 43 r 0xFF (railsWord t) 4 none t)) ∧
  (∀ (n : Nat) (s : State), s.pwc.held = false → n < 2 →
      let t := { s with pwc.clocksOut := s.pwc.clocksOut.filter (· != n) ++ [n] }
    exec (.clockLoss n) s = .next (raiseHead 45 n 0xFF (clkWord t) 4 none t)) ∧
  (∀ (n : Nat) (s : State), s.pwc.held = false → 2 ≤ n → n < 11 →
      let t := { s with pwc.clocksOut := s.pwc.clocksOut.filter (· != n) ++ [n] }
    exec (.clockLoss n) s = .next (forEach (clockPorts n) (fun b u => raiseHead 45 n 0xFF (clkWord t) 2 (some b) u) t)) ∧
  (∀ (m : Nat) (s : State), halted s = false → getF (H.pwrState .cry) s ≠ 2 → getF (H.state .cry) s ≠ 5 →
    m % 65536 ≠ 0 →
      let old := getF F.cryLaneEnLaneOn s
    let gone := (List.range 16).filter fun l => !bit (m % 65536) l
    let f := fun (k : Nat) => gone.all fun l => k != laneKey .cry l
    exec (.laneEnableWrite .cry false m) s = .next (laneCounts 16 old (m % 65536) (setF F.cryLaneEnLaneOn (m % 65536) { s with pwc.gated := s.pwc.gated.filter f }))) ∧
  (∀ (s : State), halted s = false → getF (H.pwrState .cry) s ≠ 2 → getF (H.state .cry) s ≠ 5 →
    getF (H.en .cry) s = 1 →
      ∃ t, exec (.laneEnableWrite .cry false 0) s = .next t ∧ getF F.cryLaneEnLaneOn t ≠ 0) ∧
  (∀ (b : Block) (l : Nat) (s : State), halted s = false → isLane b l = true → b ≠ .cpc → b ≠ .fiu → b ≠ .dge →
    getF F.pwcCtrlAutoEn s = 1 → getF (H.pwrAuto b) s = 1 → laneReady b l s = true →
      exec (.laneAutoGate b l) s = .next (count .pwc 0x03 1 { s with pwc.gated := s.pwc.gated ++ [laneKey b l] })) ∧
  (∀ (s : State), halted s = false → s.pwc.toState = none → getF F.pwcStatHstate s < stateAim s →
      exec .headStateEval s = .next (setF F.pwcStatMoving 1 { s with pwc.toState := some (stateAim s, s.now + 20000) })) ∧
  (∀ (s : State), halted s = false → s.pwc.toState = none → stateAim s < getF F.pwcStatHstate s →
      exec .headStateEval s = .next (setF F.pwcStatMoving 1 { s with pwc.toState := some (stateAim s, s.now + 30000) })) ∧
  (∀ (h t : Nat) (s : State), halted s = false → s.pwc.toState = some (h, t) → t ≤ s.now →
      exec .headStateEval s = .next (enterState h s)) ∧
  (∀ (s : State), halted s = false → getF (H.pwrState .pwc) s ≠ 2 → getF (H.state .pwc) s ≠ 5 →
      exec .orderlyShutdown s = .next (setF F.pwcCtrlShutdown 1 { s with pwc.stopping := true })) ∧
  (∀ (s : State), halted s = false → s.pwc.stopping = true → getF F.pwcStatShutDone s = 0 → cmdsLeft s = false →
    s.wb.own = [] → s.wb.units = [] → s.par.stripes = [] →
    s.ftu.pages.any (fun p => p.dirty || p.writing) = false → running .ftu s = true →
      let t := writeRoot true s
    exec .shutDone s = .next (setInt .pwc I.pwcShutDone (setF F.pwcStatShutDone 1 (hbSend 4 { t with bld.consumed := nextImgGen t - 1, bld.retain := none })))) ∧
  (∀ (ts : List Nat) (k : Nat) (s : State), s.pwc.held = false → ts.length = 16 →
    100000 ≤ s.now - s.pwc.sensedAt → getF F.pwcTempLevel s = 0 → hottest ts s.pwc.failed = some k →
      let t := { s with pwc.temps := ts, pwc.sensedAt := s.now, pwc.failed := s.pwc.failed ++ [] }
    exec (.sensorRead ts []) s = .next (sensed k (degrees (ts.getD k 0)) (ts.getD k 0) (16 - s.pwc.failed.length)
      (setF F.pwcTempInService (16 - s.pwc.failed.length) t))) ∧
  (∀ (ts : List Nat) (n k : Nat) (s : State), s.pwc.held = false → ts.length = 16 →
    100000 ≤ s.now - s.pwc.sensedAt → getF F.pwcTempLevel s = 0 → s.pwc.failed = [] → n < 16 →
    hottest ts [n] = some k →
      let t := raise .pwc E.pwcSensorFault 0xFF { s with pwc.temps := ts, pwc.sensedAt := s.now, pwc.failed := [n] }
    exec (.sensorRead ts [n]) s = .next (sensed k (degrees (ts.getD k 0)) (ts.getD k 0) 15 (setF F.pwcTempInService 15 t))) ∧
  (∀ (q : Int) (n c : Nat), 8 ≤ n →
      levelOf q n c = max c (if 440 ≤ q then 3 else if 412 ≤ q then 2 else if 400 ≤ q then 1 else 0)) ∧
  (∀ (t : Nat) (s : State), halted s = false → getF F.pwcTempLevel s = 2 → s.pwc.cool2 = some t →
    10000000 ≤ s.now - t → s.pwc.failed.length ≤ 8 →
      exec .throttleRelease s = .next (setLevel 1 s)) ∧
  (∀ (t : Nat) (s : State), halted s = false → getF F.pwcTempLevel s = 1 → s.pwc.cool1 = some t →
    10000000 ≤ s.now - t →
      exec .throttleRelease s = .next (setLevel 0 s))

/-- FW_PIECE with nothing staged: piece 0 is refused with the reason of R654 or begins a transfer, another completes with
HEADER_FIRST; a piece that fits is stored (R653–R656). FW_ACTIVATE with every piece there completes with AUTH_FAILED
and clears staging, with ROLLBACK, or is accepted and measured (R658); DISCARD clears staging up to STATE 3 (R659).
FIRMWARE_INSTALL at stage 2 after a warm reset writes the reserve back in STATE 6, ends the install with OUTCOME 5, or
installs; installing over a passing image saves it first, and opens the trial (R660–R664). FW_CONFIRM in service
raises the counter, renews the reserve copy and ends the install with OUTCOME 1 (R652, R663). The boot watchdog and
the reject key fail a trial (R664, R671). SETTINGS_WRITE writes the copy with the lower GEN, under the higher GEN plus
1, and leaves the other (R668). The model's own choices of log entries 3, 94, 104, 105, 106, 107, 108, 109, 110 enter
its clauses. -/
def Obligations.FirmwareAndSettingsAreUpdated : Prop :=
  (∀ (q tag id pcrc : Nat) (r : Bool) (data : List Byte) (s : State), halted s = false →
    mgmtReady q tag 0x50 s = true → planeDown .media s = false → s.bld.fwSt = 0 → s.bld.stage = none → r = false →
      let u := mgmtBegin q tag s
    let h := data.take 512
    exec (.fwPiece q tag id 0 pcrc r data) s = .next (match headerFault id h u with
      | some k => piecePost q tag stHeaderRefused k u
      | none => takePiece q tag { img := imageOf h, total := 512 + field h 56 8, pieces := [] } 0 pcrc data u)) ∧
  (∀ (q tag id n pcrc : Nat) (r : Bool) (data : List Byte) (s : State), halted s = false →
    mgmtReady q tag 0x50 s = true → planeDown .media s = false → s.bld.fwSt = 0 → s.bld.stage = none → n ≠ 0 →
      exec (.fwPiece q tag id n pcrc r data) s = .next (piecePost q tag stHeaderFirst 0 (mgmtBegin q tag s))) ∧
  (∀ (q tag n : Nat) (t : FwStage) (data : List Byte) (s : State), halted s = false →
    mgmtReady q tag 0x50 s = true → planeDown .media s = false → s.bld.fwSt < 3 → s.bld.stage = some t →
    n < pieceCount t → data.length = pieceLen t n → tget? t.pieces n = none →
      let u := { t with pieces := tset t.pieces n data }
    exec (.fwPiece q tag t.img.id n (crc32c data) false data) s = .next (piecePost q tag stSuccess 0 { mgmtBegin q tag s with
      bld.stage := some u, bld.fwSt := if (missing u).isEmpty then 2 else 1 })) ∧
  (∀ (q tag : Nat) (t : FwStage) (s : State), halted s = false → mgmtReady q tag 0x51 s = true → s.bld.fwSt < 5 →
    s.bld.stage = some t → missing t = [] →
      let i := wholeImage t
    let u := mgmtBegin q tag s
    exec (.fwActivate q tag t.img.id false true) s = .next (
      if i.ok = false ∨ keyGood i u = false then mgmtPost q tag stAuthFailed 0 (stagingClear u.bld.outcome u)
      else if arbGood i u = false then mgmtPost q tag stRollback 0 u
      else mgmtPost q tag stSuccess 0 (mrTry 2 6 0x0020 (Config.sha384 (i.bytes.take 512)) { u with bld.fwSt := 3 }))) ∧
  (∀ (q tag id : Nat) (a b : Bool) (s : State), halted s = false → mgmtReady q tag 0x51 s = true →
    s.bld.fwSt < 5 → s.bld.stage = none →
      exec (.fwActivate q tag id a b) s = .next (mgmtPost q tag stNoStaged 0 (mgmtBegin q tag s))) ∧
  (∀ (q tag : Nat) (s : State), halted s = false → mgmtReady q tag 0x51 s = true → s.bld.fwSt ≤ 3 →
      exec (.fwDiscard q tag) s = .next (mgmtPost q tag stSuccess 0 { mgmtBegin q tag s with
      bld.stage := none, bld.fwSt := 0, bld.starts := 0, bld.why := 0, bld.wdogAt := none })) ∧
  (∀ (q tag : Nat) (s : State), halted s = false → mgmtReady q tag 0x51 s = true → 3 < s.bld.fwSt →
      exec (.fwDiscard q tag) s = .next (mgmtPost q tag stInstallBegun 0 (mgmtBegin q tag s))) ∧
  (∀ (s : State), halted s = false → getF F.bldStatStage s = 2 → afterWarm s = true → s.bld.fwSt = 6 →
      exec .firmwareInstall s = .next (fallback s)) ∧
  (∀ (t : FwStage) (s : State), halted s = false → getF F.bldStatStage s = 2 → afterWarm s = true →
    (s.bld.fwSt = 3 ∨ s.bld.fwSt = 4) → s.bld.stage = some t →
      let i := wholeImage t
    exec .firmwareInstall s = .next (if passes t.img.kind i s = true then install i s else stagingClear 5 s)) ∧
  (∀ (i : FwImage) (s : State), s.bld.fwSt = 3 → i.kind = 2 → passes 2 (slotImage 2 s) s = true →
      let t := install i s
    reserveImage 2 t = slotImage 2 s ∧ slotImage 2 t = i ∧ t.bld.fwSt = 5 ∧ t.bld.starts = 1 ∧ t.bld.wdogAt = some (s.now + 600000000000)) ∧
  (∀ (s : State), stagedKind s ≠ 0 →
      let t := fallback s
    slotImage (stagedKind s) t = reserveImage (stagedKind s) s ∧ t.bld.fwSt = 0 ∧ t.bld.stage = none ∧ t.bld.outcome = s.bld.why) ∧
  (∀ (s : State), halted s = false → s.bld.fwSt = 5 → inService s = true →
      let k := stagedKind s
    ∃ t, exec .fwConfirm s = .next t ∧ tget t.bld.arb k 0 = max (tget s.bld.arb k 0) (slotImage k s).counter ∧
      reserveImage k t = slotImage k s ∧ t.bld.fwSt = 0 ∧ t.bld.stage = none ∧ t.bld.outcome = 1 ∧ getF F.bldFwCtrlFwConfirm t = 1) ∧
  (∀ (w : Nat) (s : State), halted s = false → s.bld.fwSt = 5 → s.bld.wdogAt = some w → w ≤ s.now →
      exec .bootWatchdogExpiry s = .next (warmResetDo 4 { s with bld.fwSt := 6, bld.why := 2 })) ∧
  (∀ (s : State), halted s = false → getF (H.pwrState .bld) s ≠ 2 → getF (H.state .bld) s ≠ 5 → s.bld.fwSt = 5 →
      exec (.fwReject 0x0FA1) s = .next (warmResetDo 4 { s with bld.fwSt := 6, bld.why := 4 })) ∧
  (∀ (k : Nat) (s : State), halted s = false → getF (H.pwrState .bld) s ≠ 2 → getF (H.state .bld) s ≠ 5 →
    k ≠ 0x0FA1 →
      exec (.fwReject k) s = .next s) ∧
  (∀ (q tag : Nat) (b : Settings) (s : State), halted s = false → mgmtReady q tag 0x52 s = true →
    s.bld.fwSt < 5 → settingsWhole b = true → b.setVer = s.bld.setVer → b.items.all itemOk = true →
      exec (.settingsWrite q tag b) s = .next (mgmtPost q tag stSuccess 0 (settingsPut b (mgmtBegin q tag s)))) ∧
  (∀ (b : Settings) (s : State), setGen s.bld.setA ≤ setGen s.bld.setB →
      let t := settingsPut b s
    t.bld.setB = s.bld.setB ∧ t.bld.setA = some { b with gen := setGen s.bld.setB + 1 })

/-- With a command at the front of the queue, step is exec of that command on the state with the queue's rest. With an
empty queue it is one 8 ns tick of the local clock (R508), which moves the local time by 8 ns and changes neither the
Grave state nor any memory, queue or table of the head; that an empty queue ticks is the model's choice (log entry 2). -/
def Obligations.StepRunsTheCommandInFront : Prop :=
  (∀ (c : Instr) (r : List Instr) (s : State), step { s with pending := c :: r } = exec c { s with pending := r }) ∧
  (∀ (s : State), s.pending = [] →
      step s = .next (tick s) ∧ (tick s).now = s.now + 8 ∧ (tick s).pending = [] ∧ (tick s).fco = s.fco ∧ (tick s).wb = s.wb ∧
      (tick s).ftu = s.ftu ∧ (tick s).hqe = s.hqe ∧ (tick s).out = s.out)

/-- State.reset is the head as a power cycle leaves it when the cold reset is released. The fields have the Reset column's
values of their tables, among them the ports 4420 and 8009 and QP_RES 16,384 of R185, JOB_LANES 2 of R387, MAX_SPEED 5
and MAX_WIDTH 4 of MGE (R148), and STATE 0, Off, of every block (R55); STAGE is 0, and LAST_RESET 0 names the power
cycle (R646). The power cycle has left the Grave state (R617). The measurement registers are zero (R377). The tables
and the queue of commands are empty, which is the model's reading of a head that holds nothing yet (log entry 1). -/
def Obligations.ResetHoldsTheValuesOfTheSpec : Prop :=
  (  getF F.toePortsNvmePort State.reset = 4420 ∧ getF F.toePortsDiscPort State.reset = 8009 ∧ getF F.toeQpResQpRes State.reset = 16384 ∧
      getF F.dgeCfgJobLanes State.reset = 2 ∧ getF F.mgeLinkCtrlMaxSpeed State.reset = 5 ∧ getF F.mgeLinkCtrlMaxWidth State.reset = 4) ∧
  (  (∀ b ∈ allBlocks, getF (H.state b) State.reset = 0) ∧ getF F.bldStatStage State.reset = 0 ∧ getF F.pwcStatLastReset State.reset = 0) ∧
  (  graved State.reset = false ∧ halted State.reset = false ∧ State.reset.pins.faultN = true ∧ State.reset.pending = []) ∧
  (  State.reset.sec.mr = List.replicate 8 zero48 ∧ State.reset.sec.log = [] ∧ State.reset.evr.recs = [] ∧ State.reset.wb.own = [] ∧
      State.reset.hqe.ns = [] ∧ State.reset.repl.streams = [])

/-- R617: the Grave state is left only by power cycling. From a graved state a step with any command but POWER_CYCLE at
the front, or with an empty queue, answers a next state that is graved: PERST#, warm reset, cold reset, dumps,
register writes and errors do not leave it. A power cycle leaves it. That every command answers a next state there is
the model's (no command stops it). -/
def Obligations.GraveStateIsLeftOnlyByPowerCycling : Prop :=
  (∀ (s : State), graved s = true → s.pending.head? ≠ some .powerCycle → ∃ t, step s = .next t ∧ graved t = true) ∧
  (∀ (s : State), s.pending.head? = some .powerCycle → ∃ t, step s = .next t ∧ graved t = false) ∧
  (graved State.reset = false)
end

