-- ==== Sys2Proof/Laws/State.lean ====
section
/-! SUPPORT. What each primitive update of the state writes and what it leaves, one small lemma a field, so that no
later proof unfolds a record update. -/

namespace Sys2Proof.Machine

/-! emit -/

@[simp] theorem emit_now (o : Out) (s : State) : (emit o s).now = s.now := rfl
@[simp] theorem emit_regs (o : Out) (s : State) : (emit o s).regs = s.regs := rfl
@[simp] theorem emit_txn (o : Out) (s : State) : (emit o s).txn = s.txn := rfl
@[simp] theorem emit_mgmt (o : Out) (s : State) : (emit o s).mgmt = s.mgmt := rfl
@[simp] theorem emit_fco (o : Out) (s : State) : (emit o s).fco = s.fco := rfl
@[simp] theorem emit_evr (o : Out) (s : State) : (emit o s).evr = s.evr := rfl
@[simp] theorem emit_pwc (o : Out) (s : State) : (emit o s).pwc = s.pwc := rfl
@[simp] theorem emit_pins (o : Out) (s : State) : (emit o s).pins = s.pins := rfl
@[simp] theorem emit_ports (o : Out) (s : State) : (emit o s).ports = s.ports := rfl
@[simp] theorem emit_hqe (o : Out) (s : State) : (emit o s).hqe = s.hqe := rfl
@[simp] theorem emit_fab (o : Out) (s : State) : (emit o s).fab = s.fab := rfl
@[simp] theorem emit_wb (o : Out) (s : State) : (emit o s).wb = s.wb := rfl
@[simp] theorem emit_fiu (o : Out) (s : State) : (emit o s).fiu = s.fiu := rfl
@[simp] theorem emit_cmp (o : Out) (s : State) : (emit o s).cmp = s.cmp := rfl
@[simp] theorem emit_cry (o : Out) (s : State) : (emit o s).cry = s.cry := rfl
@[simp] theorem emit_dge (o : Out) (s : State) : (emit o s).dge = s.dge := rfl
@[simp] theorem emit_sec (o : Out) (s : State) : (emit o s).sec = s.sec := rfl
@[simp] theorem emit_ftu (o : Out) (s : State) : (emit o s).ftu = s.ftu := rfl
@[simp] theorem emit_mca (o : Out) (s : State) : (emit o s).mca = s.mca := rfl
@[simp] theorem emit_par (o : Out) (s : State) : (emit o s).par = s.par := rfl
@[simp] theorem emit_mods (o : Out) (s : State) : (emit o s).mods = s.mods := rfl
@[simp] theorem emit_eph (o : Out) (s : State) : (emit o s).eph = s.eph := rfl
@[simp] theorem emit_repl (o : Out) (s : State) : (emit o s).repl = s.repl := rfl
@[simp] theorem emit_pair (o : Out) (s : State) : (emit o s).pair = s.pair := rfl
@[simp] theorem emit_bld (o : Out) (s : State) : (emit o s).bld = s.bld := rfl
@[simp] theorem emit_out (o : Out) (s : State) : (emit o s).out = o :: s.out := rfl
@[simp] theorem emit_free (o : Out) (s : State) : (emit o s).free = s.free := rfl
@[simp] theorem emit_pending (o : Out) (s : State) : (emit o s).pending = s.pending := rfl

/-! loadF -/

@[simp] theorem loadF_now (f : Fld) (v : Nat) (s : State) : (loadF f v s).now = s.now := rfl
@[simp] theorem loadF_txn (f : Fld) (v : Nat) (s : State) : (loadF f v s).txn = s.txn := rfl
@[simp] theorem loadF_mgmt (f : Fld) (v : Nat) (s : State) : (loadF f v s).mgmt = s.mgmt := rfl
@[simp] theorem loadF_fco (f : Fld) (v : Nat) (s : State) : (loadF f v s).fco = s.fco := rfl
@[simp] theorem loadF_evr (f : Fld) (v : Nat) (s : State) : (loadF f v s).evr = s.evr := rfl
@[simp] theorem loadF_pwc (f : Fld) (v : Nat) (s : State) : (loadF f v s).pwc = s.pwc := rfl
@[simp] theorem loadF_pins (f : Fld) (v : Nat) (s : State) : (loadF f v s).pins = s.pins := rfl
@[simp] theorem loadF_ports (f : Fld) (v : Nat) (s : State) : (loadF f v s).ports = s.ports := rfl
@[simp] theorem loadF_hqe (f : Fld) (v : Nat) (s : State) : (loadF f v s).hqe = s.hqe := rfl
@[simp] theorem loadF_fab (f : Fld) (v : Nat) (s : State) : (loadF f v s).fab = s.fab := rfl
@[simp] theorem loadF_wb (f : Fld) (v : Nat) (s : State) : (loadF f v s).wb = s.wb := rfl
@[simp] theorem loadF_fiu (f : Fld) (v : Nat) (s : State) : (loadF f v s).fiu = s.fiu := rfl
@[simp] theorem loadF_cmp (f : Fld) (v : Nat) (s : State) : (loadF f v s).cmp = s.cmp := rfl
@[simp] theorem loadF_cry (f : Fld) (v : Nat) (s : State) : (loadF f v s).cry = s.cry := rfl
@[simp] theorem loadF_dge (f : Fld) (v : Nat) (s : State) : (loadF f v s).dge = s.dge := rfl
@[simp] theorem loadF_sec (f : Fld) (v : Nat) (s : State) : (loadF f v s).sec = s.sec := rfl
@[simp] theorem loadF_ftu (f : Fld) (v : Nat) (s : State) : (loadF f v s).ftu = s.ftu := rfl
@[simp] theorem loadF_mca (f : Fld) (v : Nat) (s : State) : (loadF f v s).mca = s.mca := rfl
@[simp] theorem loadF_par (f : Fld) (v : Nat) (s : State) : (loadF f v s).par = s.par := rfl
@[simp] theorem loadF_mods (f : Fld) (v : Nat) (s : State) : (loadF f v s).mods = s.mods := rfl
@[simp] theorem loadF_eph (f : Fld) (v : Nat) (s : State) : (loadF f v s).eph = s.eph := rfl
@[simp] theorem loadF_repl (f : Fld) (v : Nat) (s : State) : (loadF f v s).repl = s.repl := rfl
@[simp] theorem loadF_pair (f : Fld) (v : Nat) (s : State) : (loadF f v s).pair = s.pair := rfl
@[simp] theorem loadF_bld (f : Fld) (v : Nat) (s : State) : (loadF f v s).bld = s.bld := rfl
@[simp] theorem loadF_out (f : Fld) (v : Nat) (s : State) : (loadF f v s).out = s.out := rfl
@[simp] theorem loadF_free (f : Fld) (v : Nat) (s : State) : (loadF f v s).free = s.free := rfl
@[simp] theorem loadF_pending (f : Fld) (v : Nat) (s : State) : (loadF f v s).pending = s.pending := rfl

/-! setBankF -/

@[simp] theorem setBankF_now (f : Fld) (i v d : Nat) (s : State) : (setBankF f i v d s).now = s.now := rfl
@[simp] theorem setBankF_txn (f : Fld) (i v d : Nat) (s : State) : (setBankF f i v d s).txn = s.txn := rfl
@[simp] theorem setBankF_mgmt (f : Fld) (i v d : Nat) (s : State) : (setBankF f i v d s).mgmt = s.mgmt := rfl
@[simp] theorem setBankF_fco (f : Fld) (i v d : Nat) (s : State) : (setBankF f i v d s).fco = s.fco := rfl
@[simp] theorem setBankF_evr (f : Fld) (i v d : Nat) (s : State) : (setBankF f i v d s).evr = s.evr := rfl
@[simp] theorem setBankF_pwc (f : Fld) (i v d : Nat) (s : State) : (setBankF f i v d s).pwc = s.pwc := rfl
@[simp] theorem setBankF_pins (f : Fld) (i v d : Nat) (s : State) : (setBankF f i v d s).pins = s.pins := rfl
@[simp] theorem setBankF_ports (f : Fld) (i v d : Nat) (s : State) : (setBankF f i v d s).ports = s.ports := rfl
@[simp] theorem setBankF_hqe (f : Fld) (i v d : Nat) (s : State) : (setBankF f i v d s).hqe = s.hqe := rfl
@[simp] theorem setBankF_fab (f : Fld) (i v d : Nat) (s : State) : (setBankF f i v d s).fab = s.fab := rfl
@[simp] theorem setBankF_wb (f : Fld) (i v d : Nat) (s : State) : (setBankF f i v d s).wb = s.wb := rfl
@[simp] theorem setBankF_fiu (f : Fld) (i v d : Nat) (s : State) : (setBankF f i v d s).fiu = s.fiu := rfl
@[simp] theorem setBankF_cmp (f : Fld) (i v d : Nat) (s : State) : (setBankF f i v d s).cmp = s.cmp := rfl
@[simp] theorem setBankF_cry (f : Fld) (i v d : Nat) (s : State) : (setBankF f i v d s).cry = s.cry := rfl
@[simp] theorem setBankF_dge (f : Fld) (i v d : Nat) (s : State) : (setBankF f i v d s).dge = s.dge := rfl
@[simp] theorem setBankF_sec (f : Fld) (i v d : Nat) (s : State) : (setBankF f i v d s).sec = s.sec := rfl
@[simp] theorem setBankF_ftu (f : Fld) (i v d : Nat) (s : State) : (setBankF f i v d s).ftu = s.ftu := rfl
@[simp] theorem setBankF_mca (f : Fld) (i v d : Nat) (s : State) : (setBankF f i v d s).mca = s.mca := rfl
@[simp] theorem setBankF_par (f : Fld) (i v d : Nat) (s : State) : (setBankF f i v d s).par = s.par := rfl
@[simp] theorem setBankF_mods (f : Fld) (i v d : Nat) (s : State) : (setBankF f i v d s).mods = s.mods := rfl
@[simp] theorem setBankF_eph (f : Fld) (i v d : Nat) (s : State) : (setBankF f i v d s).eph = s.eph := rfl
@[simp] theorem setBankF_repl (f : Fld) (i v d : Nat) (s : State) : (setBankF f i v d s).repl = s.repl := rfl
@[simp] theorem setBankF_pair (f : Fld) (i v d : Nat) (s : State) : (setBankF f i v d s).pair = s.pair := rfl
@[simp] theorem setBankF_bld (f : Fld) (i v d : Nat) (s : State) : (setBankF f i v d s).bld = s.bld := rfl
@[simp] theorem setBankF_out (f : Fld) (i v d : Nat) (s : State) : (setBankF f i v d s).out = s.out := rfl
@[simp] theorem setBankF_free (f : Fld) (i v d : Nat) (s : State) : (setBankF f i v d s).free = s.free := rfl
@[simp] theorem setBankF_pending (f : Fld) (i v d : Nat) (s : State) : (setBankF f i v d s).pending = s.pending := rfl

/-! putChan -/

@[simp] theorem putChan_now (ch : Nat) (c : Chan) (s : State) : (putChan ch c s).now = s.now := rfl
@[simp] theorem putChan_regs (ch : Nat) (c : Chan) (s : State) : (putChan ch c s).regs = s.regs := rfl
@[simp] theorem putChan_txn (ch : Nat) (c : Chan) (s : State) : (putChan ch c s).txn = s.txn := rfl
@[simp] theorem putChan_mgmt (ch : Nat) (c : Chan) (s : State) : (putChan ch c s).mgmt = s.mgmt := rfl
@[simp] theorem putChan_fco (ch : Nat) (c : Chan) (s : State) : (putChan ch c s).fco = s.fco := rfl
@[simp] theorem putChan_evr (ch : Nat) (c : Chan) (s : State) : (putChan ch c s).evr = s.evr := rfl
@[simp] theorem putChan_pwc (ch : Nat) (c : Chan) (s : State) : (putChan ch c s).pwc = s.pwc := rfl
@[simp] theorem putChan_pins (ch : Nat) (c : Chan) (s : State) : (putChan ch c s).pins = s.pins := rfl
@[simp] theorem putChan_ports (ch : Nat) (c : Chan) (s : State) : (putChan ch c s).ports = s.ports := rfl
@[simp] theorem putChan_hqe (ch : Nat) (c : Chan) (s : State) : (putChan ch c s).hqe = s.hqe := rfl
@[simp] theorem putChan_fab (ch : Nat) (c : Chan) (s : State) : (putChan ch c s).fab = s.fab := rfl
@[simp] theorem putChan_wb (ch : Nat) (c : Chan) (s : State) : (putChan ch c s).wb = s.wb := rfl
@[simp] theorem putChan_fiu (ch : Nat) (c : Chan) (s : State) : (putChan ch c s).fiu = s.fiu := rfl
@[simp] theorem putChan_cmp (ch : Nat) (c : Chan) (s : State) : (putChan ch c s).cmp = s.cmp := rfl
@[simp] theorem putChan_cry (ch : Nat) (c : Chan) (s : State) : (putChan ch c s).cry = s.cry := rfl
@[simp] theorem putChan_dge (ch : Nat) (c : Chan) (s : State) : (putChan ch c s).dge = s.dge := rfl
@[simp] theorem putChan_sec (ch : Nat) (c : Chan) (s : State) : (putChan ch c s).sec = s.sec := rfl
@[simp] theorem putChan_ftu (ch : Nat) (c : Chan) (s : State) : (putChan ch c s).ftu = s.ftu := rfl
@[simp] theorem putChan_mca (ch : Nat) (c : Chan) (s : State) : (putChan ch c s).mca = s.mca := rfl
@[simp] theorem putChan_par (ch : Nat) (c : Chan) (s : State) : (putChan ch c s).par = s.par := rfl
@[simp] theorem putChan_mods (ch : Nat) (c : Chan) (s : State) : (putChan ch c s).mods = s.mods := rfl
@[simp] theorem putChan_eph (ch : Nat) (c : Chan) (s : State) : (putChan ch c s).eph = s.eph := rfl
@[simp] theorem putChan_repl (ch : Nat) (c : Chan) (s : State) : (putChan ch c s).repl = s.repl := rfl
@[simp] theorem putChan_bld (ch : Nat) (c : Chan) (s : State) : (putChan ch c s).bld = s.bld := rfl
@[simp] theorem putChan_out (ch : Nat) (c : Chan) (s : State) : (putChan ch c s).out = s.out := rfl
@[simp] theorem putChan_free (ch : Nat) (c : Chan) (s : State) : (putChan ch c s).free = s.free := rfl
@[simp] theorem putChan_pending (ch : Nat) (c : Chan) (s : State) : (putChan ch c s).pending = s.pending := rfl

/-! mgmtBegin -/

@[simp] theorem mgmtBegin_now (q tag : Nat) (s : State) : (mgmtBegin q tag s).now = s.now := rfl
@[simp] theorem mgmtBegin_regs (q tag : Nat) (s : State) : (mgmtBegin q tag s).regs = s.regs := rfl
@[simp] theorem mgmtBegin_txn (q tag : Nat) (s : State) : (mgmtBegin q tag s).txn = s.txn := rfl
@[simp] theorem mgmtBegin_fco (q tag : Nat) (s : State) : (mgmtBegin q tag s).fco = s.fco := rfl
@[simp] theorem mgmtBegin_evr (q tag : Nat) (s : State) : (mgmtBegin q tag s).evr = s.evr := rfl
@[simp] theorem mgmtBegin_pwc (q tag : Nat) (s : State) : (mgmtBegin q tag s).pwc = s.pwc := rfl
@[simp] theorem mgmtBegin_pins (q tag : Nat) (s : State) : (mgmtBegin q tag s).pins = s.pins := rfl
@[simp] theorem mgmtBegin_ports (q tag : Nat) (s : State) : (mgmtBegin q tag s).ports = s.ports := rfl
@[simp] theorem mgmtBegin_hqe (q tag : Nat) (s : State) : (mgmtBegin q tag s).hqe = s.hqe := rfl
@[simp] theorem mgmtBegin_fab (q tag : Nat) (s : State) : (mgmtBegin q tag s).fab = s.fab := rfl
@[simp] theorem mgmtBegin_wb (q tag : Nat) (s : State) : (mgmtBegin q tag s).wb = s.wb := rfl
@[simp] theorem mgmtBegin_fiu (q tag : Nat) (s : State) : (mgmtBegin q tag s).fiu = s.fiu := rfl
@[simp] theorem mgmtBegin_cmp (q tag : Nat) (s : State) : (mgmtBegin q tag s).cmp = s.cmp := rfl
@[simp] theorem mgmtBegin_cry (q tag : Nat) (s : State) : (mgmtBegin q tag s).cry = s.cry := rfl
@[simp] theorem mgmtBegin_dge (q tag : Nat) (s : State) : (mgmtBegin q tag s).dge = s.dge := rfl
@[simp] theorem mgmtBegin_sec (q tag : Nat) (s : State) : (mgmtBegin q tag s).sec = s.sec := rfl
@[simp] theorem mgmtBegin_ftu (q tag : Nat) (s : State) : (mgmtBegin q tag s).ftu = s.ftu := rfl
@[simp] theorem mgmtBegin_mca (q tag : Nat) (s : State) : (mgmtBegin q tag s).mca = s.mca := rfl
@[simp] theorem mgmtBegin_par (q tag : Nat) (s : State) : (mgmtBegin q tag s).par = s.par := rfl
@[simp] theorem mgmtBegin_mods (q tag : Nat) (s : State) : (mgmtBegin q tag s).mods = s.mods := rfl
@[simp] theorem mgmtBegin_eph (q tag : Nat) (s : State) : (mgmtBegin q tag s).eph = s.eph := rfl
@[simp] theorem mgmtBegin_repl (q tag : Nat) (s : State) : (mgmtBegin q tag s).repl = s.repl := rfl
@[simp] theorem mgmtBegin_pair (q tag : Nat) (s : State) : (mgmtBegin q tag s).pair = s.pair := rfl
@[simp] theorem mgmtBegin_bld (q tag : Nat) (s : State) : (mgmtBegin q tag s).bld = s.bld := rfl
@[simp] theorem mgmtBegin_out (q tag : Nat) (s : State) : (mgmtBegin q tag s).out = s.out := rfl
@[simp] theorem mgmtBegin_free (q tag : Nat) (s : State) : (mgmtBegin q tag s).free = s.free := rfl
@[simp] theorem mgmtBegin_pending (q tag : Nat) (s : State) : (mgmtBegin q tag s).pending = s.pending := rfl

/-! putBucket -/

@[simp] theorem putBucket_now (code tok pend since : Nat) (s : State) : (putBucket code tok pend since s).now = s.now := rfl
@[simp] theorem putBucket_regs (code tok pend since : Nat) (s : State) : (putBucket code tok pend since s).regs = s.regs := rfl
@[simp] theorem putBucket_txn (code tok pend since : Nat) (s : State) : (putBucket code tok pend since s).txn = s.txn := rfl
@[simp] theorem putBucket_mgmt (code tok pend since : Nat) (s : State) : (putBucket code tok pend since s).mgmt = s.mgmt := rfl
@[simp] theorem putBucket_fco (code tok pend since : Nat) (s : State) : (putBucket code tok pend since s).fco = s.fco := rfl
@[simp] theorem putBucket_pwc (code tok pend since : Nat) (s : State) : (putBucket code tok pend since s).pwc = s.pwc := rfl
@[simp] theorem putBucket_pins (code tok pend since : Nat) (s : State) : (putBucket code tok pend since s).pins = s.pins := rfl
@[simp] theorem putBucket_ports (code tok pend since : Nat) (s : State) : (putBucket code tok pend since s).ports = s.ports := rfl
@[simp] theorem putBucket_hqe (code tok pend since : Nat) (s : State) : (putBucket code tok pend since s).hqe = s.hqe := rfl
@[simp] theorem putBucket_fab (code tok pend since : Nat) (s : State) : (putBucket code tok pend since s).fab = s.fab := rfl
@[simp] theorem putBucket_wb (code tok pend since : Nat) (s : State) : (putBucket code tok pend since s).wb = s.wb := rfl
@[simp] theorem putBucket_fiu (code tok pend since : Nat) (s : State) : (putBucket code tok pend since s).fiu = s.fiu := rfl
@[simp] theorem putBucket_cmp (code tok pend since : Nat) (s : State) : (putBucket code tok pend since s).cmp = s.cmp := rfl
@[simp] theorem putBucket_cry (code tok pend since : Nat) (s : State) : (putBucket code tok pend since s).cry = s.cry := rfl
@[simp] theorem putBucket_dge (code tok pend since : Nat) (s : State) : (putBucket code tok pend since s).dge = s.dge := rfl
@[simp] theorem putBucket_sec (code tok pend since : Nat) (s : State) : (putBucket code tok pend since s).sec = s.sec := rfl
@[simp] theorem putBucket_ftu (code tok pend since : Nat) (s : State) : (putBucket code tok pend since s).ftu = s.ftu := rfl
@[simp] theorem putBucket_mca (code tok pend since : Nat) (s : State) : (putBucket code tok pend since s).mca = s.mca := rfl
@[simp] theorem putBucket_par (code tok pend since : Nat) (s : State) : (putBucket code tok pend since s).par = s.par := rfl
@[simp] theorem putBucket_mods (code tok pend since : Nat) (s : State) : (putBucket code tok pend since s).mods = s.mods := rfl
@[simp] theorem putBucket_eph (code tok pend since : Nat) (s : State) : (putBucket code tok pend since s).eph = s.eph := rfl
@[simp] theorem putBucket_repl (code tok pend since : Nat) (s : State) : (putBucket code tok pend since s).repl = s.repl := rfl
@[simp] theorem putBucket_pair (code tok pend since : Nat) (s : State) : (putBucket code tok pend since s).pair = s.pair := rfl
@[simp] theorem putBucket_bld (code tok pend since : Nat) (s : State) : (putBucket code tok pend since s).bld = s.bld := rfl
@[simp] theorem putBucket_out (code tok pend since : Nat) (s : State) : (putBucket code tok pend since s).out = s.out := rfl
@[simp] theorem putBucket_free (code tok pend since : Nat) (s : State) : (putBucket code tok pend since s).free = s.free := rfl
@[simp] theorem putBucket_pending (code tok pend since : Nat) (s : State) : (putBucket code tok pend since s).pending = s.pending := rfl

/-! setF: an unshadowed field takes the value at once, of a shadowed one the shadow copy (R64). -/

/-- setF writes the register file and nothing else. -/
theorem setF_eq (f : Fld) (v : Nat) (s : State) : setF f v s = { s with regs := (setF f v s).regs } := by
  unfold setF; split <;> rfl

@[simp] theorem setF_now (f : Fld) (v : Nat) (s : State) : (setF f v s).now = s.now := by rw [setF_eq]
@[simp] theorem setF_txn (f : Fld) (v : Nat) (s : State) : (setF f v s).txn = s.txn := by rw [setF_eq]
@[simp] theorem setF_mgmt (f : Fld) (v : Nat) (s : State) : (setF f v s).mgmt = s.mgmt := by rw [setF_eq]
@[simp] theorem setF_fco (f : Fld) (v : Nat) (s : State) : (setF f v s).fco = s.fco := by rw [setF_eq]
@[simp] theorem setF_evr (f : Fld) (v : Nat) (s : State) : (setF f v s).evr = s.evr := by rw [setF_eq]
@[simp] theorem setF_pwc (f : Fld) (v : Nat) (s : State) : (setF f v s).pwc = s.pwc := by rw [setF_eq]
@[simp] theorem setF_pins (f : Fld) (v : Nat) (s : State) : (setF f v s).pins = s.pins := by rw [setF_eq]
@[simp] theorem setF_ports (f : Fld) (v : Nat) (s : State) : (setF f v s).ports = s.ports := by rw [setF_eq]
@[simp] theorem setF_hqe (f : Fld) (v : Nat) (s : State) : (setF f v s).hqe = s.hqe := by rw [setF_eq]
@[simp] theorem setF_fab (f : Fld) (v : Nat) (s : State) : (setF f v s).fab = s.fab := by rw [setF_eq]
@[simp] theorem setF_wb (f : Fld) (v : Nat) (s : State) : (setF f v s).wb = s.wb := by rw [setF_eq]
@[simp] theorem setF_fiu (f : Fld) (v : Nat) (s : State) : (setF f v s).fiu = s.fiu := by rw [setF_eq]
@[simp] theorem setF_cmp (f : Fld) (v : Nat) (s : State) : (setF f v s).cmp = s.cmp := by rw [setF_eq]
@[simp] theorem setF_cry (f : Fld) (v : Nat) (s : State) : (setF f v s).cry = s.cry := by rw [setF_eq]
@[simp] theorem setF_dge (f : Fld) (v : Nat) (s : State) : (setF f v s).dge = s.dge := by rw [setF_eq]
@[simp] theorem setF_sec (f : Fld) (v : Nat) (s : State) : (setF f v s).sec = s.sec := by rw [setF_eq]
@[simp] theorem setF_ftu (f : Fld) (v : Nat) (s : State) : (setF f v s).ftu = s.ftu := by rw [setF_eq]
@[simp] theorem setF_mca (f : Fld) (v : Nat) (s : State) : (setF f v s).mca = s.mca := by rw [setF_eq]
@[simp] theorem setF_par (f : Fld) (v : Nat) (s : State) : (setF f v s).par = s.par := by rw [setF_eq]
@[simp] theorem setF_mods (f : Fld) (v : Nat) (s : State) : (setF f v s).mods = s.mods := by rw [setF_eq]
@[simp] theorem setF_eph (f : Fld) (v : Nat) (s : State) : (setF f v s).eph = s.eph := by rw [setF_eq]
@[simp] theorem setF_repl (f : Fld) (v : Nat) (s : State) : (setF f v s).repl = s.repl := by rw [setF_eq]
@[simp] theorem setF_pair (f : Fld) (v : Nat) (s : State) : (setF f v s).pair = s.pair := by rw [setF_eq]
@[simp] theorem setF_bld (f : Fld) (v : Nat) (s : State) : (setF f v s).bld = s.bld := by rw [setF_eq]
@[simp] theorem setF_out (f : Fld) (v : Nat) (s : State) : (setF f v s).out = s.out := by rw [setF_eq]
@[simp] theorem setF_free (f : Fld) (v : Nat) (s : State) : (setF f v s).free = s.free := by rw [setF_eq]
@[simp] theorem setF_pending (f : Fld) (v : Nat) (s : State) : (setF f v s).pending = s.pending := by rw [setF_eq]

@[simp] theorem flagF_now (f : Fld) (v : Bool) (s : State) : (flagF f v s).now = s.now := setF_now _ _ s
@[simp] theorem flagF_txn (f : Fld) (v : Bool) (s : State) : (flagF f v s).txn = s.txn := setF_txn _ _ s
@[simp] theorem flagF_mgmt (f : Fld) (v : Bool) (s : State) : (flagF f v s).mgmt = s.mgmt := setF_mgmt _ _ s
@[simp] theorem flagF_fco (f : Fld) (v : Bool) (s : State) : (flagF f v s).fco = s.fco := setF_fco _ _ s
@[simp] theorem flagF_evr (f : Fld) (v : Bool) (s : State) : (flagF f v s).evr = s.evr := setF_evr _ _ s
@[simp] theorem flagF_pwc (f : Fld) (v : Bool) (s : State) : (flagF f v s).pwc = s.pwc := setF_pwc _ _ s
@[simp] theorem flagF_pins (f : Fld) (v : Bool) (s : State) : (flagF f v s).pins = s.pins := setF_pins _ _ s
@[simp] theorem flagF_ports (f : Fld) (v : Bool) (s : State) : (flagF f v s).ports = s.ports := setF_ports _ _ s
@[simp] theorem flagF_hqe (f : Fld) (v : Bool) (s : State) : (flagF f v s).hqe = s.hqe := setF_hqe _ _ s
@[simp] theorem flagF_fab (f : Fld) (v : Bool) (s : State) : (flagF f v s).fab = s.fab := setF_fab _ _ s
@[simp] theorem flagF_wb (f : Fld) (v : Bool) (s : State) : (flagF f v s).wb = s.wb := setF_wb _ _ s
@[simp] theorem flagF_fiu (f : Fld) (v : Bool) (s : State) : (flagF f v s).fiu = s.fiu := setF_fiu _ _ s
@[simp] theorem flagF_cmp (f : Fld) (v : Bool) (s : State) : (flagF f v s).cmp = s.cmp := setF_cmp _ _ s
@[simp] theorem flagF_cry (f : Fld) (v : Bool) (s : State) : (flagF f v s).cry = s.cry := setF_cry _ _ s
@[simp] theorem flagF_dge (f : Fld) (v : Bool) (s : State) : (flagF f v s).dge = s.dge := setF_dge _ _ s
@[simp] theorem flagF_sec (f : Fld) (v : Bool) (s : State) : (flagF f v s).sec = s.sec := setF_sec _ _ s
@[simp] theorem flagF_ftu (f : Fld) (v : Bool) (s : State) : (flagF f v s).ftu = s.ftu := setF_ftu _ _ s
@[simp] theorem flagF_mca (f : Fld) (v : Bool) (s : State) : (flagF f v s).mca = s.mca := setF_mca _ _ s
@[simp] theorem flagF_par (f : Fld) (v : Bool) (s : State) : (flagF f v s).par = s.par := setF_par _ _ s
@[simp] theorem flagF_mods (f : Fld) (v : Bool) (s : State) : (flagF f v s).mods = s.mods := setF_mods _ _ s
@[simp] theorem flagF_eph (f : Fld) (v : Bool) (s : State) : (flagF f v s).eph = s.eph := setF_eph _ _ s
@[simp] theorem flagF_repl (f : Fld) (v : Bool) (s : State) : (flagF f v s).repl = s.repl := setF_repl _ _ s
@[simp] theorem flagF_pair (f : Fld) (v : Bool) (s : State) : (flagF f v s).pair = s.pair := setF_pair _ _ s
@[simp] theorem flagF_bld (f : Fld) (v : Bool) (s : State) : (flagF f v s).bld = s.bld := setF_bld _ _ s
@[simp] theorem flagF_out (f : Fld) (v : Bool) (s : State) : (flagF f v s).out = s.out := setF_out _ _ s
@[simp] theorem flagF_free (f : Fld) (v : Bool) (s : State) : (flagF f v s).free = s.free := setF_free _ _ s
@[simp] theorem flagF_pending (f : Fld) (v : Bool) (s : State) : (flagF f v s).pending = s.pending := setF_pending _ _ s

@[simp] theorem incSatF_now (f : Fld) (n : Nat) (s : State) : (incSatF f n s).now = s.now := setF_now _ _ s
@[simp] theorem incSatF_txn (f : Fld) (n : Nat) (s : State) : (incSatF f n s).txn = s.txn := setF_txn _ _ s
@[simp] theorem incSatF_mgmt (f : Fld) (n : Nat) (s : State) : (incSatF f n s).mgmt = s.mgmt := setF_mgmt _ _ s
@[simp] theorem incSatF_fco (f : Fld) (n : Nat) (s : State) : (incSatF f n s).fco = s.fco := setF_fco _ _ s
@[simp] theorem incSatF_evr (f : Fld) (n : Nat) (s : State) : (incSatF f n s).evr = s.evr := setF_evr _ _ s
@[simp] theorem incSatF_pwc (f : Fld) (n : Nat) (s : State) : (incSatF f n s).pwc = s.pwc := setF_pwc _ _ s
@[simp] theorem incSatF_pins (f : Fld) (n : Nat) (s : State) : (incSatF f n s).pins = s.pins := setF_pins _ _ s
@[simp] theorem incSatF_ports (f : Fld) (n : Nat) (s : State) : (incSatF f n s).ports = s.ports := setF_ports _ _ s
@[simp] theorem incSatF_hqe (f : Fld) (n : Nat) (s : State) : (incSatF f n s).hqe = s.hqe := setF_hqe _ _ s
@[simp] theorem incSatF_fab (f : Fld) (n : Nat) (s : State) : (incSatF f n s).fab = s.fab := setF_fab _ _ s
@[simp] theorem incSatF_wb (f : Fld) (n : Nat) (s : State) : (incSatF f n s).wb = s.wb := setF_wb _ _ s
@[simp] theorem incSatF_fiu (f : Fld) (n : Nat) (s : State) : (incSatF f n s).fiu = s.fiu := setF_fiu _ _ s
@[simp] theorem incSatF_cmp (f : Fld) (n : Nat) (s : State) : (incSatF f n s).cmp = s.cmp := setF_cmp _ _ s
@[simp] theorem incSatF_cry (f : Fld) (n : Nat) (s : State) : (incSatF f n s).cry = s.cry := setF_cry _ _ s
@[simp] theorem incSatF_dge (f : Fld) (n : Nat) (s : State) : (incSatF f n s).dge = s.dge := setF_dge _ _ s
@[simp] theorem incSatF_sec (f : Fld) (n : Nat) (s : State) : (incSatF f n s).sec = s.sec := setF_sec _ _ s
@[simp] theorem incSatF_ftu (f : Fld) (n : Nat) (s : State) : (incSatF f n s).ftu = s.ftu := setF_ftu _ _ s
@[simp] theorem incSatF_mca (f : Fld) (n : Nat) (s : State) : (incSatF f n s).mca = s.mca := setF_mca _ _ s
@[simp] theorem incSatF_par (f : Fld) (n : Nat) (s : State) : (incSatF f n s).par = s.par := setF_par _ _ s
@[simp] theorem incSatF_mods (f : Fld) (n : Nat) (s : State) : (incSatF f n s).mods = s.mods := setF_mods _ _ s
@[simp] theorem incSatF_eph (f : Fld) (n : Nat) (s : State) : (incSatF f n s).eph = s.eph := setF_eph _ _ s
@[simp] theorem incSatF_repl (f : Fld) (n : Nat) (s : State) : (incSatF f n s).repl = s.repl := setF_repl _ _ s
@[simp] theorem incSatF_pair (f : Fld) (n : Nat) (s : State) : (incSatF f n s).pair = s.pair := setF_pair _ _ s
@[simp] theorem incSatF_bld (f : Fld) (n : Nat) (s : State) : (incSatF f n s).bld = s.bld := setF_bld _ _ s
@[simp] theorem incSatF_out (f : Fld) (n : Nat) (s : State) : (incSatF f n s).out = s.out := setF_out _ _ s
@[simp] theorem incSatF_free (f : Fld) (n : Nat) (s : State) : (incSatF f n s).free = s.free := setF_free _ _ s
@[simp] theorem incSatF_pending (f : Fld) (n : Nat) (s : State) : (incSatF f n s).pending = s.pending := setF_pending _ _ s

@[simp] theorem incF_now (f : Fld) (s : State) : (incF f s).now = s.now := setF_now _ _ s
@[simp] theorem incF_txn (f : Fld) (s : State) : (incF f s).txn = s.txn := setF_txn _ _ s
@[simp] theorem incF_mgmt (f : Fld) (s : State) : (incF f s).mgmt = s.mgmt := setF_mgmt _ _ s
@[simp] theorem incF_fco (f : Fld) (s : State) : (incF f s).fco = s.fco := setF_fco _ _ s
@[simp] theorem incF_evr (f : Fld) (s : State) : (incF f s).evr = s.evr := setF_evr _ _ s
@[simp] theorem incF_pwc (f : Fld) (s : State) : (incF f s).pwc = s.pwc := setF_pwc _ _ s
@[simp] theorem incF_pins (f : Fld) (s : State) : (incF f s).pins = s.pins := setF_pins _ _ s
@[simp] theorem incF_ports (f : Fld) (s : State) : (incF f s).ports = s.ports := setF_ports _ _ s
@[simp] theorem incF_hqe (f : Fld) (s : State) : (incF f s).hqe = s.hqe := setF_hqe _ _ s
@[simp] theorem incF_fab (f : Fld) (s : State) : (incF f s).fab = s.fab := setF_fab _ _ s
@[simp] theorem incF_wb (f : Fld) (s : State) : (incF f s).wb = s.wb := setF_wb _ _ s
@[simp] theorem incF_fiu (f : Fld) (s : State) : (incF f s).fiu = s.fiu := setF_fiu _ _ s
@[simp] theorem incF_cmp (f : Fld) (s : State) : (incF f s).cmp = s.cmp := setF_cmp _ _ s
@[simp] theorem incF_cry (f : Fld) (s : State) : (incF f s).cry = s.cry := setF_cry _ _ s
@[simp] theorem incF_dge (f : Fld) (s : State) : (incF f s).dge = s.dge := setF_dge _ _ s
@[simp] theorem incF_sec (f : Fld) (s : State) : (incF f s).sec = s.sec := setF_sec _ _ s
@[simp] theorem incF_ftu (f : Fld) (s : State) : (incF f s).ftu = s.ftu := setF_ftu _ _ s
@[simp] theorem incF_mca (f : Fld) (s : State) : (incF f s).mca = s.mca := setF_mca _ _ s
@[simp] theorem incF_par (f : Fld) (s : State) : (incF f s).par = s.par := setF_par _ _ s
@[simp] theorem incF_mods (f : Fld) (s : State) : (incF f s).mods = s.mods := setF_mods _ _ s
@[simp] theorem incF_eph (f : Fld) (s : State) : (incF f s).eph = s.eph := setF_eph _ _ s
@[simp] theorem incF_repl (f : Fld) (s : State) : (incF f s).repl = s.repl := setF_repl _ _ s
@[simp] theorem incF_pair (f : Fld) (s : State) : (incF f s).pair = s.pair := setF_pair _ _ s
@[simp] theorem incF_bld (f : Fld) (s : State) : (incF f s).bld = s.bld := setF_bld _ _ s
@[simp] theorem incF_out (f : Fld) (s : State) : (incF f s).out = s.out := setF_out _ _ s
@[simp] theorem incF_free (f : Fld) (s : State) : (incF f s).free = s.free := setF_free _ _ s
@[simp] theorem incF_pending (f : Fld) (s : State) : (incF f s).pending = s.pending := setF_pending _ _ s

/-! forEach: what every turn leaves, the whole leaves. -/

theorem forEach_keep {α β : Type} (p : State → β) (l : List α) (f : α → State → State) (s : State)
    (h : ∀ a t, p (f a t) = p t) : p (forEach l f s) = p s := by
  unfold forEach
  induction l generalizing s with
  | nil => rfl
  | cons a l ih => rw [List.foldl_cons, ih, h]

theorem forEach_now {α : Type} (l : List α) (f : α → State → State) (s : State) (h : ∀ a t, (f a t).now = t.now) :
    (forEach l f s).now = s.now := forEach_keep (·.now) l f s h
theorem forEach_regs {α : Type} (l : List α) (f : α → State → State) (s : State) (h : ∀ a t, (f a t).regs = t.regs) :
    (forEach l f s).regs = s.regs := forEach_keep (·.regs) l f s h
theorem forEach_txn {α : Type} (l : List α) (f : α → State → State) (s : State) (h : ∀ a t, (f a t).txn = t.txn) :
    (forEach l f s).txn = s.txn := forEach_keep (·.txn) l f s h
theorem forEach_mgmt {α : Type} (l : List α) (f : α → State → State) (s : State) (h : ∀ a t, (f a t).mgmt = t.mgmt) :
    (forEach l f s).mgmt = s.mgmt := forEach_keep (·.mgmt) l f s h
theorem forEach_fco {α : Type} (l : List α) (f : α → State → State) (s : State) (h : ∀ a t, (f a t).fco = t.fco) :
    (forEach l f s).fco = s.fco := forEach_keep (·.fco) l f s h
theorem forEach_evr {α : Type} (l : List α) (f : α → State → State) (s : State) (h : ∀ a t, (f a t).evr = t.evr) :
    (forEach l f s).evr = s.evr := forEach_keep (·.evr) l f s h
theorem forEach_pwc {α : Type} (l : List α) (f : α → State → State) (s : State) (h : ∀ a t, (f a t).pwc = t.pwc) :
    (forEach l f s).pwc = s.pwc := forEach_keep (·.pwc) l f s h
theorem forEach_pins {α : Type} (l : List α) (f : α → State → State) (s : State) (h : ∀ a t, (f a t).pins = t.pins) :
    (forEach l f s).pins = s.pins := forEach_keep (·.pins) l f s h
theorem forEach_ports {α : Type} (l : List α) (f : α → State → State) (s : State) (h : ∀ a t, (f a t).ports = t.ports) :
    (forEach l f s).ports = s.ports := forEach_keep (·.ports) l f s h
theorem forEach_hqe {α : Type} (l : List α) (f : α → State → State) (s : State) (h : ∀ a t, (f a t).hqe = t.hqe) :
    (forEach l f s).hqe = s.hqe := forEach_keep (·.hqe) l f s h
theorem forEach_fab {α : Type} (l : List α) (f : α → State → State) (s : State) (h : ∀ a t, (f a t).fab = t.fab) :
    (forEach l f s).fab = s.fab := forEach_keep (·.fab) l f s h
theorem forEach_wb {α : Type} (l : List α) (f : α → State → State) (s : State) (h : ∀ a t, (f a t).wb = t.wb) :
    (forEach l f s).wb = s.wb := forEach_keep (·.wb) l f s h
theorem forEach_fiu {α : Type} (l : List α) (f : α → State → State) (s : State) (h : ∀ a t, (f a t).fiu = t.fiu) :
    (forEach l f s).fiu = s.fiu := forEach_keep (·.fiu) l f s h
theorem forEach_cmp {α : Type} (l : List α) (f : α → State → State) (s : State) (h : ∀ a t, (f a t).cmp = t.cmp) :
    (forEach l f s).cmp = s.cmp := forEach_keep (·.cmp) l f s h
theorem forEach_cry {α : Type} (l : List α) (f : α → State → State) (s : State) (h : ∀ a t, (f a t).cry = t.cry) :
    (forEach l f s).cry = s.cry := forEach_keep (·.cry) l f s h
theorem forEach_dge {α : Type} (l : List α) (f : α → State → State) (s : State) (h : ∀ a t, (f a t).dge = t.dge) :
    (forEach l f s).dge = s.dge := forEach_keep (·.dge) l f s h
theorem forEach_sec {α : Type} (l : List α) (f : α → State → State) (s : State) (h : ∀ a t, (f a t).sec = t.sec) :
    (forEach l f s).sec = s.sec := forEach_keep (·.sec) l f s h
theorem forEach_ftu {α : Type} (l : List α) (f : α → State → State) (s : State) (h : ∀ a t, (f a t).ftu = t.ftu) :
    (forEach l f s).ftu = s.ftu := forEach_keep (·.ftu) l f s h
theorem forEach_mca {α : Type} (l : List α) (f : α → State → State) (s : State) (h : ∀ a t, (f a t).mca = t.mca) :
    (forEach l f s).mca = s.mca := forEach_keep (·.mca) l f s h
theorem forEach_par {α : Type} (l : List α) (f : α → State → State) (s : State) (h : ∀ a t, (f a t).par = t.par) :
    (forEach l f s).par = s.par := forEach_keep (·.par) l f s h
theorem forEach_mods {α : Type} (l : List α) (f : α → State → State) (s : State) (h : ∀ a t, (f a t).mods = t.mods) :
    (forEach l f s).mods = s.mods := forEach_keep (·.mods) l f s h
theorem forEach_eph {α : Type} (l : List α) (f : α → State → State) (s : State) (h : ∀ a t, (f a t).eph = t.eph) :
    (forEach l f s).eph = s.eph := forEach_keep (·.eph) l f s h
theorem forEach_repl {α : Type} (l : List α) (f : α → State → State) (s : State) (h : ∀ a t, (f a t).repl = t.repl) :
    (forEach l f s).repl = s.repl := forEach_keep (·.repl) l f s h
theorem forEach_pair {α : Type} (l : List α) (f : α → State → State) (s : State) (h : ∀ a t, (f a t).pair = t.pair) :
    (forEach l f s).pair = s.pair := forEach_keep (·.pair) l f s h
theorem forEach_bld {α : Type} (l : List α) (f : α → State → State) (s : State) (h : ∀ a t, (f a t).bld = t.bld) :
    (forEach l f s).bld = s.bld := forEach_keep (·.bld) l f s h
theorem forEach_out {α : Type} (l : List α) (f : α → State → State) (s : State) (h : ∀ a t, (f a t).out = t.out) :
    (forEach l f s).out = s.out := forEach_keep (·.out) l f s h
theorem forEach_free {α : Type} (l : List α) (f : α → State → State) (s : State) (h : ∀ a t, (f a t).free = t.free) :
    (forEach l f s).free = s.free := forEach_keep (·.free) l f s h
theorem forEach_pending {α : Type} (l : List α) (f : α → State → State) (s : State) (h : ∀ a t, (f a t).pending = t.pending) :
    (forEach l f s).pending = s.pending := forEach_keep (·.pending) l f s h

end Sys2Proof.Machine
end

