-- ==== Sys2Proof/Laws/Table.lean ====
section
/-! SUPPORT. Laws of tables and register fields: a read after a write gives the value written, a write leaves every
other entry alone, and writes keep the keys of a table strictly rising. -/

namespace Sys2Proof.Machine

variable {α : Type}

/-! Tables. -/

theorem tget?_tset_self (t : Tbl α) (k : Nat) (v : α) : tget? (tset t k v) k = some v := by
  induction t with
  | nil => simp [tset, tget?]
  | cons p r ih =>
    obtain ⟨k', v'⟩ := p
    simp only [tset]
    split
    · simp [tget?]
    · split
      · simp [tget?]
      · rename_i h1 h2
        simp only [tget?]
        rw [if_neg (fun h => h2 h.symm), ih]

theorem tget?_tset_ne (t : Tbl α) {j k : Nat} (v : α) (h : j ≠ k) : tget? (tset t k v) j = tget? t j := by
  induction t with
  | nil => simp [tset, tget?, Ne.symm h]
  | cons p r ih =>
    obtain ⟨k', v'⟩ := p
    simp only [tset]
    split
    · rw [tget?, if_neg (Ne.symm h)]
    · split
      · rename_i h1 h2
        subst h2
        simp [tget?, Ne.symm h]
      · simp only [tget?, ih]

@[simp] theorem terase_nil (k : Nat) : terase ([] : Tbl α) k = [] := rfl

theorem terase_cons (p : Nat × α) (r : Tbl α) (k : Nat) :
    terase (p :: r) k = if p.1 = k then terase r k else p :: terase r k := by
  unfold terase
  by_cases h : p.1 = k <;> simp [h]

theorem tget?_terase_self (t : Tbl α) (k : Nat) : tget? (terase t k) k = none := by
  induction t with
  | nil => rfl
  | cons p r ih =>
    rw [terase_cons]
    split
    · exact ih
    · rename_i h
      obtain ⟨k', v'⟩ := p
      rw [tget?, if_neg h, ih]

theorem tget?_terase_ne (t : Tbl α) {j k : Nat} (h : j ≠ k) : tget? (terase t k) j = tget? t j := by
  induction t with
  | nil => rfl
  | cons p r ih =>
    obtain ⟨k', v'⟩ := p
    rw [terase_cons]
    split
    · rename_i hk
      simp only at hk
      subst hk
      rw [ih, tget?, if_neg (Ne.symm h)]
    · rw [tget?, tget?, ih]

theorem tget_tset_self (t : Tbl α) (k : Nat) (v d : α) : tget (tset t k v) k d = v := by
  unfold tget; rw [tget?_tset_self]; rfl

theorem tget_tput_self [DecidableEq α] (t : Tbl α) (k : Nat) (v d : α) : tget (tput t k v d) k d = v := by
  unfold tput tget
  split
  · rename_i h; rw [tget?_terase_self, h]; rfl
  · rw [tget?_tset_self]; rfl

theorem tget_tput_ne [DecidableEq α] (t : Tbl α) {j k : Nat} (v d e : α) (h : j ≠ k) : tget (tput t k v d) j e = tget t j e := by
  unfold tput tget
  split
  · rw [tget?_terase_ne t h]
  · rw [tget?_tset_ne t v h]

/-- Every key of `t` is above `k`. -/
def tabove (k : Nat) (t : Tbl α) : Bool := t.all fun p => decide (k < p.1)

theorem tsorted_cons (p : Nat × α) (r : Tbl α) : tsorted (p :: r) = (tabove p.1 r && tsorted r) := by
  induction r generalizing p with
  | nil => simp [tsorted, tabove]
  | cons q r ih =>
    obtain ⟨k, v⟩ := p
    obtain ⟨k', v'⟩ := q
    rw [tsorted, ih]
    simp only [tabove, List.all_cons]
    by_cases h : k < k'
    · simp only [h, decide_true, Bool.true_and]
      cases hr : r.all fun p => decide (k' < p.1)
      · simp
      · have : (r.all fun p => decide (k < p.1)) = true := by
          rw [List.all_eq_true] at hr ⊢
          intro x hx
          have := hr x hx
          simp only [decide_eq_true_eq] at this ⊢
          omega
        simp [this]
    · simp [h]

theorem tabove_tset (t : Tbl α) {k j : Nat} (v : α) (h : tabove k t) (hk : k < j) : tabove k (tset t j v) := by
  induction t with
  | nil => simp [tset, tabove, hk]
  | cons p r ih =>
    obtain ⟨k', v'⟩ := p
    simp only [tabove, List.all_cons, Bool.and_eq_true, decide_eq_true_eq] at h
    simp only [tset]
    split
    · simp only [tabove, List.all_cons, Bool.and_eq_true, decide_eq_true_eq]
      exact ⟨hk, h.1, h.2⟩
    · split
      · simp only [tabove, List.all_cons, Bool.and_eq_true, decide_eq_true_eq]
        exact ⟨hk, h.2⟩
      · simp only [tabove, List.all_cons, Bool.and_eq_true, decide_eq_true_eq]
        exact ⟨h.1, ih h.2⟩

/-- A put keeps the keys strictly rising. -/
theorem tsorted_tset (t : Tbl α) (k : Nat) (v : α) (h : tsorted t) : tsorted (tset t k v) := by
  induction t with
  | nil => rfl
  | cons p r ih =>
    obtain ⟨k', v'⟩ := p
    rw [tsorted_cons, Bool.and_eq_true] at h
    simp only [tset]
    split
    · rename_i hlt
      rw [tsorted_cons, tsorted_cons, Bool.and_eq_true, Bool.and_eq_true]
      refine ⟨?_, h⟩
      have h1 := h.1
      simp only [tabove, List.all_cons, Bool.and_eq_true, decide_eq_true_eq, List.all_eq_true] at h1 ⊢
      exact ⟨hlt, fun x hx => by have := h1 x hx; omega⟩
    · split
      · rename_i he
        subst he
        rw [tsorted_cons, Bool.and_eq_true]
        exact h
      · rw [tsorted_cons, Bool.and_eq_true]
        exact ⟨tabove_tset r v h.1 (by simp only; omega), ih h.2⟩

/-- Dropping entries keeps the keys strictly rising. -/
theorem tsorted_filter (t : Tbl α) (p : Nat × α → Bool) (h : tsorted t) : tsorted (t.filter p) := by
  induction t with
  | nil => rfl
  | cons q r ih =>
    rw [tsorted_cons, Bool.and_eq_true] at h
    rw [List.filter_cons]
    split
    · rw [tsorted_cons, Bool.and_eq_true]
      refine ⟨?_, ih h.2⟩
      have h1 := h.1
      simp only [tabove, List.all_eq_true] at h1 ⊢
      exact fun x hx => h1 x (List.mem_filter.mp hx).1
    · exact ih h.2

theorem tsorted_terase (t : Tbl α) (k : Nat) (h : tsorted t) : tsorted (terase t k) := tsorted_filter t _ h

theorem tsorted_tput [DecidableEq α] (t : Tbl α) (k : Nat) (v d : α) (h : tsorted t) : tsorted (tput t k v d) := by
  unfold tput
  split
  · exact tsorted_terase t k h
  · exact tsorted_tset t k v h

theorem tget?_filter (t : Tbl α) (q : Nat → Bool) (k : Nat) :
    tget? (t.filter fun p => q p.1) k = if q k then tget? t k else none := by
  induction t with
  | nil => simp [tget?]
  | cons p r ih =>
    obtain ⟨k', v'⟩ := p
    rw [List.filter_cons]
    by_cases hk : k' = k
    · subst hk
      by_cases hq : q k' <;> simp [hq, tget?, ih]
    · by_cases hq : q k' <;> simp [hq, tget?, ih, hk]

theorem tget?_tslice (t : Tbl α) (lo hi k : Nat) : tget? (tslice t lo hi) k = if lo ≤ k ∧ k < hi then tget? t k else none := by
  have := tget?_filter t (fun j => decide (lo ≤ j ∧ j < hi)) k
  simp only [decide_eq_true_eq] at this
  exact this

theorem tget?_tcut (t : Tbl α) (lo hi k : Nat) : tget? (tcut t lo hi) k = if lo ≤ k ∧ k < hi then none else tget? t k := by
  have := tget?_filter t (fun j => !decide (lo ≤ j ∧ j < hi)) k
  by_cases h : lo ≤ k ∧ k < hi <;> simp [h] at this <;> simpa [tcut, h] using this

theorem tget?_tmerge (t u : Tbl α) (k : Nat) : tget? (tmerge t u) k = (tget? u k).or (tget? t k) := by
  unfold tmerge
  induction u with
  | nil => simp [tget?]
  | cons p r ih =>
    obtain ⟨k', v'⟩ := p
    rw [List.foldr_cons]
    by_cases hk : k' = k
    · subst hk; rw [tget?_tset_self]; simp [tget?]
    · rw [tget?_tset_ne _ _ (Ne.symm hk), ih]; simp [tget?, hk]

/-- A replaced stretch reads as the new table, everything else as before. -/
theorem tget?_treplace (t u : Tbl α) (lo hi k : Nat) :
    tget? (treplace t lo hi u) k = if lo ≤ k ∧ k < hi then tget? u k else tget? t k := by
  unfold treplace
  rw [tget?_tmerge, tget?_tslice, tget?_tcut]
  by_cases h : lo ≤ k ∧ k < hi <;> simp [h]

/-! Register fields (R9, R64). -/

/-- A read of a field takes nothing but the register file. -/
theorem getF_of_regs {f : Fld} {s t : State} (h : t.regs = s.regs) : getF f t = getF f s := by
  unfold getF; rw [h]

/-- An unshadowed field reads as written, cut to its width. -/
theorem getF_setF_self {f : Fld} (v : Nat) (s : State) (h : f.sh = false) : getF f (setF f v s) = ftrunc f v := by
  simp [getF, setF, h, tget_tput_self]

/-- A write of a field leaves every other field alone. -/
theorem getF_setF_ne {f g : Fld} (v : Nat) (s : State) (h : fkey g ≠ fkey f) : getF g (setF f v s) = getF g s := by
  unfold getF setF
  split <;> split <;> simp_all [tget_tput_ne]

/-- A write of a shadowed field changes no value that a block uses (R64). -/
theorem getF_setF_shadowed {f g : Fld} (v : Nat) (s : State) (h : f.sh = true) (hg : g.sh = true) :
    getF g (setF f v s) = getF g s := by
  simp [getF, setF, h, hg]

theorem getF_flagF_self {f : Fld} (v : Bool) (s : State) (h : f.sh = false) : getF f (flagF f v s) = ftrunc f (b2n v) :=
  getF_setF_self _ s h

theorem getF_flagF_ne {f g : Fld} (v : Bool) (s : State) (h : fkey g ≠ fkey f) : getF g (flagF f v s) = getF g s :=
  getF_setF_ne _ s h

@[simp] theorem getF_emit (f : Fld) (o : Out) (s : State) : getF f (emit o s) = getF f s := rfl

end Sys2Proof.Machine
end

