-- ==== Sys2Proof/Laws/Ops.lean ====
section
/-! SUPPORT. What each shared operation can change: one lemma an operation, naming every part of the state it leaves. -/

namespace Sys2Proof.Machine

@[simp] theorem count_frame (b : Block) (code n : Nat) (s : State) :
    (count b code n s).now = s.now ∧ (count b code n s).txn = s.txn ∧ (count b code n s).mgmt = s.mgmt ∧
    (count b code n s).fco = s.fco ∧ (count b code n s).evr = s.evr ∧ (count b code n s).pwc = s.pwc ∧
    (count b code n s).pins = s.pins ∧ (count b code n s).ports = s.ports ∧ (count b code n s).hqe = s.hqe ∧
    (count b code n s).fab = s.fab ∧ (count b code n s).wb = s.wb ∧ (count b code n s).fiu = s.fiu ∧
    (count b code n s).cmp = s.cmp ∧ (count b code n s).cry = s.cry ∧ (count b code n s).dge = s.dge ∧
    (count b code n s).sec = s.sec ∧ (count b code n s).ftu = s.ftu ∧ (count b code n s).mca = s.mca ∧
    (count b code n s).par = s.par ∧ (count b code n s).mods = s.mods ∧ (count b code n s).eph = s.eph ∧
    (count b code n s).repl = s.repl ∧ (count b code n s).pair = s.pair ∧ (count b code n s).bld = s.bld ∧
    (count b code n s).out = s.out ∧ (count b code n s).free = s.free ∧ (count b code n s).pending = s.pending := by
  unfold count
  refine ⟨?_, ?_, ?_, ?_, ?_, ?_, ?_, ?_, ?_, ?_, ?_, ?_, ?_, ?_, ?_, ?_, ?_, ?_, ?_, ?_, ?_, ?_, ?_, ?_, ?_, ?_, ?_⟩ <;> ((try dsimp only); (repeat' split) <;> simp)

/-- An interrupt or error word changes nothing but the register file and, through its window vector, the output log. -/
@[simp] theorem withWin_frame (w : Nat) (f : Fld) (v : State → Nat) (s : State) :
    (withWin w (fun t => setF f (v t) t) s).now = s.now ∧ (withWin w (fun t => setF f (v t) t) s).txn = s.txn ∧
    (withWin w (fun t => setF f (v t) t) s).mgmt = s.mgmt ∧ (withWin w (fun t => setF f (v t) t) s).fco = s.fco ∧
    (withWin w (fun t => setF f (v t) t) s).evr = s.evr ∧ (withWin w (fun t => setF f (v t) t) s).pwc = s.pwc ∧
    (withWin w (fun t => setF f (v t) t) s).pins = s.pins ∧ (withWin w (fun t => setF f (v t) t) s).ports = s.ports ∧
    (withWin w (fun t => setF f (v t) t) s).hqe = s.hqe ∧ (withWin w (fun t => setF f (v t) t) s).fab = s.fab ∧
    (withWin w (fun t => setF f (v t) t) s).wb = s.wb ∧ (withWin w (fun t => setF f (v t) t) s).fiu = s.fiu ∧
    (withWin w (fun t => setF f (v t) t) s).cmp = s.cmp ∧ (withWin w (fun t => setF f (v t) t) s).cry = s.cry ∧
    (withWin w (fun t => setF f (v t) t) s).dge = s.dge ∧ (withWin w (fun t => setF f (v t) t) s).sec = s.sec ∧
    (withWin w (fun t => setF f (v t) t) s).ftu = s.ftu ∧ (withWin w (fun t => setF f (v t) t) s).mca = s.mca ∧
    (withWin w (fun t => setF f (v t) t) s).par = s.par ∧ (withWin w (fun t => setF f (v t) t) s).mods = s.mods ∧
    (withWin w (fun t => setF f (v t) t) s).eph = s.eph ∧ (withWin w (fun t => setF f (v t) t) s).repl = s.repl ∧
    (withWin w (fun t => setF f (v t) t) s).pair = s.pair ∧ (withWin w (fun t => setF f (v t) t) s).bld = s.bld ∧
    (withWin w (fun t => setF f (v t) t) s).free = s.free ∧ (withWin w (fun t => setF f (v t) t) s).pending = s.pending := by
  unfold withWin
  refine ⟨?_, ?_, ?_, ?_, ?_, ?_, ?_, ?_, ?_, ?_, ?_, ?_, ?_, ?_, ?_, ?_, ?_, ?_, ?_, ?_, ?_, ?_, ?_, ?_, ?_, ?_⟩ <;> ((try dsimp only); (repeat' split) <;> simp)

@[simp] theorem setInt_frame (b : Block) (n : Nat) (s : State) :
    (setInt b n s).now = s.now ∧ (setInt b n s).txn = s.txn ∧ (setInt b n s).mgmt = s.mgmt ∧ (setInt b n s).fco = s.fco ∧
    (setInt b n s).evr = s.evr ∧ (setInt b n s).pwc = s.pwc ∧ (setInt b n s).pins = s.pins ∧
    (setInt b n s).ports = s.ports ∧ (setInt b n s).hqe = s.hqe ∧ (setInt b n s).fab = s.fab ∧ (setInt b n s).wb = s.wb ∧
    (setInt b n s).fiu = s.fiu ∧ (setInt b n s).cmp = s.cmp ∧ (setInt b n s).cry = s.cry ∧ (setInt b n s).dge = s.dge ∧
    (setInt b n s).sec = s.sec ∧ (setInt b n s).ftu = s.ftu ∧ (setInt b n s).mca = s.mca ∧ (setInt b n s).par = s.par ∧
    (setInt b n s).mods = s.mods ∧ (setInt b n s).eph = s.eph ∧ (setInt b n s).repl = s.repl ∧
    (setInt b n s).pair = s.pair ∧ (setInt b n s).bld = s.bld ∧ (setInt b n s).free = s.free ∧
    (setInt b n s).pending = s.pending := by
  unfold setInt; simp

@[simp] theorem setErr_frame (b : Block) (n : Nat) (s : State) :
    (setErr b n s).now = s.now ∧ (setErr b n s).txn = s.txn ∧ (setErr b n s).mgmt = s.mgmt ∧ (setErr b n s).fco = s.fco ∧
    (setErr b n s).evr = s.evr ∧ (setErr b n s).pwc = s.pwc ∧ (setErr b n s).pins = s.pins ∧
    (setErr b n s).ports = s.ports ∧ (setErr b n s).hqe = s.hqe ∧ (setErr b n s).fab = s.fab ∧ (setErr b n s).wb = s.wb ∧
    (setErr b n s).fiu = s.fiu ∧ (setErr b n s).cmp = s.cmp ∧ (setErr b n s).cry = s.cry ∧ (setErr b n s).dge = s.dge ∧
    (setErr b n s).sec = s.sec ∧ (setErr b n s).ftu = s.ftu ∧ (setErr b n s).mca = s.mca ∧ (setErr b n s).par = s.par ∧
    (setErr b n s).mods = s.mods ∧ (setErr b n s).eph = s.eph ∧ (setErr b n s).repl = s.repl ∧
    (setErr b n s).pair = s.pair ∧ (setErr b n s).bld = s.bld ∧ (setErr b n s).free = s.free ∧
    (setErr b n s).pending = s.pending := by
  unfold setErr; simp

@[simp] theorem latch_frame (n : Nat) (s : State) :
    (latch n s).now = s.now ∧ (latch n s).txn = s.txn ∧ (latch n s).mgmt = s.mgmt ∧ (latch n s).fco = s.fco ∧
    (latch n s).evr = s.evr ∧ (latch n s).pwc = s.pwc ∧ (latch n s).pins = s.pins ∧ (latch n s).ports = s.ports ∧
    (latch n s).hqe = s.hqe ∧ (latch n s).fab = s.fab ∧ (latch n s).wb = s.wb ∧ (latch n s).fiu = s.fiu ∧
    (latch n s).cmp = s.cmp ∧ (latch n s).cry = s.cry ∧ (latch n s).dge = s.dge ∧ (latch n s).sec = s.sec ∧
    (latch n s).ftu = s.ftu ∧ (latch n s).mca = s.mca ∧ (latch n s).par = s.par ∧ (latch n s).mods = s.mods ∧
    (latch n s).eph = s.eph ∧ (latch n s).repl = s.repl ∧ (latch n s).pair = s.pair ∧ (latch n s).bld = s.bld ∧
    (latch n s).out = s.out ∧ (latch n s).free = s.free ∧ (latch n s).pending = s.pending := by
  unfold latch
  refine ⟨?_, ?_, ?_, ?_, ?_, ?_, ?_, ?_, ?_, ?_, ?_, ?_, ?_, ?_, ?_, ?_, ?_, ?_, ?_, ?_, ?_, ?_, ?_, ?_, ?_, ?_, ?_⟩ <;> ((try dsimp only); (repeat' split) <;> simp)

@[simp] theorem pulse_frame (n c : Nat) (s : State) :
    (pulse n c s).now = s.now ∧ (pulse n c s).txn = s.txn ∧ (pulse n c s).mgmt = s.mgmt ∧ (pulse n c s).fco = s.fco ∧
    (pulse n c s).evr = s.evr ∧ (pulse n c s).pwc = s.pwc ∧ (pulse n c s).pins = s.pins ∧ (pulse n c s).ports = s.ports ∧
    (pulse n c s).hqe = s.hqe ∧ (pulse n c s).fab = s.fab ∧ (pulse n c s).wb = s.wb ∧ (pulse n c s).fiu = s.fiu ∧
    (pulse n c s).cmp = s.cmp ∧ (pulse n c s).cry = s.cry ∧ (pulse n c s).dge = s.dge ∧ (pulse n c s).sec = s.sec ∧
    (pulse n c s).ftu = s.ftu ∧ (pulse n c s).mca = s.mca ∧ (pulse n c s).par = s.par ∧ (pulse n c s).mods = s.mods ∧
    (pulse n c s).eph = s.eph ∧ (pulse n c s).repl = s.repl ∧ (pulse n c s).pair = s.pair ∧ (pulse n c s).bld = s.bld ∧
    (pulse n c s).out = s.out ∧ (pulse n c s).free = s.free ∧ (pulse n c s).pending = s.pending := by
  unfold pulse
  refine ⟨?_, ?_, ?_, ?_, ?_, ?_, ?_, ?_, ?_, ?_, ?_, ?_, ?_, ?_, ?_, ?_, ?_, ?_, ?_, ?_, ?_, ?_, ?_, ?_, ?_, ?_, ?_⟩ <;> ((try dsimp only); (repeat' split) <;> simp)

@[simp] theorem evrAppend_frame (r : Rec) (s : State) :
    (evrAppend r s).now = s.now ∧ (evrAppend r s).txn = s.txn ∧ (evrAppend r s).mgmt = s.mgmt ∧
    (evrAppend r s).fco = s.fco ∧ (evrAppend r s).pwc = s.pwc ∧ (evrAppend r s).pins = s.pins ∧
    (evrAppend r s).ports = s.ports ∧ (evrAppend r s).hqe = s.hqe ∧ (evrAppend r s).fab = s.fab ∧
    (evrAppend r s).wb = s.wb ∧ (evrAppend r s).fiu = s.fiu ∧ (evrAppend r s).cmp = s.cmp ∧ (evrAppend r s).cry = s.cry ∧
    (evrAppend r s).dge = s.dge ∧ (evrAppend r s).sec = s.sec ∧ (evrAppend r s).ftu = s.ftu ∧
    (evrAppend r s).mca = s.mca ∧ (evrAppend r s).par = s.par ∧ (evrAppend r s).mods = s.mods ∧
    (evrAppend r s).eph = s.eph ∧ (evrAppend r s).repl = s.repl ∧ (evrAppend r s).pair = s.pair ∧
    (evrAppend r s).bld = s.bld ∧ (evrAppend r s).free = s.free ∧ (evrAppend r s).pending = s.pending := by
  unfold evrAppend
  refine ⟨?_, ?_, ?_, ?_, ?_, ?_, ?_, ?_, ?_, ?_, ?_, ?_, ?_, ?_, ?_, ?_, ?_, ?_, ?_, ?_, ?_, ?_, ?_, ?_, ?_⟩ <;> ((try dsimp only); (repeat' split) <;> simp)

@[simp] theorem evrDrop_frame  (s : State) :
    (evrDrop s).now = s.now ∧ (evrDrop s).txn = s.txn ∧ (evrDrop s).mgmt = s.mgmt ∧ (evrDrop s).fco = s.fco ∧
    (evrDrop s).evr = s.evr ∧ (evrDrop s).pwc = s.pwc ∧ (evrDrop s).pins = s.pins ∧ (evrDrop s).ports = s.ports ∧
    (evrDrop s).hqe = s.hqe ∧ (evrDrop s).fab = s.fab ∧ (evrDrop s).wb = s.wb ∧ (evrDrop s).fiu = s.fiu ∧
    (evrDrop s).cmp = s.cmp ∧ (evrDrop s).cry = s.cry ∧ (evrDrop s).dge = s.dge ∧ (evrDrop s).sec = s.sec ∧
    (evrDrop s).ftu = s.ftu ∧ (evrDrop s).mca = s.mca ∧ (evrDrop s).par = s.par ∧ (evrDrop s).mods = s.mods ∧
    (evrDrop s).eph = s.eph ∧ (evrDrop s).repl = s.repl ∧ (evrDrop s).pair = s.pair ∧ (evrDrop s).bld = s.bld ∧
    (evrDrop s).out = s.out ∧ (evrDrop s).free = s.free ∧ (evrDrop s).pending = s.pending := by
  unfold evrDrop; simp

@[simp] theorem evrFull_frame (code : Nat) (s : State) :
    (evrFull code s).now = s.now ∧ (evrFull code s).txn = s.txn ∧ (evrFull code s).mgmt = s.mgmt ∧
    (evrFull code s).fco = s.fco ∧ (evrFull code s).pwc = s.pwc ∧ (evrFull code s).pins = s.pins ∧
    (evrFull code s).ports = s.ports ∧ (evrFull code s).hqe = s.hqe ∧ (evrFull code s).fab = s.fab ∧
    (evrFull code s).wb = s.wb ∧ (evrFull code s).fiu = s.fiu ∧ (evrFull code s).cmp = s.cmp ∧
    (evrFull code s).cry = s.cry ∧ (evrFull code s).dge = s.dge ∧ (evrFull code s).sec = s.sec ∧
    (evrFull code s).ftu = s.ftu ∧ (evrFull code s).mca = s.mca ∧ (evrFull code s).par = s.par ∧
    (evrFull code s).mods = s.mods ∧ (evrFull code s).eph = s.eph ∧ (evrFull code s).repl = s.repl ∧
    (evrFull code s).pair = s.pair ∧ (evrFull code s).bld = s.bld ∧ (evrFull code s).free = s.free ∧
    (evrFull code s).pending = s.pending := by
  unfold evrFull
  refine ⟨?_, ?_, ?_, ?_, ?_, ?_, ?_, ?_, ?_, ?_, ?_, ?_, ?_, ?_, ?_, ?_, ?_, ?_, ?_, ?_, ?_, ?_, ?_, ?_, ?_⟩ <;> ((try dsimp only); (repeat' split) <;> simp)

@[simp] theorem evrWrite_frame (r : Rec) (s : State) :
    (evrWrite r s).now = s.now ∧ (evrWrite r s).txn = s.txn ∧ (evrWrite r s).mgmt = s.mgmt ∧ (evrWrite r s).fco = s.fco ∧
    (evrWrite r s).pwc = s.pwc ∧ (evrWrite r s).pins = s.pins ∧ (evrWrite r s).ports = s.ports ∧
    (evrWrite r s).hqe = s.hqe ∧ (evrWrite r s).fab = s.fab ∧ (evrWrite r s).wb = s.wb ∧ (evrWrite r s).fiu = s.fiu ∧
    (evrWrite r s).cmp = s.cmp ∧ (evrWrite r s).cry = s.cry ∧ (evrWrite r s).dge = s.dge ∧ (evrWrite r s).sec = s.sec ∧
    (evrWrite r s).ftu = s.ftu ∧ (evrWrite r s).mca = s.mca ∧ (evrWrite r s).par = s.par ∧ (evrWrite r s).mods = s.mods ∧
    (evrWrite r s).eph = s.eph ∧ (evrWrite r s).repl = s.repl ∧ (evrWrite r s).pair = s.pair ∧
    (evrWrite r s).bld = s.bld ∧ (evrWrite r s).free = s.free ∧ (evrWrite r s).pending = s.pending := by
  unfold evrWrite
  refine ⟨?_, ?_, ?_, ?_, ?_, ?_, ?_, ?_, ?_, ?_, ?_, ?_, ?_, ?_, ?_, ?_, ?_, ?_, ?_, ?_, ?_, ?_, ?_, ?_, ?_⟩ <;> ((try dsimp only); (repeat' split) <;> simp)

@[simp] theorem evrTry_frame (r : Rec) (s : State) :
    ((fun t => (evrTry r t).2) s).now = s.now ∧ ((fun t => (evrTry r t).2) s).txn = s.txn ∧
    ((fun t => (evrTry r t).2) s).mgmt = s.mgmt ∧ ((fun t => (evrTry r t).2) s).fco = s.fco ∧
    ((fun t => (evrTry r t).2) s).pwc = s.pwc ∧ ((fun t => (evrTry r t).2) s).pins = s.pins ∧
    ((fun t => (evrTry r t).2) s).ports = s.ports ∧ ((fun t => (evrTry r t).2) s).hqe = s.hqe ∧
    ((fun t => (evrTry r t).2) s).fab = s.fab ∧ ((fun t => (evrTry r t).2) s).wb = s.wb ∧
    ((fun t => (evrTry r t).2) s).fiu = s.fiu ∧ ((fun t => (evrTry r t).2) s).cmp = s.cmp ∧
    ((fun t => (evrTry r t).2) s).cry = s.cry ∧ ((fun t => (evrTry r t).2) s).dge = s.dge ∧
    ((fun t => (evrTry r t).2) s).sec = s.sec ∧ ((fun t => (evrTry r t).2) s).ftu = s.ftu ∧
    ((fun t => (evrTry r t).2) s).mca = s.mca ∧ ((fun t => (evrTry r t).2) s).par = s.par ∧
    ((fun t => (evrTry r t).2) s).mods = s.mods ∧ ((fun t => (evrTry r t).2) s).eph = s.eph ∧
    ((fun t => (evrTry r t).2) s).repl = s.repl ∧ ((fun t => (evrTry r t).2) s).pair = s.pair ∧
    ((fun t => (evrTry r t).2) s).bld = s.bld ∧ ((fun t => (evrTry r t).2) s).free = s.free ∧
    ((fun t => (evrTry r t).2) s).pending = s.pending := by
  simp only [evrTry]; (repeat' split) <;> simp

@[simp] theorem evrLow_frame (r : Rec) (s : State) :
    (evrLow r s).now = s.now ∧ (evrLow r s).txn = s.txn ∧ (evrLow r s).mgmt = s.mgmt ∧ (evrLow r s).fco = s.fco ∧
    (evrLow r s).pwc = s.pwc ∧ (evrLow r s).pins = s.pins ∧ (evrLow r s).ports = s.ports ∧ (evrLow r s).hqe = s.hqe ∧
    (evrLow r s).fab = s.fab ∧ (evrLow r s).wb = s.wb ∧ (evrLow r s).fiu = s.fiu ∧ (evrLow r s).cmp = s.cmp ∧
    (evrLow r s).cry = s.cry ∧ (evrLow r s).dge = s.dge ∧ (evrLow r s).sec = s.sec ∧ (evrLow r s).ftu = s.ftu ∧
    (evrLow r s).mca = s.mca ∧ (evrLow r s).par = s.par ∧ (evrLow r s).mods = s.mods ∧ (evrLow r s).eph = s.eph ∧
    (evrLow r s).repl = s.repl ∧ (evrLow r s).pair = s.pair ∧ (evrLow r s).bld = s.bld ∧ (evrLow r s).free = s.free ∧
    (evrLow r s).pending = s.pending := by
  have h := evrTry_frame r s
  unfold evrLow
  split
  · simp
  · cases e : evrTry r s with
    | mk a t =>
      simp only [e] at h
      cases a
      · have h2 := fun x u => evrTry_frame x u
        simp only [] at h2
        simp only []
        split <;> simp [h2, h]
      · simpa using h

@[simp] theorem evrEvent_frame (r : Rec) (s : State) :
    (evrEvent r s).now = s.now ∧ (evrEvent r s).txn = s.txn ∧ (evrEvent r s).mgmt = s.mgmt ∧ (evrEvent r s).fco = s.fco ∧
    (evrEvent r s).pwc = s.pwc ∧ (evrEvent r s).pins = s.pins ∧ (evrEvent r s).ports = s.ports ∧
    (evrEvent r s).hqe = s.hqe ∧ (evrEvent r s).fab = s.fab ∧ (evrEvent r s).wb = s.wb ∧ (evrEvent r s).fiu = s.fiu ∧
    (evrEvent r s).cmp = s.cmp ∧ (evrEvent r s).cry = s.cry ∧ (evrEvent r s).dge = s.dge ∧ (evrEvent r s).sec = s.sec ∧
    (evrEvent r s).ftu = s.ftu ∧ (evrEvent r s).mca = s.mca ∧ (evrEvent r s).par = s.par ∧ (evrEvent r s).mods = s.mods ∧
    (evrEvent r s).eph = s.eph ∧ (evrEvent r s).repl = s.repl ∧ (evrEvent r s).pair = s.pair ∧
    (evrEvent r s).bld = s.bld ∧ (evrEvent r s).free = s.free ∧ (evrEvent r s).pending = s.pending := by
  unfold evrEvent
  refine ⟨?_, ?_, ?_, ?_, ?_, ?_, ?_, ?_, ?_, ?_, ?_, ?_, ?_, ?_, ?_, ?_, ?_, ?_, ?_, ?_, ?_, ?_, ?_, ?_, ?_⟩ <;> ((try dsimp only); (repeat' split) <;> simp)

@[simp] theorem fcoNotice_frame  (s : State) :
    (fcoNotice s).now = s.now ∧ (fcoNotice s).txn = s.txn ∧ (fcoNotice s).mgmt = s.mgmt ∧ (fcoNotice s).fco = s.fco ∧
    (fcoNotice s).pwc = s.pwc ∧ (fcoNotice s).pins = s.pins ∧ (fcoNotice s).ports = s.ports ∧ (fcoNotice s).hqe = s.hqe ∧
    (fcoNotice s).fab = s.fab ∧ (fcoNotice s).wb = s.wb ∧ (fcoNotice s).fiu = s.fiu ∧ (fcoNotice s).cmp = s.cmp ∧
    (fcoNotice s).cry = s.cry ∧ (fcoNotice s).dge = s.dge ∧ (fcoNotice s).sec = s.sec ∧ (fcoNotice s).ftu = s.ftu ∧
    (fcoNotice s).mca = s.mca ∧ (fcoNotice s).par = s.par ∧ (fcoNotice s).mods = s.mods ∧ (fcoNotice s).eph = s.eph ∧
    (fcoNotice s).repl = s.repl ∧ (fcoNotice s).pair = s.pair ∧ (fcoNotice s).bld = s.bld ∧
    (fcoNotice s).pending = s.pending := by
  unfold fcoNotice
  refine ⟨?_, ?_, ?_, ?_, ?_, ?_, ?_, ?_, ?_, ?_, ?_, ?_, ?_, ?_, ?_, ?_, ?_, ?_, ?_, ?_, ?_, ?_, ?_, ?_⟩ <;> ((try dsimp only); (repeat' split) <;> simp [drawNat])

@[simp] theorem note_frame (b : Block) (n lane : Nat) (s : State) :
    (note b n lane s).now = s.now ∧ (note b n lane s).txn = s.txn ∧ (note b n lane s).mgmt = s.mgmt ∧
    (note b n lane s).fco = s.fco ∧ (note b n lane s).pwc = s.pwc ∧ (note b n lane s).pins = s.pins ∧
    (note b n lane s).ports = s.ports ∧ (note b n lane s).hqe = s.hqe ∧ (note b n lane s).fab = s.fab ∧
    (note b n lane s).wb = s.wb ∧ (note b n lane s).fiu = s.fiu ∧ (note b n lane s).cmp = s.cmp ∧
    (note b n lane s).cry = s.cry ∧ (note b n lane s).dge = s.dge ∧ (note b n lane s).sec = s.sec ∧
    (note b n lane s).ftu = s.ftu ∧ (note b n lane s).mca = s.mca ∧ (note b n lane s).par = s.par ∧
    (note b n lane s).mods = s.mods ∧ (note b n lane s).eph = s.eph ∧ (note b n lane s).repl = s.repl ∧
    (note b n lane s).pair = s.pair ∧ (note b n lane s).bld = s.bld ∧ (note b n lane s).pending = s.pending := by
  unfold note
  refine ⟨?_, ?_, ?_, ?_, ?_, ?_, ?_, ?_, ?_, ?_, ?_, ?_, ?_, ?_, ?_, ?_, ?_, ?_, ?_, ?_, ?_, ?_, ?_, ?_⟩ <;> ((try dsimp only); (repeat' split) <;> simp [drawNat])

@[simp] theorem mqIdle_frame (q : Nat) (s : State) :
    (mqIdle q s).now = s.now ∧ (mqIdle q s).txn = s.txn ∧ (mqIdle q s).mgmt = s.mgmt ∧ (mqIdle q s).fco = s.fco ∧
    (mqIdle q s).evr = s.evr ∧ (mqIdle q s).pwc = s.pwc ∧ (mqIdle q s).pins = s.pins ∧ (mqIdle q s).ports = s.ports ∧
    (mqIdle q s).hqe = s.hqe ∧ (mqIdle q s).fab = s.fab ∧ (mqIdle q s).wb = s.wb ∧ (mqIdle q s).fiu = s.fiu ∧
    (mqIdle q s).cmp = s.cmp ∧ (mqIdle q s).cry = s.cry ∧ (mqIdle q s).dge = s.dge ∧ (mqIdle q s).sec = s.sec ∧
    (mqIdle q s).ftu = s.ftu ∧ (mqIdle q s).mca = s.mca ∧ (mqIdle q s).par = s.par ∧ (mqIdle q s).mods = s.mods ∧
    (mqIdle q s).eph = s.eph ∧ (mqIdle q s).repl = s.repl ∧ (mqIdle q s).pair = s.pair ∧ (mqIdle q s).bld = s.bld ∧
    (mqIdle q s).out = s.out ∧ (mqIdle q s).free = s.free ∧ (mqIdle q s).pending = s.pending := by
  unfold mqIdle; simp

@[simp] theorem mgmtUnpost_frame (q tag opcode status : Nat) (s : State) :
    (mgmtUnpost q tag opcode status s).now = s.now ∧ (mgmtUnpost q tag opcode status s).txn = s.txn ∧
    (mgmtUnpost q tag opcode status s).mgmt = s.mgmt ∧ (mgmtUnpost q tag opcode status s).fco = s.fco ∧
    (mgmtUnpost q tag opcode status s).pwc = s.pwc ∧ (mgmtUnpost q tag opcode status s).pins = s.pins ∧
    (mgmtUnpost q tag opcode status s).ports = s.ports ∧ (mgmtUnpost q tag opcode status s).hqe = s.hqe ∧
    (mgmtUnpost q tag opcode status s).fab = s.fab ∧ (mgmtUnpost q tag opcode status s).wb = s.wb ∧
    (mgmtUnpost q tag opcode status s).fiu = s.fiu ∧ (mgmtUnpost q tag opcode status s).cmp = s.cmp ∧
    (mgmtUnpost q tag opcode status s).cry = s.cry ∧ (mgmtUnpost q tag opcode status s).dge = s.dge ∧
    (mgmtUnpost q tag opcode status s).sec = s.sec ∧ (mgmtUnpost q tag opcode status s).ftu = s.ftu ∧
    (mgmtUnpost q tag opcode status s).mca = s.mca ∧ (mgmtUnpost q tag opcode status s).par = s.par ∧
    (mgmtUnpost q tag opcode status s).mods = s.mods ∧ (mgmtUnpost q tag opcode status s).eph = s.eph ∧
    (mgmtUnpost q tag opcode status s).repl = s.repl ∧ (mgmtUnpost q tag opcode status s).pair = s.pair ∧
    (mgmtUnpost q tag opcode status s).bld = s.bld ∧ (mgmtUnpost q tag opcode status s).free = s.free ∧
    (mgmtUnpost q tag opcode status s).pending = s.pending := by
  unfold mgmtUnpost; simp

@[simp] theorem mgmtPost1_frame (q tag status result : Nat) (s : State) :
    (mgmtPost1 q tag status result s).now = s.now ∧ (mgmtPost1 q tag status result s).txn = s.txn ∧
    (mgmtPost1 q tag status result s).fco = s.fco ∧ (mgmtPost1 q tag status result s).pwc = s.pwc ∧
    (mgmtPost1 q tag status result s).pins = s.pins ∧ (mgmtPost1 q tag status result s).ports = s.ports ∧
    (mgmtPost1 q tag status result s).hqe = s.hqe ∧ (mgmtPost1 q tag status result s).fab = s.fab ∧
    (mgmtPost1 q tag status result s).wb = s.wb ∧ (mgmtPost1 q tag status result s).fiu = s.fiu ∧
    (mgmtPost1 q tag status result s).cmp = s.cmp ∧ (mgmtPost1 q tag status result s).cry = s.cry ∧
    (mgmtPost1 q tag status result s).dge = s.dge ∧ (mgmtPost1 q tag status result s).sec = s.sec ∧
    (mgmtPost1 q tag status result s).ftu = s.ftu ∧ (mgmtPost1 q tag status result s).mca = s.mca ∧
    (mgmtPost1 q tag status result s).par = s.par ∧ (mgmtPost1 q tag status result s).mods = s.mods ∧
    (mgmtPost1 q tag status result s).eph = s.eph ∧ (mgmtPost1 q tag status result s).repl = s.repl ∧
    (mgmtPost1 q tag status result s).pair = s.pair ∧ (mgmtPost1 q tag status result s).bld = s.bld ∧
    (mgmtPost1 q tag status result s).free = s.free ∧ (mgmtPost1 q tag status result s).pending = s.pending := by
  unfold mgmtPost1
  refine ⟨?_, ?_, ?_, ?_, ?_, ?_, ?_, ?_, ?_, ?_, ?_, ?_, ?_, ?_, ?_, ?_, ?_, ?_, ?_, ?_, ?_, ?_, ?_, ?_⟩ <;> ((try dsimp only); (repeat' split) <;> simp)

@[simp] theorem mgmtRejects_frame (q : Nat) (s : State) :
    (mgmtRejects q s).now = s.now ∧ (mgmtRejects q s).txn = s.txn ∧ (mgmtRejects q s).fco = s.fco ∧
    (mgmtRejects q s).pwc = s.pwc ∧ (mgmtRejects q s).pins = s.pins ∧ (mgmtRejects q s).ports = s.ports ∧
    (mgmtRejects q s).hqe = s.hqe ∧ (mgmtRejects q s).fab = s.fab ∧ (mgmtRejects q s).wb = s.wb ∧
    (mgmtRejects q s).fiu = s.fiu ∧ (mgmtRejects q s).cmp = s.cmp ∧ (mgmtRejects q s).cry = s.cry ∧
    (mgmtRejects q s).dge = s.dge ∧ (mgmtRejects q s).sec = s.sec ∧ (mgmtRejects q s).ftu = s.ftu ∧
    (mgmtRejects q s).mca = s.mca ∧ (mgmtRejects q s).par = s.par ∧ (mgmtRejects q s).mods = s.mods ∧
    (mgmtRejects q s).eph = s.eph ∧ (mgmtRejects q s).repl = s.repl ∧ (mgmtRejects q s).pair = s.pair ∧
    (mgmtRejects q s).bld = s.bld ∧ (mgmtRejects q s).free = s.free ∧ (mgmtRejects q s).pending = s.pending := by
  have h : ∀ {β : Type} (p : State → β), (∀ q tag st r t, p (mgmtPost1 q tag st r t) = p t) → p (mgmtRejects q s) = p s := by
    intro β p hp
    unfold mgmtRejects
    apply forEach_keep
    intro a t
    cases a.reject
    · rfl
    · simp only []; split
      · exact hp ..
      · rfl
  exact ⟨h (·.now) (fun _ _ _ _ _ => by simp), h (·.txn) (fun _ _ _ _ _ => by simp), h (·.fco) (fun _ _ _ _ _ => by simp), h (·.pwc) (fun _ _ _ _ _ => by simp), h (·.pins) (fun _ _ _ _ _ => by simp), h (·.ports) (fun _ _ _ _ _ => by simp), h (·.hqe) (fun _ _ _ _ _ => by simp), h (·.fab) (fun _ _ _ _ _ => by simp), h (·.wb) (fun _ _ _ _ _ => by simp), h (·.fiu) (fun _ _ _ _ _ => by simp), h (·.cmp) (fun _ _ _ _ _ => by simp), h (·.cry) (fun _ _ _ _ _ => by simp), h (·.dge) (fun _ _ _ _ _ => by simp), h (·.sec) (fun _ _ _ _ _ => by simp), h (·.ftu) (fun _ _ _ _ _ => by simp), h (·.mca) (fun _ _ _ _ _ => by simp), h (·.par) (fun _ _ _ _ _ => by simp), h (·.mods) (fun _ _ _ _ _ => by simp), h (·.eph) (fun _ _ _ _ _ => by simp), h (·.repl) (fun _ _ _ _ _ => by simp), h (·.pair) (fun _ _ _ _ _ => by simp), h (·.bld) (fun _ _ _ _ _ => by simp), h (·.free) (fun _ _ _ _ _ => by simp), h (·.pending) (fun _ _ _ _ _ => by simp)⟩

@[simp] theorem mgmtPost_frame (q tag status result : Nat) (s : State) :
    (mgmtPost q tag status result s).now = s.now ∧ (mgmtPost q tag status result s).txn = s.txn ∧
    (mgmtPost q tag status result s).fco = s.fco ∧ (mgmtPost q tag status result s).pwc = s.pwc ∧
    (mgmtPost q tag status result s).pins = s.pins ∧ (mgmtPost q tag status result s).ports = s.ports ∧
    (mgmtPost q tag status result s).hqe = s.hqe ∧ (mgmtPost q tag status result s).fab = s.fab ∧
    (mgmtPost q tag status result s).wb = s.wb ∧ (mgmtPost q tag status result s).fiu = s.fiu ∧
    (mgmtPost q tag status result s).cmp = s.cmp ∧ (mgmtPost q tag status result s).cry = s.cry ∧
    (mgmtPost q tag status result s).dge = s.dge ∧ (mgmtPost q tag status result s).sec = s.sec ∧
    (mgmtPost q tag status result s).ftu = s.ftu ∧ (mgmtPost q tag status result s).mca = s.mca ∧
    (mgmtPost q tag status result s).par = s.par ∧ (mgmtPost q tag status result s).mods = s.mods ∧
    (mgmtPost q tag status result s).eph = s.eph ∧ (mgmtPost q tag status result s).repl = s.repl ∧
    (mgmtPost q tag status result s).pair = s.pair ∧ (mgmtPost q tag status result s).bld = s.bld ∧
    (mgmtPost q tag status result s).free = s.free ∧ (mgmtPost q tag status result s).pending = s.pending := by
  unfold mgmtPost; simp

@[simp] theorem onLink_frame (l : Nat) (x : TroysOut) (s : State) :
    (onLink l x s).now = s.now ∧ (onLink l x s).txn = s.txn ∧ (onLink l x s).mgmt = s.mgmt ∧ (onLink l x s).fco = s.fco ∧
    (onLink l x s).evr = s.evr ∧ (onLink l x s).pwc = s.pwc ∧ (onLink l x s).pins = s.pins ∧
    (onLink l x s).ports = s.ports ∧ (onLink l x s).hqe = s.hqe ∧ (onLink l x s).fab = s.fab ∧ (onLink l x s).wb = s.wb ∧
    (onLink l x s).fiu = s.fiu ∧ (onLink l x s).cmp = s.cmp ∧ (onLink l x s).cry = s.cry ∧ (onLink l x s).dge = s.dge ∧
    (onLink l x s).sec = s.sec ∧ (onLink l x s).ftu = s.ftu ∧ (onLink l x s).mca = s.mca ∧ (onLink l x s).par = s.par ∧
    (onLink l x s).mods = s.mods ∧ (onLink l x s).eph = s.eph ∧ (onLink l x s).repl = s.repl ∧
    (onLink l x s).pair = s.pair ∧ (onLink l x s).bld = s.bld ∧ (onLink l x s).free = s.free ∧
    (onLink l x s).pending = s.pending := by
  unfold onLink; simp

theorem pumpPkts_keep {β : Type} (p : State → β) (h1 : ∀ b c n t, p (count b c n t) = p t) (h2 : ∀ l x t, p (onLink l x t) = p t)
    (h3 : ∀ t (r : PairState), p { t with pair := r } = p t) (l : List Sent) (s : State) : p (pumpPkts l s) = p s := by
  induction l generalizing s with
  | nil => rfl
  | cons x r ih =>
    unfold pumpPkts
    split
    · rfl
    · split
      · rfl
      · simp only []
        rw [ih, h2]
        split
        · rw [h1]; exact h3 _ _
        · exact h3 _ _

@[simp] theorem pumpCh_frame (ch : Nat) (s : State) :
    (pumpCh ch s).now = s.now ∧ (pumpCh ch s).txn = s.txn ∧ (pumpCh ch s).mgmt = s.mgmt ∧ (pumpCh ch s).fco = s.fco ∧
    (pumpCh ch s).evr = s.evr ∧ (pumpCh ch s).pwc = s.pwc ∧ (pumpCh ch s).pins = s.pins ∧ (pumpCh ch s).ports = s.ports ∧
    (pumpCh ch s).hqe = s.hqe ∧ (pumpCh ch s).fab = s.fab ∧ (pumpCh ch s).wb = s.wb ∧ (pumpCh ch s).fiu = s.fiu ∧
    (pumpCh ch s).cmp = s.cmp ∧ (pumpCh ch s).cry = s.cry ∧ (pumpCh ch s).dge = s.dge ∧ (pumpCh ch s).sec = s.sec ∧
    (pumpCh ch s).ftu = s.ftu ∧ (pumpCh ch s).mca = s.mca ∧ (pumpCh ch s).par = s.par ∧ (pumpCh ch s).mods = s.mods ∧
    (pumpCh ch s).eph = s.eph ∧ (pumpCh ch s).repl = s.repl ∧ (pumpCh ch s).bld = s.bld ∧ (pumpCh ch s).free = s.free ∧
    (pumpCh ch s).pending = s.pending := by
  unfold pumpCh
  exact ⟨pumpPkts_keep (·.now) (by simp) (by simp) (fun _ _ => rfl) _ s, pumpPkts_keep (·.txn) (by simp) (by simp) (fun _ _ => rfl) _ s, pumpPkts_keep (·.mgmt) (by simp) (by simp) (fun _ _ => rfl) _ s, pumpPkts_keep (·.fco) (by simp) (by simp) (fun _ _ => rfl) _ s, pumpPkts_keep (·.evr) (by simp) (by simp) (fun _ _ => rfl) _ s, pumpPkts_keep (·.pwc) (by simp) (by simp) (fun _ _ => rfl) _ s, pumpPkts_keep (·.pins) (by simp) (by simp) (fun _ _ => rfl) _ s, pumpPkts_keep (·.ports) (by simp) (by simp) (fun _ _ => rfl) _ s, pumpPkts_keep (·.hqe) (by simp) (by simp) (fun _ _ => rfl) _ s, pumpPkts_keep (·.fab) (by simp) (by simp) (fun _ _ => rfl) _ s, pumpPkts_keep (·.wb) (by simp) (by simp) (fun _ _ => rfl) _ s, pumpPkts_keep (·.fiu) (by simp) (by simp) (fun _ _ => rfl) _ s, pumpPkts_keep (·.cmp) (by simp) (by simp) (fun _ _ => rfl) _ s, pumpPkts_keep (·.cry) (by simp) (by simp) (fun _ _ => rfl) _ s, pumpPkts_keep (·.dge) (by simp) (by simp) (fun _ _ => rfl) _ s, pumpPkts_keep (·.sec) (by simp) (by simp) (fun _ _ => rfl) _ s, pumpPkts_keep (·.ftu) (by simp) (by simp) (fun _ _ => rfl) _ s, pumpPkts_keep (·.mca) (by simp) (by simp) (fun _ _ => rfl) _ s, pumpPkts_keep (·.par) (by simp) (by simp) (fun _ _ => rfl) _ s, pumpPkts_keep (·.mods) (by simp) (by simp) (fun _ _ => rfl) _ s, pumpPkts_keep (·.eph) (by simp) (by simp) (fun _ _ => rfl) _ s, pumpPkts_keep (·.repl) (by simp) (by simp) (fun _ _ => rfl) _ s, pumpPkts_keep (·.bld) (by simp) (by simp) (fun _ _ => rfl) _ s, pumpPkts_keep (·.free) (by simp) (by simp) (fun _ _ => rfl) _ s, pumpPkts_keep (·.pending) (by simp) (by simp) (fun _ _ => rfl) _ s⟩

@[simp] theorem sendPkt_frame (x : TroysOut) (s : State) :
    (sendPkt x s).now = s.now ∧ (sendPkt x s).txn = s.txn ∧ (sendPkt x s).mgmt = s.mgmt ∧ (sendPkt x s).fco = s.fco ∧
    (sendPkt x s).evr = s.evr ∧ (sendPkt x s).pwc = s.pwc ∧ (sendPkt x s).pins = s.pins ∧ (sendPkt x s).ports = s.ports ∧
    (sendPkt x s).hqe = s.hqe ∧ (sendPkt x s).fab = s.fab ∧ (sendPkt x s).wb = s.wb ∧ (sendPkt x s).fiu = s.fiu ∧
    (sendPkt x s).cmp = s.cmp ∧ (sendPkt x s).cry = s.cry ∧ (sendPkt x s).dge = s.dge ∧ (sendPkt x s).sec = s.sec ∧
    (sendPkt x s).ftu = s.ftu ∧ (sendPkt x s).mca = s.mca ∧ (sendPkt x s).par = s.par ∧ (sendPkt x s).mods = s.mods ∧
    (sendPkt x s).eph = s.eph ∧ (sendPkt x s).repl = s.repl ∧ (sendPkt x s).bld = s.bld ∧ (sendPkt x s).free = s.free ∧
    (sendPkt x s).pending = s.pending := by
  unfold sendPkt; simp

@[simp] theorem sendTroys_frame (x : TroysOut) (s : State) :
    (sendTroys x s).now = s.now ∧ (sendTroys x s).txn = s.txn ∧ (sendTroys x s).mgmt = s.mgmt ∧
    (sendTroys x s).fco = s.fco ∧ (sendTroys x s).evr = s.evr ∧ (sendTroys x s).pwc = s.pwc ∧
    (sendTroys x s).pins = s.pins ∧ (sendTroys x s).ports = s.ports ∧ (sendTroys x s).hqe = s.hqe ∧
    (sendTroys x s).fab = s.fab ∧ (sendTroys x s).wb = s.wb ∧ (sendTroys x s).fiu = s.fiu ∧ (sendTroys x s).cmp = s.cmp ∧
    (sendTroys x s).cry = s.cry ∧ (sendTroys x s).dge = s.dge ∧ (sendTroys x s).sec = s.sec ∧
    (sendTroys x s).ftu = s.ftu ∧ (sendTroys x s).mca = s.mca ∧ (sendTroys x s).par = s.par ∧
    (sendTroys x s).mods = s.mods ∧ (sendTroys x s).eph = s.eph ∧ (sendTroys x s).repl = s.repl ∧
    (sendTroys x s).bld = s.bld ∧ (sendTroys x s).free = s.free ∧ (sendTroys x s).pending = s.pending := by
  unfold sendTroys
  refine ⟨?_, ?_, ?_, ?_, ?_, ?_, ?_, ?_, ?_, ?_, ?_, ?_, ?_, ?_, ?_, ?_, ?_, ?_, ?_, ?_, ?_, ?_, ?_, ?_, ?_⟩ <;> ((try dsimp only); (repeat' split) <;> simp)

@[simp] theorem mirrorOut_frame (x : TroysOut) (s : State) :
    (mirrorOut x s).now = s.now ∧ (mirrorOut x s).txn = s.txn ∧ (mirrorOut x s).mgmt = s.mgmt ∧
    (mirrorOut x s).fco = s.fco ∧ (mirrorOut x s).evr = s.evr ∧ (mirrorOut x s).pwc = s.pwc ∧
    (mirrorOut x s).pins = s.pins ∧ (mirrorOut x s).ports = s.ports ∧ (mirrorOut x s).hqe = s.hqe ∧
    (mirrorOut x s).fab = s.fab ∧ (mirrorOut x s).wb = s.wb ∧ (mirrorOut x s).fiu = s.fiu ∧ (mirrorOut x s).cmp = s.cmp ∧
    (mirrorOut x s).cry = s.cry ∧ (mirrorOut x s).dge = s.dge ∧ (mirrorOut x s).sec = s.sec ∧
    (mirrorOut x s).ftu = s.ftu ∧ (mirrorOut x s).mca = s.mca ∧ (mirrorOut x s).par = s.par ∧
    (mirrorOut x s).mods = s.mods ∧ (mirrorOut x s).eph = s.eph ∧ (mirrorOut x s).repl = s.repl ∧
    (mirrorOut x s).bld = s.bld ∧ (mirrorOut x s).free = s.free ∧ (mirrorOut x s).pending = s.pending := by
  unfold mirrorOut
  refine ⟨?_, ?_, ?_, ?_, ?_, ?_, ?_, ?_, ?_, ?_, ?_, ?_, ?_, ?_, ?_, ?_, ?_, ?_, ?_, ?_, ?_, ?_, ?_, ?_, ?_⟩ <;> ((try dsimp only); (repeat' split) <;> simp)

end Sys2Proof.Machine
end

