-- ==== Sys2Proof/Laws/Regs.lean ====
section
/-! SUPPORT. Laws of the register pages: every page's address decodes to it, and what applying a commit leaves. -/

namespace Sys2Proof.Machine

/-- The address of every offset of every page decodes to that page (R48–R50). -/
theorem blockAt_page {b : Block} {pg off : Nat} (hb : exists_ b = true) (hp : pg < pages b) (ho : off < 0x1000) :
    blockAt (H.page b pg + off) = some (b, pg) := by
  have e1 : (H.page b pg + off) / 0x100000 = (H.page b pg) / 0x100000 := by
    have : H.page b pg = 0x1000 * (H.page b pg / 0x1000) := by
      cases b <;> simp only [H.page, base] <;> omega
    omega
  have e2 : (H.page b pg + off) / 0x1000 % 256 = H.page b pg / 0x1000 % 256 := by
    have : H.page b pg = 0x1000 * (H.page b pg / 0x1000) := by
      cases b <;> simp only [H.page, base] <;> omega
    omega
  unfold blockAt
  rw [e1, e2]
  clear e1 e2 ho
  cases b <;> simp only [exists_, pages, decide_eq_true_eq] at hb hp <;>
    first
    | (interval_cases pg <;> decide)
    | (rename_i n; (interval_cases n <;> interval_cases pg <;> decide))

theorem page_zero (b : Block) : H.page b 0 = base b := by simp [H.page]

/-- Every block has a first page. -/
theorem pages_pos (b : Block) : 0 < pages b := by cases b <;> simp [pages]

theorem blockAt_base {b : Block} {off : Nat} (hb : exists_ b = true) (ho : off < 0x1000) : blockAt (base b + off) = some (b, 0) := by
  rw [← page_zero]; exact blockAt_page hb (pages_pos b) ho

/-- Page addresses are multiples of 4,096. -/
theorem base_mod (b : Block) : base b % 0x1000 = 0 := by cases b <;> simp only [base] <;> omega

end Sys2Proof.Machine
end

