-- ==== Sys2Proof/Laws/Frames.lean ====
section
/-! SUPPORT. What a replication frame does when its receiver takes it (R544, R547). -/

namespace Sys2Proof.Machine

theorem streamOf_count (n : Nat) (b : Block) (c k : Nat) (s : State) : streamOf n (count b c k s) = streamOf n s := by
  unfold streamOf count
  split <;> rfl

theorem count_conns (b : Block) (c k : Nat) (s : State) : (count b c k s).repl.conns = s.repl.conns := by
  unfold count
  split <;> rfl

/-- A frame that the receiver takes has its effect in the state that notes it. -/
theorem recvFrame_taken {conn typ dir : Nat} {f : Frame} {r : ReplConn} {x : Stream} {s : State} {well : Stream → Bool}
    {k : ReplConn → Stream → State → State} (h : frameOk conn typ dir f r x s = true) (hw : well x = true) :
    recvFrame conn typ dir f well k s = k r x (frameTaken conn f s) := by
  simp only [frameOk, Bool.and_eq_true, beq_iff_eq, decide_eq_true_eq] at h
  obtain ⟨⟨⟨⟨⟨⟨⟨⟨⟨h1, h2⟩, h3⟩, h4⟩, h5⟩, h6⟩, h7⟩, h8⟩, h9⟩, h10⟩ := h
  unfold recvFrame
  rw [h1]
  simp only [h2]
  rw [if_neg (by simp [h3]), if_pos (by simp [h4, h5, h6, h7, h8, h9, h10, hw])]
  rfl

/-- The same of a frame whose effect may have to wait, and need not. -/
theorem recvWait_taken {conn typ dir : Nat} {f : Frame} {r : ReplConn} {x : Stream} {s : State} {well hold : Stream → Bool}
    {k : ReplConn → Stream → State → State} (h : frameOk conn typ dir f r x s = true) (hw : well x = true) (hh : hold x = false) :
    recvWait conn typ dir f well hold k s = k r x (frameTaken conn f s) := by
  have g := h
  simp only [frameOk, Bool.and_eq_true, beq_iff_eq, decide_eq_true_eq] at g
  obtain ⟨⟨⟨⟨⟨⟨⟨⟨⟨h1, h2⟩, -⟩, -⟩, -⟩, -⟩, -⟩, -⟩, -⟩, -⟩ := g
  unfold recvWait
  rw [h1]
  simp only [Option.bind_some, h2, hw, hh, Bool.and_false, Bool.false_eq_true, if_false]
  exact recvFrame_taken h hw

end Sys2Proof.Machine
end

