-- ==== Sys2Proof/Laws/Power.lean ====
section
/-! SUPPORT. What a reset of the head leaves (R617, R628), field by field. -/

namespace Sys2Proof.Machine

/-- A reset of the register file touches nothing else. -/
theorem resetRegs_keep {β : Type} (p : State → β) (h1 : ∀ (f : Fld) (v : Nat) (t : State), p (setF f v t) = p t)
    (h2 : ∀ (r : RegFile) (t : State), p { t with regs := r } = p t) (k : ResetKind) (s : State) : p (resetRegs k s) = p s := by
  unfold resetRegs
  exact (forEach_keep p (keptFields k) (fun f t => setF f (getF f s) t) _ (fun _ _ => h1 _ _ _)).trans (h2 _ _)

theorem wipe_fco (k : ResetKind) (s : State) : (wipe k s).fco =
    { State.reset.fco with grave := if k = .power then none else s.fco.grave, laneOff := if k == .warm then s.fco.laneOff else [] } := by
  unfold wipe
  rw [resetRegs_keep (fun t => t.fco) (fun _ _ _ => by simp) (fun _ _ => rfl)]
  rfl

theorem wipe_wb_own (k : ResetKind) (s : State) : (wipe k s).wb.own = [] ∧ (wipe k s).wb.mir = [] := by
  constructor
  · unfold wipe; rw [resetRegs_keep (fun t => t.wb.own) (fun _ _ _ => by simp) (fun _ _ => rfl)]; rfl
  · unfold wipe; rw [resetRegs_keep (fun t => t.wb.mir) (fun _ _ _ => by simp) (fun _ _ => rfl)]; rfl

theorem wipe_caches (k : ResetKind) (s : State) :
    (wipe k s).mca = State.reset.mca ∧ (wipe k s).dge = State.reset.dge ∧ (wipe k s).txn = State.reset.txn ∧ (wipe k s).cry.wrap = [] := by
  refine ⟨?_, ?_, ?_, ?_⟩
  · unfold wipe; rw [resetRegs_keep (fun t => t.mca) (fun _ _ _ => by simp) (fun _ _ => rfl)]; rfl
  · unfold wipe; rw [resetRegs_keep (fun t => t.dge) (fun _ _ _ => by simp) (fun _ _ => rfl)]; rfl
  · unfold wipe; rw [resetRegs_keep (fun t => t.txn) (fun _ _ _ => by simp) (fun _ _ => rfl)]; rfl
  · unfold wipe; rw [resetRegs_keep (fun t => t.cry.wrap) (fun _ _ _ => by simp) (fun _ _ => rfl)]; rfl

theorem wipe_evr {k : ResetKind} (h : k ≠ .warm) (s : State) : (wipe k s).evr = State.reset.evr := by
  unfold wipe
  rw [resetRegs_keep (fun t => t.evr) (fun _ _ _ => by simp) (fun _ _ => rfl)]
  cases k <;> first | rfl | exact absurd rfl h

end Sys2Proof.Machine
end

