-- ==== Sys2Proof/Machine/Rom.lean ====
section
/-! DEFINITION. The expansion ROM of MGE and of the HPE functions with the Afium Descriptor Table (R91-R96). No row of the
table of commands reads it. -/

namespace Sys2Proof.Machine

/-- A function with an expansion ROM: its kind, port and virtual function number (R92). -/
def romFn (b : Block) (vf : Nat) : Nat × Nat × Nat :=
  match b with
  | .hpe p => (if vf = 0 then 1 else 2, p, vf)
  | _ => (0, 0xFF, 0)

/-- A page set entry: plane, block code, instance, pages minus 1, BAR 0, layout version and BAR offset (R93, R94). -/
def pageSetEntry (b : Block) : List Byte :=
  toBytes 1 1 ++ toBytes 1 (windowOf b) ++ toBytes 1 (blockCode b) ++ toBytes 1 (inst b) ++ toBytes 1 (pages b - 1) ++ toBytes 1 0 ++
    toBytes 1 (bits (hdrVersion b) 31 24) ++ toBytes 1 (bits (hdrVersion b) 23 16) ++ toBytes 8 (base b) ++ toBytes 16 0

/-- A limit entry (R93). -/
def limitEntry (id v : Nat) : List Byte :=
  toBytes 2 2 ++ toBytes 2 id ++ toBytes 4 0 ++ toBytes 8 v ++ toBytes 16 0

/-- The limits of this part, from LIMIT_ID 1 on (R95). -/
def limitValues : List Nat := [32768, 1024, 65536, 1048576, 4096, 16384, 256, 16, 4096, 65536, 32, 4096]

/-- The limit entries of a kind of function: every one for MGE, those of its own function for an HPE's (R94).
[DESIGN CHOICE: log entry 122] -/
def limitEntries (kind : Nat) : List (List Byte) :=
  ((List.range 12).filter fun i => kind == 0 || Config.romLimit kind (i + 1)).map fun i => limitEntry (i + 1) (limitValues.getD i 0)

/-- The entries of a function's table, the end entry last (R93, R94). [DESIGN CHOICE: log entry 122] -/
def romEntries (kind : Nat) : List (List Byte) :=
  (if kind = 0 then allBlocks.map pageSetEntry else []) ++ limitEntries kind ++ [toBytes 32 0]

/-- Capability bits: bits 63 to 9 are reserved and 0 (R95). [DESIGN CHOICE: log entry 122] -/
def romCap (kind : Nat) : Nat := Config.romCap kind % 2 ^ 9

/-- The 64-byte header with a given CRC field (R92). [DESIGN CHOICE: log entry 122] -/
def romHeader (fn : Nat × Nat × Nat) (ucode n crc : Nat) : List Byte :=
  toBytes 4 0x44414B48 ++ toBytes 2 0x0100 ++ toBytes 2 64 ++ toBytes 4 (64 + 32 * n) ++ toBytes 2 n ++ toBytes 2 32 ++
    ("HK-AF800".toList.map fun c => BitVec.ofNat 8 c.toNat) ++ toBytes 8 0 ++ toBytes 1 siliconStep ++ toBytes 1 fn.1 ++ toBytes 1 fn.2.1 ++ toBytes 1 0 ++
    toBytes 2 fn.2.2 ++ toBytes 2 0 ++ toBytes 8 (romCap fn.1) ++ toBytes 4 ucode ++ toBytes 8 0 ++ toBytes 4 crc

/-- The Afium Descriptor Table of a function, for the microcode version that ran at its last reset; its CRC covers the table
with the CRC field zero (R92, R96). [DESIGN CHOICE: log entry 122] -/
def descriptorTable (fn : Nat × Nat × Nat) (ucode : Nat) : List Byte :=
  let es := romEntries fn.1
  let body := es.foldr (fun e a => e ++ a) []
  romHeader fn ucode es.length (crc32c (romHeader fn ucode es.length 0 ++ body)) ++ body

/-- A byte of the 64 KiB image of a function: the signature, the table from offset 0x40 on, and bytes of an image in the PCI
format that the spec does not give (R91). [DESIGN CHOICE: log entry 122] -/
def romImageByte (fn : Nat × Nat × Nat) (ucode off : Nat) : Byte :=
  if off = 0 then 0x55 else if off = 1 then 0xAA
  else if off < 0x40 then Config.romByte off
  else (descriptorTable fn ucode).getD (off - 0x40) (Config.romByte off)

end Sys2Proof.Machine
end

