-- ==== Sys2Proof/Tests/Slice0.lean ====
section
/-! SUPPORT. Tests of one operation each with figures of the spec's worked examples, the ill-formed commands that the checks
refuse, and a state and operands that meet the hypotheses of every statement. -/

namespace Sys2Proof.Tests

set_option maxRecDepth 4000
set_option linter.unusedVariables false

open Sys2Proof Sys2Proof.Machine

/-! Figures of the worked examples. -/

/-- "Register model": MPT17 lies at 0x0033_1000 and its HDR_ID reads 0x3341_1000. -/
theorem test_header_mpt17 : base (.mpt 17) = 0x331000 ∧ hdrId (.mpt 17) 0 = 0x33411000 := by decide
/-- The Descriptor Table's entries are 32 bytes; MPT17's names plane 3, block 0x34, instance 17 (R93, R94). -/
theorem test_rom_entry : (pageSetEntry (.mpt 17)).take 6 = [1, 3, 0x34, 17, 0, 0] ∧ (pageSetEntry (.mpt 17)).length = 32 ∧
    (limitEntry 3 65536).length = 32 := by decide
/-- "Register model": FTU page 1 lies at 0x0030_1000 and its HDR_ID reads 0x3300_0130. -/
theorem test_header_ftu1 : H.page .ftu 1 = 0x301000 ∧ hdrId .ftu 1 = 0x33000130 := by decide
/-- "Host ports": virtual function 12 of HPE2 of head 1 has the Controller ID 0x480C. -/
theorem test_controller_id : ctlNumber (.hpe 2 12) { State.reset with pins.headSel := 1 } = 0x480C := by decide
/-- "Data path": the coordinates of a fingerprint. -/
theorem test_fingerprint_coordinates :
    let fp : List Byte := [0x3A, 0x91, 0x5C, 0x07, 0xE2, 0x4D, 0x00, 0x1B, 0x66, 0xF0]
    fpSeg fp = 7496 ∧ fpTag fp = 0x5C07E24D ∧ fpBkt fp (setF F.fptCfgBktLog2 24 State.reset) = 1795824 := by decide
/-- "Compression": stripe 0 of the counters begins 0x82, 0xFF, 0x7F, 0x10 and takes 155 bits. -/
theorem test_predicate_stripe :
    let xs := (List.range 16).flatMap fun i => [i, 0x10, 0, 0]
    let l := putBits 3 2 ++ putBits 3 0 ++ predCode 2 xs 0 0 []
    (packBits l).take 4 = [0x82, 0xFF, 0x7F, 0x10] ∧ l.length = 155 := by decide

/-- The band of "Flash translation" and "Parity": D = 8, P = 1, K = 4. -/
def exBand : Band :=
  { no := 0x4A1C, st := .sealed_, d := 8, p := 1, k := 4, cls := 2, bseq := 1, live := 0, stripes := 0, cbits := 0, isMeta := false,
    isGc := false, reloc := false, short := false, degraded := false, mine := true, fwd := 0, openCseq := 1, wrong := [],
    members := [1, 3, 4, 6, 9, 12, 15, 20, 27].map fun m => (m, []) }

/-- "Flash translation": UADDR 0x004A_1C31_24D0_4408 is stripe 1,572 of band 0x00_4A1C, data position 4, byte 0xD040, 4,128 bytes. -/
theorem test_unit_address :
    let u := 0x004A1C3124D04408
    uBand u = 0x4A1C ∧ uOff u = 0x3124D04 ∧ uLen u = 0x102 ∧ uStripe exBand u = 1572 ∧ uParts exBand u = [(4, 0xD040, 0xE060)] := by decide
/-- "Flash translation": the new UADDR decodes to stripe 37, data position 2, byte 0x1A30, 1,488 bytes. -/
theorem test_unit_address_new :
    let u := 0x0051F0012A1A3174
    uStripe exBand u = 37 ∧ uParts exBand u = [(2, 0x1A30, 0x2000)] := by decide
/-- "Parity": in stripe 1,572 P lies on position 2, module 4, and data position 4 on position 7, module 20. -/
theorem test_parity_rotation :
    parPos exBand 1572 0 = 2 ∧ dataPos exBand 1572 4 = 7 ∧ (exBand.members[2]?).map (·.1) = some 4 ∧ (exBand.members[7]?).map (·.1) = some 20 := by
  decide
/-- "Faults": the code of MCA's DIRTY_ECC is 0x1322 and that of FTU's PIPE_FAULT 0x130D. -/
theorem test_error_codes :
    0x1000 + 32 * latchBit .mca + E.mcaDirtyEcc = 0x1322 ∧ 0x1000 + 32 * latchBit .ftu + E.ftuPipeFault = 0x130D := by decide

/-! Ill-formed commands, one for each check. -/

theorem test_wf_address : (Instr.registerWrite 0x4000000 4 0).wf = false ∧ (Instr.latchReadLo 2).wf = false := by decide
theorem test_wf_size : (Instr.registerWrite 0 0 0).wf = false ∧ (Instr.registerWrite 0 4097 0).wf = false ∧ (Instr.registerWrite 0 4 0x100000000).wf = false := by decide
theorem test_wf_block : (Instr.softReset (.hpe 4)).wf = false ∧ (Instr.softReset (.mpt 32)).wf = false ∧ (Instr.softReset (.tl 2)).wf = false ∧
    (Instr.softReset (.dmc 12)).wf = false ∧ (Instr.softReset (.wsp 6)).wf = false ∧ (Instr.softReset (.fab 4)).wf = false := by decide
theorem test_wf_page : (Instr.commit .ftu 4).wf = false ∧ (Instr.commit .ftu 3).wf = true := by decide
theorem test_wf_bit_lane : (Instr.errInjectWrite .ftu 32 0).wf = false ∧ (Instr.errInjectWrite .ftu 0 256).wf = false := by decide
theorem test_wf_power : (Instr.powerRequest .ftu 4).wf = false := by decide
theorem test_wf_queue : (Instr.mqSqEnable 16 true).wf = false ∧ (Instr.mqSqDoorbell 0 4096).wf = false ∧ (Instr.mqCqDoorbell 16 0).wf = false ∧
    (Instr.mqFetch 16 none false).wf = false := by decide
theorem test_wf_descriptor :
    (Instr.mqFetch 0 (some { opcode := 0x10000, tag := 0, fence := false, inline := true, bodyVer := 0, bodyLen := 0, dataLen := 0 }) false).wf = false := by
  decide
theorem test_wf_port : (Instr.perstDeassert 5).wf = false ∧ (Instr.portConventionalReset 4 0).wf = false ∧
    (Instr.portConventionalReset 0 3).wf = false ∧ (Instr.portHoldDetect 4 true).wf = false := by decide
theorem test_wf_function : (Instr.flr 0 257).wf = false ∧ (Instr.vfBlock 4 0 true).wf = false ∧ (Instr.configRequest 0 257 none).wf = false := by decide
theorem test_wf_controller : (Instr.ccEnable (.hpe 0 0) 0 1).wf = false ∧ (Instr.ccEnable (.hpe 0 0) 1 4097).wf = false ∧
    (Instr.sqDoorbell (.fab 4096) 0 0).wf = false ∧ (Instr.sqDoorbell (.hpe 4 0) 0 0).wf = false := by decide
theorem test_wf_module : (Instr.mptPerst 32 true).wf = false ∧ (Instr.mptLinkDown 32).wf = false := by decide
theorem test_wf_link : (Instr.troysLinkDown 2).wf = false ∧ (Instr.winCommit 2).wf = false := by decide
theorem test_wf_data : (Instr.write 1 (List.replicate 0x200001 0)).wf = false := by
  show decide ((List.replicate 0x200001 (0 : Byte)).length ≤ 0x200000) = false
  rw [List.length_replicate]; decide

/-! The hypotheses of each statement hold together. -/

/-- Hypotheses of RegisterWriteReachesItsWord hold together. -/
theorem witness_RegisterWriteReachesItsWord :
    (∃ (b : Block) (v : Nat) (s : State), exists_ b = true ∧ s.pwc.held = false ∧ v < 2 ^ 32) ∧
    (∃ (b : Block) (v : Nat) (s : State), exists_ b = true ∧ s.pwc.held = false ∧ v < 2 ^ 32) ∧
    (∃ (a v : Nat) (s : State), s.pwc.held = false ∧ a % 8 = 0) ∧
    (∃ (b : Block) (v : Nat) (s : State), exists_ b = true ∧ s.pwc.held = false ∧ v < 2 ^ 32 ∧ bit v 8 = true) ∧
    (∃ (v : Nat) (s : State), s.pwc.held = false ∧ graved s = false ∧ getF (H.pwrState .evr) s ≠ 2 ∧ getF (H.state .evr) s ≠ 5 ∧ v < 2 ^ 32) ∧
    (∃ (a v : Nat) (s : State), s.pwc.held = false ∧ a % 4 = 0 ∧ blockAt a = none) ∧
    (∃ (a n v : Nat) (s : State), s.pwc.held = false ∧ (¬(n = 4 ∧ a % 4 = 0)) ∧ (¬(n = 8 ∧ a % 8 = 0))) :=
  ⟨⟨.mpt 31, 2 ^ 32 - 1, State.reset, by decide⟩,
   ⟨.hpe 3, 1, State.reset, by decide⟩,
   ⟨0x2060, 1, State.reset, by decide⟩,
   ⟨.par, 0x1FF01, State.reset, by decide⟩,
   ⟨7, State.reset, by decide⟩,
   ⟨0xA000, 1, State.reset, by decide⟩,
   ⟨0x2044, 8, 1, State.reset, by decide⟩⟩

/-- Hypotheses of CounterReadLatchesHighWord hold together. -/
theorem witness_CounterReadLatchesHighWord :
    (∃ (b : Block) (s : State), exists_ b = true ∧ s.pwc.held = false) ∧
    (∃ (b : Block) (s : State), exists_ b = true ∧ s.pwc.held = false ∧ 1000000 ≤ s.now) ∧
    (∃ (a : Nat) (s : State), s.pwc.held = false ∧ a % 4 ≠ 0) :=
  ⟨⟨.cmp, State.reset, by decide⟩,
   ⟨.ldc, { State.reset with now := 1000000 }, by decide⟩,
   ⟨0x35, State.reset, by decide⟩⟩

/-- Hypotheses of ShadowValuesAreCapturedAndApplied hold together. -/
theorem witness_ShadowValuesAreCapturedAndApplied :
    (∃ (b : Block) (pg : Nat) (s : State), halted s = false ∧ exists_ b = true ∧ pg < pages b ∧ capOf b pg s = none ∧ getF (H.txn b pg) s = 0) ∧
    (∃ (b : Block) (pg : Nat) (s : State), (capOf b pg s).isSome = true) ∧
    (∃ (b : Block) (pg n : Nat) (s : State), halted s = false ∧ exists_ b = true ∧ pg < pages b ∧ capOf b pg s = none ∧ getF (H.txn b pg) s = 1 ∧ getF (H.txnId b pg) s = n) ∧
    (∃ (b : Block) (pg : Nat) (c : Capture) (s : State), halted s = false ∧ capOf b pg s = some c) ∧
    (∃ (b : Block) (pg : Nat) (s : State), halted s = false ∧ capOf b pg s = none) ∧
    (∃ (b : Block) (pg : Nat) (c : Capture) (s : State), halted s = false ∧ capOf b pg s = some c ∧ c.txn = 0 ∧ commitRefused c s = none ∧ indexedFields b pg c.index = [] ∧ indexOf b pg s = c.index ∧ (¬(b = .eph ∧ pg = 1))) :=
  ⟨⟨.hqe, 3, State.reset, by decide⟩,
   ⟨.hqe, 1, { State.reset with regs.caps := [{ blk := .hqe, pg := 1, txn := 0, index := 0, vals := [] }] }, by decide⟩,
   ⟨.hpe 0, 0, 255, setF (H.txn (.hpe 0) 0) 1 (setF (H.txnId (.hpe 0) 0) 255 State.reset), by decide⟩,
   ⟨.hqe, 1, { blk := .hqe, pg := 1, txn := 0, index := 0, vals := [] }, { State.reset with regs.caps := [{ blk := .hqe, pg := 1, txn := 0, index := 0, vals := [] }] }, by decide⟩,
   ⟨.hqe, 1, State.reset, by decide⟩,
   ⟨.dge, 0, { blk := .dge, pg := 0, txn := 0, index := 0, vals := [] }, { State.reset with regs.caps := [{ blk := .dge, pg := 0, txn := 0, index := 0, vals := [] }] }, by decide⟩⟩

/-- Hypotheses of EnablesSwitchTheirBlock hold together. -/
theorem witness_EnablesSwitchTheirBlock :
    (∃ (b : Block) (mc : Bool) (s : State), halted s = false ∧ planeOf b ≠ .control ∧ planeOf b ≠ .memory ∧ (∀ w, b ≠ .wsp w) ∧ blockDown b s = false) ∧
    (∃ (b : Block) (on mc : Bool) (s : State), (planeOf b = .control ∨ planeOf b = .memory)) ∧
    (∃ (b : Block) (n : Nat) (f : Fld) (on mc : Bool) (s : State), halted s = false ∧ enableOf b n = some (f, .service) ∧ getF (H.pwrState b) s ≠ 2 ∧ getF (H.state b) s ≠ 5) ∧
    (∃ (b : Block) (n : Nat) (f : Fld) (mc : Bool) (s : State), halted s = false ∧ enableOf b n = some (f, .mainRoad) ∧ getF (H.pwrState b) s ≠ 2 ∧ getF (H.state b) s ≠ 5) :=
  ⟨⟨.ftu, false, State.reset, by decide, by decide, by decide, by simp, by decide⟩,
   ⟨.dmc 11, true, false, State.reset, by decide⟩,
   ⟨.par, 2, F.parCtrlPatrolEn, true, false, State.reset, by decide⟩,
   ⟨.mir, 1, F.mirCtrlFwdEn, false, State.reset, by decide⟩⟩

/-- Hypotheses of SoftResetIsHonouredByPlane hold together. -/
theorem witness_SoftResetIsHonouredByPlane :
    (∃ (b : Block) (s : State), halted s = false ∧ srstHonoured b = true) ∧
    (∃ (b : Block) (s : State), srstHonoured b = false) ∧
    (∃ (b : Block) (s : State), halted s = false ∧ getF (H.state b) s = 5) :=
  ⟨⟨.par, State.reset, by decide⟩,
   ⟨.wsp 5, State.reset, by decide⟩,
   ⟨.par, setState .par 5 State.reset, by decide⟩⟩

/-- Hypotheses of ManagementQueuesEnableAndRing hold together. -/
theorem witness_ManagementQueuesEnableAndRing :
    (∃ (q : Nat) (s : State), halted s = false ∧ mgeOff s = false ∧ getF (F.mqCfgSqEn q) s = 0 ∧ getF (F.mqSqBaseLoAddr q) s % 0x1000 = 0 ∧ getF (F.mqCfgSqSize q) s ≠ 0) ∧
    (∃ (q : Nat) (s : State), halted s = false ∧ mgeOff s = false ∧ getF (F.mqCfgSqEn q) s = 0 ∧ (getF (F.mqSqBaseLoAddr q) s % 0x1000 ≠ 0 ∨ getF (F.mqCfgSqSize q) s = 0)) ∧
    (∃ (q : Nat) (s : State), halted s = false ∧ mgeOff s = false ∧ getF (F.mqCfgCqEn q) s = 0 ∧ getF (F.mqCqBaseLoAddr q) s % 0x1000 = 0 ∧ getF (F.mqCfgCqSize q) s ≠ 0 ∧ 8 ≤ getF (F.mqCfgVector q) s) ∧
    (∃ (q : Nat) (s : State), halted s = false ∧ mgeOff s = false) ∧
    (∃ (q n : Nat) (s : State), halted s = false ∧ mgeOff s = false ∧ getF (F.mqCfgSqEn q) s = 1) ∧
    (∃ (q n : Nat) (s : State), halted s = false ∧ mgeOff s = false ∧ getF (F.mqCfgCqEn q) s = 1) :=
  ⟨⟨15, setF (F.mqCfgSqSize 15) 4095 State.reset, by decide⟩,
   ⟨0, State.reset, by decide⟩,
   ⟨0, setF (F.mqCfgVector 0) 8 (setF (F.mqCfgCqSize 0) 1 State.reset), by decide⟩,
   ⟨0, State.reset, by decide⟩,
   ⟨3, 4095, setF (F.mqCfgSqSize 3) 4095 (setF (F.mqCfgSqEn 3) 1 State.reset), by decide⟩,
   ⟨3, 1, setF (F.mqCfgCqEn 3) 1 State.reset, by decide⟩⟩

/-- Hypotheses of CountersInjectionsAndPowerFollowTheirRequest hold together. -/
theorem witness_CountersInjectionsAndPowerFollowTheirRequest :
    (∃ (b : Block) (s : State), halted s = false) ∧
    (∃ (b : Block) (r : Nat) (s : State), halted s = false ∧ r < 3 ∧ (∀ n, b ≠ .dmc n) ∧ (∀ w, b ≠ .wsp w) ∧ b ≠ .vlt) ∧
    (∃ (b : Block) (r : Nat) (s : State), halted s = false ∧ s.pwc.moving.find? (fun m => m.1 == b) = some (b, r) ∧ r < 3) ∧
    (∃ (b : Block) (n l : Nat) (s : State), halted s = false ∧ getF F.fcoInjCtlInjEn s ≠ 0 ∧ errClass? b n ≠ some 4) ∧
    (∃ (b : Block) (n l : Nat) (s : State), halted s = false ∧ getF F.fcoInjCtlInjEn s = 0) ∧
    (∃ (b : Block) (a : Armed) (l : Nat) (s : State), halted s = false ∧ s.regs.armed.find? (fun a => a.blk == b) = some a ∧ getF (H.pwrState b) s ≠ 2 ∧ getF (H.state b) s ≠ 5 ∧ injectLane a s = some l) :=
  ⟨⟨.ldc, State.reset, by decide⟩,
   ⟨.cmp, 2, State.reset, by decide, by decide, by simp, by simp, by decide⟩,
   ⟨.cmp, 2, { State.reset with pwc.moving := [(.cmp, 2)] }, by decide⟩,
   ⟨.cry, 5, 3, setF F.fcoInjCtlInjEn 1 State.reset, by decide⟩,
   ⟨.cry, 5, 3, State.reset, by decide⟩,
   ⟨.dge, { blk := .dge, bit := 9, lane := 15 }, 15, { State.reset with regs.armed := [{ blk := .dge, bit := 9, lane := 15 }] }, by decide⟩⟩

/-- Hypotheses of ManagementFetchChecksItsDescriptor hold together. -/
theorem witness_ManagementFetchChecksItsDescriptor :
    (∃ (q : Nat) (d : MgmtDesc) (e : Bool) (s : State), halted s = false ∧ mqFetchable q s = true ∧ descReject d e ≠ some stBusError) ∧
    (∃ (q : Nat) (e : Bool) (s : State), halted s = false ∧ mqFetchable q s = true) ∧
    (∃ (q tag : Nat) (s : State), halted s = false ∧ mgmtReady q tag 0 s = true) :=
  ⟨⟨0, { tag := 7, opcode := 0x0010, fence := false, inline := false, bodyLen := 64, bodyVer := 1, dataLen := 0 }, false, setF (F.mqSqTailTail 0) 1 (setF (F.mqCfgSqEn 0) 1 (setF (F.mqCfgCqEn 0) 1 (setF (F.mqCfgCqSize 0) 1 (setState .mge 2 State.reset)))), by decide⟩,
   ⟨0, false, setF (F.mqSqTailTail 0) 1 (setF (F.mqCfgSqEn 0) 1 (setF (F.mqCfgCqEn 0) 1 (setF (F.mqCfgCqSize 0) 1 (setState .mge 2 State.reset)))), by decide⟩,
   ⟨1, 7, { State.reset with mgmt.cmds := [{ q := 1, tag := 7, opcode := 0, fence := false, dataLen := 0, started := false, reject := none, unposted := false }] }, by decide⟩⟩

/-- Hypotheses of ManagementCompletionTakesTheTailEntry hold together. -/
theorem witness_ManagementCompletionTakesTheTailEntry :
    (∃ (q tag st r : Nat) (c : MgmtCmd) (s : State), s.mgmt.cmds.find? (fun c => c.q == q && c.tag == tag) = some c ∧ c.unposted = false ∧ getF (F.mqCfgCqEn q) s = 1) ∧
    (∃ (q tag st r : Nat) (c : MgmtCmd) (s : State), s.mgmt.cmds.find? (fun c => c.q == q && c.tag == tag) = some c ∧ c.unposted = false ∧ getF (F.mqCfgCqEn q) s = 0) :=
  ⟨⟨1, 7, 0, 0, { q := 1, tag := 7, opcode := 0, fence := false, dataLen := 0, started := false, reject := none, unposted := false }, setF (F.mqCfgCqEn 1) 1 ({ State.reset with mgmt.cmds := [{ q := 1, tag := 7, opcode := 0, fence := false, dataLen := 0, started := false, reject := none, unposted := false }] }), by decide⟩,
   ⟨1, 7, 0, 0, { q := 1, tag := 7, opcode := 0, fence := false, dataLen := 0, started := false, reject := none, unposted := false }, { State.reset with mgmt.cmds := [{ q := 1, tag := 7, opcode := 0, fence := false, dataLen := 0, started := false, reject := none, unposted := false }] }, by decide⟩⟩

/-- Hypotheses of TransactionsCommitAtTheirInstant hold together. -/
theorem witness_TransactionsCommitAtTheirInstant :
    (∃ (q tag id T : Nat) (s : State), halted s = false ∧ mgmtReady q tag 0x0080 s = true ∧ id ≠ 0 ∧ T ≠ 0 ∧ T % 8 = 0 ∧ timeUnset s = false ∧ s.eph.time + 50000 ≤ T ∧ s.txn.sched.any (fun t => t.id == id) = false ∧ s.txn.holding.any (fun t => t.id == id) = false ∧ (s.txn.sched.filter fun t => t.instant != 0).length < 32 ∧ (freeEntry s).isSome = true) ∧
    (∃ (q tag id : Nat) (s : State), halted s = false ∧ mgmtReady q tag 0x0080 s = true ∧ id ≠ 0 ∧ s.txn.sched.any (fun t => t.id == id) = false ∧ s.txn.holding.any (fun t => t.id == id) = false) ∧
    (∃ (id : Nat) (s : State), halted s = false ∧ s.txn.sched.any (fun t => t.id == id && t.instant != 0 && t.frozen.isNone) = true ∧ (armedPages id s).all (fun m => getF (H.state m.1) s != 7) = true) ∧
    (∃ (x : Txn) (ms : List (Block × Nat)) (s : State), halted s = false ∧ s.txn.sched.find? (fun t => t.id == x.id) = some x ∧ x.frozen = some ms ∧ ms ≠ [] ∧ s.txn.holding = none ∧ x.instant = 0) ∧
    (∃ (x : Txn) (s : State), halted s = false ∧ s.txn.sched.find? (fun t => t.id == x.id) = some x ∧ x.frozen = some [] ∧ s.txn.holding = none ∧ x.instant = 0) ∧
    (∃ (x : Txn) (s : State), halted s = false ∧ s.txn.holding = some x) ∧
    (∃ (q tag id : Nat) (s : State), halted s = false ∧ mgmtReady q tag 0x0080 s = true ∧ id ≠ 0) :=
  ⟨⟨1, 7, 255, 50000, setF F.ephStatState 1 ({ State.reset with mgmt.cmds := [{ q := 1, tag := 7, opcode := 0x80, fence := false, dataLen := 0, started := false, reject := none, unposted := false }] }), by decide⟩,
   ⟨1, 7, 1, { State.reset with mgmt.cmds := [{ q := 1, tag := 7, opcode := 0x80, fence := false, dataLen := 0, started := false, reject := none, unposted := false }] }, by decide⟩,
   ⟨5, { State.reset with txn.sched := [{ id := 5, instant := 100000, q := 1, tag := 7, frozen := none }] }, by decide⟩,
   ⟨{ id := 5, instant := 0, q := 1, tag := 7, frozen := some [(.dge, 0)] }, [(.dge, 0)], { State.reset with txn.sched := [{ id := 5, instant := 0, q := 1, tag := 7, frozen := some [(.dge, 0)] }] }, by decide⟩,
   ⟨{ id := 5, instant := 0, q := 1, tag := 7, frozen := some [] }, { State.reset with txn.sched := [{ id := 5, instant := 0, q := 1, tag := 7, frozen := some [] }] }, by decide⟩,
   ⟨{ id := 5, instant := 0, q := 1, tag := 7, frozen := none }, { State.reset with txn.holding := some { id := 5, instant := 0, q := 1, tag := 7, frozen := none } }, by decide⟩,
   ⟨1, 7, 255, { State.reset with mgmt.cmds := [{ q := 1, tag := 7, opcode := 0x80, fence := false, dataLen := 0, started := false, reject := none, unposted := false }] }, by decide⟩⟩

/-- Hypotheses of HostLinksTrainAndReset hold together. -/
theorem witness_HostLinksTrainAndReset :
    (∃ (p : Nat) (s : State), halted s = false ∧ p < 4) ∧
    (∃ (p v w : Nat) (fl : Bool) (s : State), halted s = false ∧ p < 4 ∧ 1 ≤ v ∧ v ≤ 6 ∧ (w = 1 ∨ w = 2 ∨ w = 4 ∨ w = 8) ∧ getF (F.hpeLinkStatPerstIn p) s = 0 ∧ getF (F.hpeLinkCtrlHoldDetect p) s = 0 ∧ blockDown (.hpe p) s = false ∧ getF (F.hpeLinkStatUp p) s = 0 ∧ getF (F.hpeLinkCtrlMaxSpeed p) s ≤ 6 ∧ getF (F.hpeLinkCtrlMaxWidth p) s ≤ 8) ∧
    (∃ (v w : Nat) (fl : Bool) (s : State), s.pwc.held = false ∧ s.pwc.dumping = false ∧ 1 ≤ v ∧ v ≤ 6 ∧ (w = 1 ∨ w = 2 ∨ w = 4 ∨ w = 8)) ∧
    (∃ (p : Nat) (s : State), halted s = false ∧ getF (H.pwrState (.hpe p)) s ≠ 2 ∧ getF (H.state (.hpe p)) s ≠ 5 ∧ getF (F.hpeLinkStatUp p) s = 1) ∧
    (∃ (p : Nat) (s : State), halted s = false) ∧
    (∃ (p : Nat) (s : State), halted s = false) ∧
    (∃ (p : Nat) (on : Bool) (s : State), halted s = false ∧ getF (H.pwrState (.hpe p)) s ≠ 2 ∧ getF (H.state (.hpe p)) s ≠ 5 ∧ getF (F.hpeLinkStatUp p) s = 0 ∧ getF (F.hpeLinkStatPerstIn p) s = 1) ∧
    (∃ (s : State), s.pwc.held = false ∧ s.pwc.dumping = false) :=
  ⟨⟨3, State.reset, by decide⟩,
   ⟨3, 6, 8, true, State.reset, by decide⟩,
   ⟨1, 4, false, State.reset, by decide⟩,
   ⟨0, setF (F.hpeLinkStatUp 0) 1 State.reset, by decide⟩,
   ⟨3, State.reset, by decide⟩,
   ⟨3, State.reset, by decide⟩,
   ⟨2, true, setF (F.hpeLinkStatPerstIn 2) 1 State.reset, by decide⟩,
   ⟨State.reset, by decide⟩⟩

/-- Hypotheses of FunctionsResetAndVirtualFunctionsChange hold together. -/
theorem witness_FunctionsResetAndVirtualFunctionsChange :
    (∃ (p f : Nat) (s : State), halted s = false ∧ fnPresent p f s = true ∧ (portOf p s).flr.contains f = false) ∧
    (∃ (p f : Nat) (s : State), halted s = false ∧ (portOf p s).flr.contains f = true) ∧
    (∃ (p n : Nat) (on : Bool) (s : State), halted s = false ∧ n ≤ (portOf p s).totalVfs ∧ getF (F.hpeSriovVfEnabled p) s = 0 ∧ (¬(n = getF (F.hpeSriovNumVfs p) s ∧ on = false))) ∧
    (∃ (p f : Nat) (on : Bool) (s : State), halted s = false ∧ f ≠ 0 ∧ getF (H.pwrState (.hpe p)) s ≠ 2 ∧ getF (H.state (.hpe p)) s ≠ 5) ∧
    (∃ (p f : Nat) (wr : Option (CfgReg × Nat)) (s : State), halted s = false ∧ getF (F.hpeLinkStatUp p) s = 1 ∧ (s.bld.hir = none ∨ (portOf p s).flr.contains f = true)) ∧
    (∃ (p f : Nat) (r : CfgReg) (v : Nat) (s : State), halted s = false ∧ getF (F.hpeLinkStatUp p) s = 1 ∧ s.bld.hir.isSome = true ∧ (portOf p s).flr.contains f = false ∧ f = 0) ∧
    (∃ (b : Block) (posted : Bool) (s : State), halted s = false ∧ isEndpoint b = true) ∧
    (∃ (b : Block) (posted : Bool) (s : State), halted s = false ∧ isEndpoint b = true) ∧
    (∃ (b : Block) (po : Bool) (s : State), halted s = false ∧ isEndpoint b = true) :=
  ⟨⟨3, 0, State.reset, by decide⟩,
   ⟨1, 256, putPort 1 { totalVfs := 256, training := false, flr := [256] } State.reset, by decide⟩,
   ⟨0, 256, true, State.reset, by decide⟩,
   ⟨0, 256, true, State.reset, by decide⟩,
   ⟨0, 0, none, setF (F.hpeLinkStatUp 0) 1 State.reset, by decide⟩,
   ⟨0, 0, .memEnable, 1, { setF (F.hpeLinkStatUp 0) 1 State.reset with bld.hir := some ⟨true, 0, 1, 0, 1, 0, [], 0, 0, 0, 0, 0, 0, 0⟩ }, by decide⟩,
   ⟨.hpe 2, false, State.reset, by decide⟩,
   ⟨.mge, true, State.reset, by decide⟩,
   ⟨.hpe 0, false, State.reset, by decide⟩⟩

/-- Hypotheses of ReadCompletionsAreTakenByTag hold together. -/
theorem witness_ReadCompletionsAreTakenByTag :
    (∃ (p f g n h : Nat) (r : ReadReq) (s : State), halted s = false ∧ readOf p f g s = some r ∧ r.st = .live ∧ r.kind = .data h ∧ r.got + n < r.len) ∧
    (∃ (p f g n h : Nat) (r : ReadReq) (s : State), halted s = false ∧ readOf p f g s = some r ∧ r.st = .live ∧ r.kind = .data h ∧ r.got + n = r.len) ∧
    (∃ (p f g n : Nat) (bad po : Bool) (s : State), halted s = false ∧ readOf p f g s = none) ∧
    (∃ (p f g : Nat) (r : ReadReq) (s : State), halted s = false ∧ readOf p f g s = some r ∧ r.st = .live ∧ (fnCfg p f s).ctoDisable = false) ∧
    (∃ (p f g : Nat) (r : ReadReq) (s : State), halted s = false ∧ readOf p f g s = some r ∧ r.st = .quarantined) :=
  ⟨⟨0, 0, 5, 511, 3, { port := 0, func := 0, tag := 5, addr := 0x1000, len := 512, got := 0, off := 0, kind := .data 3, st := .live }, { State.reset with ports.reads := [{ port := 0, func := 0, tag := 5, addr := 0x1000, len := 512, got := 0, off := 0, kind := .data 3, st := .live }] }, by decide⟩,
   ⟨0, 0, 5, 512, 3, { port := 0, func := 0, tag := 5, addr := 0x1000, len := 512, got := 0, off := 0, kind := .data 3, st := .live }, { State.reset with ports.reads := [{ port := 0, func := 0, tag := 5, addr := 0x1000, len := 512, got := 0, off := 0, kind := .data 3, st := .live }] }, by decide⟩,
   ⟨3, 256, 767, 0, false, false, State.reset, by decide⟩,
   ⟨0, 0, 5, { port := 0, func := 0, tag := 5, addr := 0x1000, len := 512, got := 0, off := 0, kind := .data 3, st := .live }, { State.reset with ports.reads := [{ port := 0, func := 0, tag := 5, addr := 0x1000, len := 512, got := 0, off := 0, kind := .data 3, st := .live }] }, by decide⟩,
   ⟨0, 0, 5, { port := 0, func := 0, tag := 5, addr := 0x1000, len := 512, got := 0, off := 0, kind := .data 3, st := .quarantined }, { State.reset with ports.reads := [{ port := 0, func := 0, tag := 5, addr := 0x1000, len := 512, got := 0, off := 0, kind := .data 3, st := .quarantined }] }, by decide⟩⟩

/-- Hypotheses of DoorbellsAndFetchMoveTheQueues hold together. -/
theorem witness_DoorbellsAndFetchMoveTheQueues :
    (∃ (c : Ctl) (i n : Nat) (q : SubQ) (s : State), halted s = false ∧ ctlServes c s = true ∧ (ctlOf c s).en = true ∧ sqOf c i s = some q) ∧
    (∃ (c : Ctl) (i n : Nat) (q : CplQ) (s : State), halted s = false ∧ ctlServes c s = true ∧ (ctlOf c s).en = true ∧ cqOf c i s = some q) ∧
    (∃ (c : Ctl) (i n : Nat) (s : State), halted s = false ∧ ctlServes c s = true ∧ (ctlOf c s).en = true ∧ sqOf c i s = none) ∧
    (∃ (c : Ctl) (i : Nat) (e : Sqe) (q : SubQ) (s : State), halted s = false ∧ sqOf c i s = some q ∧ hqeOpen s = true ∧ ctlOpen c s = true ∧ fetchable c q s = true ∧ throttled (tenantOf c s) s = false ∧ heldByWb i e s = false ∧ heldByFwd i e s = false) ∧
    (∃ (c : Ctl) (i : Nat) (q : CplQ) (s : State), halted s = false ∧ cqOf c i s = some q ∧ q.held ≠ 0) ∧
    (∃ (s : State), halted s = false) :=
  ⟨⟨.hpe 0 0, 1, 15, { ctl := .hpe 0 0, qid := 1, size := 16, head := 0, tail := 1, cqid := 1, prio := 0, deleting := none, stopped := false }, { State.reset with hqe.ctls := [{ newCtl (.hpe 0 0) 64 0 0 false true with rdy := true }], ports.fns := [(0, { maxRead := 512, maxPayload := 128, tagBits := 8, ctoDisable := false, memEnable := true })], hqe.sqs := [{ ctl := .hpe 0 0, qid := 1, size := 16, head := 0, tail := 1, cqid := 1, prio := 0, deleting := none, stopped := false }], hqe.cqs := [{ ctl := .hpe 0 0, qid := 1, size := 16, head := 0, tail := 0, phase := true, vector := 1, irqEn := true, held := 1 }] }, by decide⟩,
   ⟨.hpe 0 0, 1, 0, { ctl := .hpe 0 0, qid := 1, size := 16, head := 0, tail := 0, phase := true, vector := 1, irqEn := true, held := 1 }, { State.reset with hqe.ctls := [{ newCtl (.hpe 0 0) 64 0 0 false true with rdy := true }], ports.fns := [(0, { maxRead := 512, maxPayload := 128, tagBits := 8, ctoDisable := false, memEnable := true })], hqe.sqs := [{ ctl := .hpe 0 0, qid := 1, size := 16, head := 0, tail := 1, cqid := 1, prio := 0, deleting := none, stopped := false }], hqe.cqs := [{ ctl := .hpe 0 0, qid := 1, size := 16, head := 0, tail := 0, phase := true, vector := 1, irqEn := true, held := 1 }] }, by decide⟩,
   ⟨.hpe 0 0, 2, 0, { State.reset with hqe.ctls := [{ newCtl (.hpe 0 0) 64 0 0 false true with rdy := true }], ports.fns := [(0, { maxRead := 512, maxPayload := 128, tagBits := 8, ctoDisable := false, memEnable := true })], hqe.sqs := [{ ctl := .hpe 0 0, qid := 1, size := 16, head := 0, tail := 1, cqid := 1, prio := 0, deleting := none, stopped := false }], hqe.cqs := [{ ctl := .hpe 0 0, qid := 1, size := 16, head := 0, tail := 0, phase := true, vector := 1, irqEn := true, held := 1 }] }, by decide⟩,
   ⟨.hpe 0 0, 1, { cid := 9, opc := 2, fused := false, nsid := 1, slba := 0, nlb := 1, len := 512, fua := false, deac := false, ranges := [], bufs := [(0x1000, 512)] }, { ctl := .hpe 0 0, qid := 1, size := 16, head := 0, tail := 1, cqid := 1, prio := 0, deleting := none, stopped := false }, setState .hqe 2 (setF F.bldStatStage 9 { State.reset with hqe.ctls := [{ newCtl (.hpe 0 0) 64 0 0 false true with rdy := true }], ports.fns := [(0, { maxRead := 512, maxPayload := 128, tagBits := 8, ctoDisable := false, memEnable := true })], hqe.sqs := [{ ctl := .hpe 0 0, qid := 1, size := 16, head := 0, tail := 1, cqid := 1, prio := 0, deleting := none, stopped := false }], hqe.cqs := [{ ctl := .hpe 0 0, qid := 1, size := 16, head := 0, tail := 0, phase := true, vector := 1, irqEn := true, held := 1 }] }), by decide⟩,
   ⟨.hpe 0 0, 1, { ctl := .hpe 0 0, qid := 1, size := 16, head := 0, tail := 0, phase := true, vector := 1, irqEn := true, held := 1 }, { State.reset with hqe.ctls := [{ newCtl (.hpe 0 0) 64 0 0 false true with rdy := true }], ports.fns := [(0, { maxRead := 512, maxPayload := 128, tagBits := 8, ctoDisable := false, memEnable := true })], hqe.sqs := [{ ctl := .hpe 0 0, qid := 1, size := 16, head := 0, tail := 1, cqid := 1, prio := 0, deleting := none, stopped := false }], hqe.cqs := [{ ctl := .hpe 0 0, qid := 1, size := 16, head := 0, tail := 0, phase := true, vector := 1, irqEn := true, held := 1 }] }, by decide⟩,
   ⟨State.reset, by decide⟩⟩

/-- Hypotheses of CqEntryCarriesThePhase hold together. -/
theorem witness_CqEntryCarriesThePhase :
    ∃ (c : Ctl) (i cid : Nat) (st : NvmeSt) (q : SubQ) (k : CplQ) (s : State), sqOf c i s = some q ∧ cqOf c q.cqid s = some k :=
  ⟨.hpe 0 0, 1, 9, .success, { ctl := .hpe 0 0, qid := 1, size := 16, head := 0, tail := 1, cqid := 1, prio := 0, deleting := none, stopped := false }, { ctl := .hpe 0 0, qid := 1, size := 16, head := 0, tail := 0, phase := true, vector := 1, irqEn := true, held := 1 }, { State.reset with hqe.ctls := [{ newCtl (.hpe 0 0) 64 0 0 false true with rdy := true }], ports.fns := [(0, { maxRead := 512, maxPayload := 128, tagBits := 8, ctoDisable := false, memEnable := true })], hqe.sqs := [{ ctl := .hpe 0 0, qid := 1, size := 16, head := 0, tail := 1, cqid := 1, prio := 0, deleting := none, stopped := false }], hqe.cqs := [{ ctl := .hpe 0 0, qid := 1, size := 16, head := 0, tail := 0, phase := true, vector := 1, irqEn := true, held := 1 }] }, by decide⟩

/-- Hypotheses of ControllersEnableReadyAndShutDown hold together. -/
theorem witness_ControllersEnableReadyAndShutDown :
    (∃ (p asq acq : Nat) (s : State), halted s = false ∧ fnServes p 0 s = true ∧ (ctlOf (.hpe p 0) s).en = false ∧ asq ≤ 4096 ∧ acq ≤ 4096) ∧
    (∃ (c : Ctl) (s : State), halted s = false ∧ (ctlOf c s).en = true ∧ (ctlOf c s).rdy = false ∧ inService s = true) ∧
    (∃ (c : Ctl) (s : State), halted s = false ∧ ctlServes c s = true ∧ (ctlOf c s).en = true ∧ (ctlOf c s).shst = .normal) ∧
    (∃ (c : Ctl) (s : State), halted s = false ∧ (ctlOf c s).shst = .processing ∧ s.hqe.cmds.all (fun m => m.ctl != some c || (ctlOf c s).aers.contains m.h) = true) ∧
    (∃ (c : Ctl) (s : State), halted s = false ∧ ctlServes c s = true ∧ (ctlOf c s).en = true) ∧
    (∃ (l : Nat) (s : State), halted s = false ∧ s.hqe.psTo = some l) :=
  ⟨⟨0, 4096, 1, { State.reset with ports.fns := [(0, { maxRead := 512, maxPayload := 128, tagBits := 8, ctoDisable := false, memEnable := true })] }, by decide⟩,
   ⟨.hpe 0 0, setF F.bldStatStage 9 { State.reset with hqe.ctls := [newCtl (.hpe 0 0) 64 0 0 false true] }, by decide⟩,
   ⟨.hpe 0 0, { State.reset with hqe.ctls := [{ newCtl (.hpe 0 0) 64 0 0 false true with rdy := true }], ports.fns := [(0, { maxRead := 512, maxPayload := 128, tagBits := 8, ctoDisable := false, memEnable := true })], hqe.sqs := [{ ctl := .hpe 0 0, qid := 1, size := 16, head := 0, tail := 1, cqid := 1, prio := 0, deleting := none, stopped := false }], hqe.cqs := [{ ctl := .hpe 0 0, qid := 1, size := 16, head := 0, tail := 0, phase := true, vector := 1, irqEn := true, held := 1 }] }, by decide⟩,
   ⟨.hpe 0 0, { State.reset with hqe.ctls := [{ newCtl (.hpe 0 0) 64 0 0 false true with shst := .processing }] }, by decide⟩,
   ⟨.hpe 0 0, { State.reset with hqe.ctls := [{ newCtl (.hpe 0 0) 64 0 0 false true with rdy := true }], ports.fns := [(0, { maxRead := 512, maxPayload := 128, tagBits := 8, ctoDisable := false, memEnable := true })], hqe.sqs := [{ ctl := .hpe 0 0, qid := 1, size := 16, head := 0, tail := 1, cqid := 1, prio := 0, deleting := none, stopped := false }], hqe.cqs := [{ ctl := .hpe 0 0, qid := 1, size := 16, head := 0, tail := 0, phase := true, vector := 1, irqEn := true, held := 1 }] }, by decide⟩,
   ⟨2, { State.reset with hqe.psTo := some 2 }, by decide⟩⟩

/-- Hypotheses of QueuesAreCreatedAndDeleted hold together. -/
theorem witness_QueuesAreCreatedAndDeleted :
    (∃ (h i n v : Nat) (ien : Bool) (k : Ctl) (m : Cmd) (s : State), halted s = false ∧ adminReady h 0x05 s = some m ∧ m.ctl = some k ∧ i ≠ 0 ∧ i ≤ (ctlOf k s).qpMax ∧ cqOf k i s = none ∧ 2 ≤ n ∧ n ≤ 16384 ∧ v ≤ (ctlOf k s).qpMax) ∧
    (∃ (h i n j pr : Nat) (k : Ctl) (m : Cmd) (s : State), halted s = false ∧ adminReady h 0x01 s = some m ∧ m.ctl = some k ∧ j ≠ 0 ∧ (cqOf k j s).isSome = true ∧ i ≠ 0 ∧ i ≤ (ctlOf k s).qpMax ∧ sqOf k i s = none ∧ 2 ≤ n ∧ n ≤ 16384) ∧
    (∃ (h i : Nat) (q : SubQ) (k : Ctl) (m : Cmd) (s : State), halted s = false ∧ adminReady h 0x00 s = some m ∧ m.ctl = some k ∧ i ≠ 0 ∧ sqOf k i s = some q ∧ q.deleting = none) ∧
    (∃ (h : Nat) (q : SubQ) (s : State), halted s = false ∧ s.hqe.sqs.find? (fun q => q.deleting == some h) = some q ∧ s.hqe.cmds.any (fun m => m.ctl == some q.ctl && m.qid == q.qid) = false) ∧
    (∃ (h i : Nat) (k : Ctl) (m : Cmd) (s : State), halted s = false ∧ adminReady h 0x04 s = some m ∧ m.ctl = some k ∧ i ≠ 0 ∧ (cqOf k i s).isSome = true ∧ s.hqe.sqs.any (fun q => q.ctl == k && q.cqid == i) = false) :=
  ⟨⟨3, 64, 16384, 64, true, .hpe 0 0, { h := 3, ctl := some (.hpe 0 0), qid := 0, sqe := { cid := 9, opc := 5, fused := false, nsid := 0, slba := 0, nlb := 1, len := 0, fua := false, deac := false, ranges := [], bufs := [] }, host := 0, cmp := [], phase := .fetched, seq := 1, todo := [], need := 0, waitLand := [], waitAck := [], waitDur := [], waitCseq := 0, waitSync := [], waitRead := [], waitPart := 0, guard := false, repl := none, st := .success }, { State.reset with hqe.ctls := [{ newCtl (.hpe 0 0) 64 0 0 false true with rdy := true }], hqe.cmds := [{ h := 3, ctl := some (.hpe 0 0), qid := 0, sqe := { cid := 9, opc := 5, fused := false, nsid := 0, slba := 0, nlb := 1, len := 0, fua := false, deac := false, ranges := [], bufs := [] }, host := 0, cmp := [], phase := .fetched, seq := 1, todo := [], need := 0, waitLand := [], waitAck := [], waitDur := [], waitCseq := 0, waitSync := [], waitRead := [], waitPart := 0, guard := false, repl := none, st := .success }] }, by decide⟩,
   ⟨3, 1, 2, 1, 0, .hpe 0 0, { h := 3, ctl := some (.hpe 0 0), qid := 0, sqe := { cid := 9, opc := 1, fused := false, nsid := 0, slba := 0, nlb := 1, len := 0, fua := false, deac := false, ranges := [], bufs := [] }, host := 0, cmp := [], phase := .fetched, seq := 1, todo := [], need := 0, waitLand := [], waitAck := [], waitDur := [], waitCseq := 0, waitSync := [], waitRead := [], waitPart := 0, guard := false, repl := none, st := .success }, { State.reset with hqe.ctls := [{ newCtl (.hpe 0 0) 64 0 0 false true with rdy := true }], hqe.cmds := [{ h := 3, ctl := some (.hpe 0 0), qid := 0, sqe := { cid := 9, opc := 1, fused := false, nsid := 0, slba := 0, nlb := 1, len := 0, fua := false, deac := false, ranges := [], bufs := [] }, host := 0, cmp := [], phase := .fetched, seq := 1, todo := [], need := 0, waitLand := [], waitAck := [], waitDur := [], waitCseq := 0, waitSync := [], waitRead := [], waitPart := 0, guard := false, repl := none, st := .success }], hqe.cqs := [{ ctl := .hpe 0 0, qid := 1, size := 16, head := 0, tail := 0, phase := true, vector := 1, irqEn := true, held := 0 }] }, by decide⟩,
   ⟨3, 1, { ctl := .hpe 0 0, qid := 1, size := 16, head := 0, tail := 1, cqid := 1, prio := 0, deleting := none, stopped := false }, .hpe 0 0, { h := 3, ctl := some (.hpe 0 0), qid := 0, sqe := { cid := 9, opc := 0, fused := false, nsid := 0, slba := 0, nlb := 1, len := 0, fua := false, deac := false, ranges := [], bufs := [] }, host := 0, cmp := [], phase := .fetched, seq := 1, todo := [], need := 0, waitLand := [], waitAck := [], waitDur := [], waitCseq := 0, waitSync := [], waitRead := [], waitPart := 0, guard := false, repl := none, st := .success }, { State.reset with hqe.ctls := [{ newCtl (.hpe 0 0) 64 0 0 false true with rdy := true }], hqe.cmds := [{ h := 3, ctl := some (.hpe 0 0), qid := 0, sqe := { cid := 9, opc := 0, fused := false, nsid := 0, slba := 0, nlb := 1, len := 0, fua := false, deac := false, ranges := [], bufs := [] }, host := 0, cmp := [], phase := .fetched, seq := 1, todo := [], need := 0, waitLand := [], waitAck := [], waitDur := [], waitCseq := 0, waitSync := [], waitRead := [], waitPart := 0, guard := false, repl := none, st := .success }], hqe.sqs := [{ ctl := .hpe 0 0, qid := 1, size := 16, head := 0, tail := 1, cqid := 1, prio := 0, deleting := none, stopped := false }] }, by decide⟩,
   ⟨3, { ctl := .hpe 0 0, qid := 1, size := 16, head := 0, tail := 1, cqid := 1, prio := 0, deleting := some 3, stopped := false }, { State.reset with hqe.sqs := [{ ctl := .hpe 0 0, qid := 1, size := 16, head := 0, tail := 1, cqid := 1, prio := 0, deleting := some 3, stopped := false }] }, by decide⟩,
   ⟨3, 1, .hpe 0 0, { h := 3, ctl := some (.hpe 0 0), qid := 0, sqe := { cid := 9, opc := 4, fused := false, nsid := 0, slba := 0, nlb := 1, len := 0, fua := false, deac := false, ranges := [], bufs := [] }, host := 0, cmp := [], phase := .fetched, seq := 1, todo := [], need := 0, waitLand := [], waitAck := [], waitDur := [], waitCseq := 0, waitSync := [], waitRead := [], waitPart := 0, guard := false, repl := none, st := .success }, { State.reset with hqe.ctls := [{ newCtl (.hpe 0 0) 64 0 0 false true with rdy := true }], hqe.cmds := [{ h := 3, ctl := some (.hpe 0 0), qid := 0, sqe := { cid := 9, opc := 4, fused := false, nsid := 0, slba := 0, nlb := 1, len := 0, fua := false, deac := false, ranges := [], bufs := [] }, host := 0, cmp := [], phase := .fetched, seq := 1, todo := [], need := 0, waitLand := [], waitAck := [], waitDur := [], waitCseq := 0, waitSync := [], waitRead := [], waitPart := 0, guard := false, repl := none, st := .success }], hqe.cqs := [{ ctl := .hpe 0 0, qid := 1, size := 16, head := 0, tail := 0, phase := true, vector := 1, irqEn := true, held := 0 }] }, by decide⟩⟩

/-- Hypotheses of AdminCommandsAnswerTheirController hold together. -/
theorem witness_AdminCommandsAnswerTheirController :
    (∃ (h l : Nat) (k : Ctl) (m : Cmd) (s : State), halted s = false ∧ adminReady h 0x02 s = some m ∧ m.ctl = some k ∧ (l = 0x01 ∨ l = 0x02 ∨ l = 0x03 ∨ l = 0x05 ∨ l = 0x0C ∨ l = 0x80 ∨ l = 0x81)) ∧
    (∃ (h : Nat) (k : Ctl) (m : Cmd) (s : State), halted s = false ∧ adminReady h 0x02 s = some m ∧ m.ctl = some k) ∧
    (∃ (h n : Nat) (k : Ctl) (m : Cmd) (s : State), halted s = false ∧ adminReady h 0x06 s = some m ∧ m.ctl = some k ∧ (n = 0x00 ∨ n = 0x01 ∨ n = 0x02 ∨ n = 0x03 ∨ n = 0x05 ∨ n = 0x06 ∨ n = 0x07 ∨ n = 0x08 ∨ n = 0x0C ∨ n = 0x10 ∨ n = 0x11 ∨ n = 0x12 ∨ n = 0x13)) ∧
    (∃ (h : Nat) (k : Ctl) (m : Cmd) (s : State), halted s = false ∧ adminReady h 0x08 s = some m ∧ m.ctl = some k) ∧
    (∃ (h v : Nat) (k : Ctl) (m : Cmd) (s : State), halted s = false ∧ adminReady h 0x09 s = some m ∧ m.ctl = some k) ∧
    (∃ (h f : Nat) (k : Ctl) (m : Cmd) (s : State), halted s = false ∧ adminReady h 0x0A s = some m ∧ m.ctl = some k ∧ featOk f = true) ∧
    (∃ (h : Nat) (k : Ctl) (m : Cmd) (s : State), halted s = false ∧ adminReady h 0x0C s = some m ∧ m.ctl = some k ∧ (ctlOf k s).events = [] ∧ (ctlOf k s).aers.length < 16) ∧
    (∃ (h : Nat) (e : AsyncEv) (r : List AsyncEv) (k : Ctl) (m : Cmd) (s : State), halted s = false ∧ adminReady h 0x0C s = some m ∧ m.ctl = some k ∧ (ctlOf k s).events = e :: r ∧ (ctlOf k s).aers.length < 16) ∧
    (∃ (h : Nat) (k : Ctl) (m : Cmd) (s : State), halted s = false ∧ adminReady h 0x18 s = some m ∧ m.ctl = some k) ∧
    (∃ (h o v : Nat) (k : Ctl) (m : Cmd) (s : State), halted s = false ∧ adminReady h 0x7F s = some m ∧ m.ctl = some k ∧ propOf (ctlOf k s) o = some v) ∧
    (∃ (h v : Nat) (k : Ctl) (m : Cmd) (s : State), halted s = false ∧ adminReady h 0x7F s = some m ∧ m.ctl = some k) :=
  ⟨⟨3, 2, .hpe 0 0, { h := 3, ctl := some (.hpe 0 0), qid := 0, sqe := { cid := 9, opc := 2, fused := false, nsid := 0, slba := 0, nlb := 1, len := 0, fua := false, deac := false, ranges := [], bufs := [] }, host := 0, cmp := [], phase := .fetched, seq := 1, todo := [], need := 0, waitLand := [], waitAck := [], waitDur := [], waitCseq := 0, waitSync := [], waitRead := [], waitPart := 0, guard := false, repl := none, st := .success }, { State.reset with hqe.ctls := [{ newCtl (.hpe 0 0) 64 0 0 false true with rdy := true }], hqe.cmds := [{ h := 3, ctl := some (.hpe 0 0), qid := 0, sqe := { cid := 9, opc := 2, fused := false, nsid := 0, slba := 0, nlb := 1, len := 0, fua := false, deac := false, ranges := [], bufs := [] }, host := 0, cmp := [], phase := .fetched, seq := 1, todo := [], need := 0, waitLand := [], waitAck := [], waitDur := [], waitCseq := 0, waitSync := [], waitRead := [], waitPart := 0, guard := false, repl := none, st := .success }] }, by decide⟩,
   ⟨3, .hpe 0 0, { h := 3, ctl := some (.hpe 0 0), qid := 0, sqe := { cid := 9, opc := 2, fused := false, nsid := 0, slba := 0, nlb := 1, len := 0, fua := false, deac := false, ranges := [], bufs := [] }, host := 0, cmp := [], phase := .fetched, seq := 1, todo := [], need := 0, waitLand := [], waitAck := [], waitDur := [], waitCseq := 0, waitSync := [], waitRead := [], waitPart := 0, guard := false, repl := none, st := .success }, { State.reset with hqe.ctls := [{ newCtl (.hpe 0 0) 64 0 0 false true with rdy := true }], hqe.cmds := [{ h := 3, ctl := some (.hpe 0 0), qid := 0, sqe := { cid := 9, opc := 2, fused := false, nsid := 0, slba := 0, nlb := 1, len := 0, fua := false, deac := false, ranges := [], bufs := [] }, host := 0, cmp := [], phase := .fetched, seq := 1, todo := [], need := 0, waitLand := [], waitAck := [], waitDur := [], waitCseq := 0, waitSync := [], waitRead := [], waitPart := 0, guard := false, repl := none, st := .success }] }, by decide⟩,
   ⟨3, 1, .hpe 0 0, { h := 3, ctl := some (.hpe 0 0), qid := 0, sqe := { cid := 9, opc := 6, fused := false, nsid := 0, slba := 0, nlb := 1, len := 0, fua := false, deac := false, ranges := [], bufs := [] }, host := 0, cmp := [], phase := .fetched, seq := 1, todo := [], need := 0, waitLand := [], waitAck := [], waitDur := [], waitCseq := 0, waitSync := [], waitRead := [], waitPart := 0, guard := false, repl := none, st := .success }, { State.reset with hqe.ctls := [{ newCtl (.hpe 0 0) 64 0 0 false true with rdy := true }], hqe.cmds := [{ h := 3, ctl := some (.hpe 0 0), qid := 0, sqe := { cid := 9, opc := 6, fused := false, nsid := 0, slba := 0, nlb := 1, len := 0, fua := false, deac := false, ranges := [], bufs := [] }, host := 0, cmp := [], phase := .fetched, seq := 1, todo := [], need := 0, waitLand := [], waitAck := [], waitDur := [], waitCseq := 0, waitSync := [], waitRead := [], waitPart := 0, guard := false, repl := none, st := .success }] }, by decide⟩,
   ⟨3, .hpe 0 0, { h := 3, ctl := some (.hpe 0 0), qid := 0, sqe := { cid := 9, opc := 8, fused := false, nsid := 0, slba := 0, nlb := 1, len := 0, fua := false, deac := false, ranges := [], bufs := [] }, host := 0, cmp := [], phase := .fetched, seq := 1, todo := [], need := 0, waitLand := [], waitAck := [], waitDur := [], waitCseq := 0, waitSync := [], waitRead := [], waitPart := 0, guard := false, repl := none, st := .success }, { State.reset with hqe.ctls := [{ newCtl (.hpe 0 0) 64 0 0 false true with rdy := true }], hqe.cmds := [{ h := 3, ctl := some (.hpe 0 0), qid := 0, sqe := { cid := 9, opc := 8, fused := false, nsid := 0, slba := 0, nlb := 1, len := 0, fua := false, deac := false, ranges := [], bufs := [] }, host := 0, cmp := [], phase := .fetched, seq := 1, todo := [], need := 0, waitLand := [], waitAck := [], waitDur := [], waitCseq := 0, waitSync := [], waitRead := [], waitPart := 0, guard := false, repl := none, st := .success }] }, by decide⟩,
   ⟨3, 0, .hpe 0 0, { h := 3, ctl := some (.hpe 0 0), qid := 0, sqe := { cid := 9, opc := 9, fused := false, nsid := 0, slba := 0, nlb := 1, len := 0, fua := false, deac := false, ranges := [], bufs := [] }, host := 0, cmp := [], phase := .fetched, seq := 1, todo := [], need := 0, waitLand := [], waitAck := [], waitDur := [], waitCseq := 0, waitSync := [], waitRead := [], waitPart := 0, guard := false, repl := none, st := .success }, { State.reset with hqe.ctls := [{ newCtl (.hpe 0 0) 64 0 0 false true with rdy := true }], hqe.cmds := [{ h := 3, ctl := some (.hpe 0 0), qid := 0, sqe := { cid := 9, opc := 9, fused := false, nsid := 0, slba := 0, nlb := 1, len := 0, fua := false, deac := false, ranges := [], bufs := [] }, host := 0, cmp := [], phase := .fetched, seq := 1, todo := [], need := 0, waitLand := [], waitAck := [], waitDur := [], waitCseq := 0, waitSync := [], waitRead := [], waitPart := 0, guard := false, repl := none, st := .success }] }, by decide⟩,
   ⟨3, 6, .hpe 0 0, { h := 3, ctl := some (.hpe 0 0), qid := 0, sqe := { cid := 9, opc := 10, fused := false, nsid := 0, slba := 0, nlb := 1, len := 0, fua := false, deac := false, ranges := [], bufs := [] }, host := 0, cmp := [], phase := .fetched, seq := 1, todo := [], need := 0, waitLand := [], waitAck := [], waitDur := [], waitCseq := 0, waitSync := [], waitRead := [], waitPart := 0, guard := false, repl := none, st := .success }, { State.reset with hqe.ctls := [{ newCtl (.hpe 0 0) 64 0 0 false true with rdy := true }], hqe.cmds := [{ h := 3, ctl := some (.hpe 0 0), qid := 0, sqe := { cid := 9, opc := 10, fused := false, nsid := 0, slba := 0, nlb := 1, len := 0, fua := false, deac := false, ranges := [], bufs := [] }, host := 0, cmp := [], phase := .fetched, seq := 1, todo := [], need := 0, waitLand := [], waitAck := [], waitDur := [], waitCseq := 0, waitSync := [], waitRead := [], waitPart := 0, guard := false, repl := none, st := .success }] }, by decide⟩,
   ⟨3, .hpe 0 0, { h := 3, ctl := some (.hpe 0 0), qid := 0, sqe := { cid := 9, opc := 12, fused := false, nsid := 0, slba := 0, nlb := 1, len := 0, fua := false, deac := false, ranges := [], bufs := [] }, host := 0, cmp := [], phase := .fetched, seq := 1, todo := [], need := 0, waitLand := [], waitAck := [], waitDur := [], waitCseq := 0, waitSync := [], waitRead := [], waitPart := 0, guard := false, repl := none, st := .success }, { State.reset with hqe.ctls := [{ newCtl (.hpe 0 0) 64 0 0 false true with rdy := true }], hqe.cmds := [{ h := 3, ctl := some (.hpe 0 0), qid := 0, sqe := { cid := 9, opc := 12, fused := false, nsid := 0, slba := 0, nlb := 1, len := 0, fua := false, deac := false, ranges := [], bufs := [] }, host := 0, cmp := [], phase := .fetched, seq := 1, todo := [], need := 0, waitLand := [], waitAck := [], waitDur := [], waitCseq := 0, waitSync := [], waitRead := [], waitPart := 0, guard := false, repl := none, st := .success }] }, by decide⟩,
   ⟨3, .thermal, [], .hpe 0 0, { h := 3, ctl := some (.hpe 0 0), qid := 0, sqe := { cid := 9, opc := 12, fused := false, nsid := 0, slba := 0, nlb := 1, len := 0, fua := false, deac := false, ranges := [], bufs := [] }, host := 0, cmp := [], phase := .fetched, seq := 1, todo := [], need := 0, waitLand := [], waitAck := [], waitDur := [], waitCseq := 0, waitSync := [], waitRead := [], waitPart := 0, guard := false, repl := none, st := .success }, { { State.reset with hqe.ctls := [{ newCtl (.hpe 0 0) 64 0 0 false true with rdy := true }], hqe.cmds := [{ h := 3, ctl := some (.hpe 0 0), qid := 0, sqe := { cid := 9, opc := 12, fused := false, nsid := 0, slba := 0, nlb := 1, len := 0, fua := false, deac := false, ranges := [], bufs := [] }, host := 0, cmp := [], phase := .fetched, seq := 1, todo := [], need := 0, waitLand := [], waitAck := [], waitDur := [], waitCseq := 0, waitSync := [], waitRead := [], waitPart := 0, guard := false, repl := none, st := .success }] } with hqe.ctls := [{ { newCtl (.hpe 0 0) 64 0 0 false true with rdy := true } with events := [.thermal] }] }, by decide⟩,
   ⟨3, .hpe 0 0, { h := 3, ctl := some (.hpe 0 0), qid := 0, sqe := { cid := 9, opc := 24, fused := false, nsid := 0, slba := 0, nlb := 1, len := 0, fua := false, deac := false, ranges := [], bufs := [] }, host := 0, cmp := [], phase := .fetched, seq := 1, todo := [], need := 0, waitLand := [], waitAck := [], waitDur := [], waitCseq := 0, waitSync := [], waitRead := [], waitPart := 0, guard := false, repl := none, st := .success }, { State.reset with hqe.ctls := [{ newCtl (.hpe 0 0) 64 0 0 false true with rdy := true }], hqe.cmds := [{ h := 3, ctl := some (.hpe 0 0), qid := 0, sqe := { cid := 9, opc := 24, fused := false, nsid := 0, slba := 0, nlb := 1, len := 0, fua := false, deac := false, ranges := [], bufs := [] }, host := 0, cmp := [], phase := .fetched, seq := 1, todo := [], need := 0, waitLand := [], waitAck := [], waitDur := [], waitCseq := 0, waitSync := [], waitRead := [], waitPart := 0, guard := false, repl := none, st := .success }] }, by decide⟩,
   ⟨3, 0x1C, 1, .hpe 0 0, { h := 3, ctl := some (.hpe 0 0), qid := 0, sqe := { cid := 9, opc := 127, fused := false, nsid := 0, slba := 0, nlb := 1, len := 0, fua := false, deac := false, ranges := [], bufs := [] }, host := 0, cmp := [], phase := .fetched, seq := 1, todo := [], need := 0, waitLand := [], waitAck := [], waitDur := [], waitCseq := 0, waitSync := [], waitRead := [], waitPart := 0, guard := false, repl := none, st := .success }, { State.reset with hqe.ctls := [{ newCtl (.hpe 0 0) 64 0 0 false true with rdy := true }], hqe.cmds := [{ h := 3, ctl := some (.hpe 0 0), qid := 0, sqe := { cid := 9, opc := 127, fused := false, nsid := 0, slba := 0, nlb := 1, len := 0, fua := false, deac := false, ranges := [], bufs := [] }, host := 0, cmp := [], phase := .fetched, seq := 1, todo := [], need := 0, waitLand := [], waitAck := [], waitDur := [], waitCseq := 0, waitSync := [], waitRead := [], waitPart := 0, guard := false, repl := none, st := .success }] }, by decide⟩,
   ⟨3, 1, .hpe 0 0, { h := 3, ctl := some (.hpe 0 0), qid := 0, sqe := { cid := 9, opc := 127, fused := false, nsid := 0, slba := 0, nlb := 1, len := 0, fua := false, deac := false, ranges := [], bufs := [] }, host := 0, cmp := [], phase := .fetched, seq := 1, todo := [], need := 0, waitLand := [], waitAck := [], waitDur := [], waitCseq := 0, waitSync := [], waitRead := [], waitPart := 0, guard := false, repl := none, st := .success }, { State.reset with hqe.ctls := [{ newCtl (.hpe 0 0) 64 0 0 false true with rdy := true }], hqe.cmds := [{ h := 3, ctl := some (.hpe 0 0), qid := 0, sqe := { cid := 9, opc := 127, fused := false, nsid := 0, slba := 0, nlb := 1, len := 0, fua := false, deac := false, ranges := [], bufs := [] }, host := 0, cmp := [], phase := .fetched, seq := 1, todo := [], need := 0, waitLand := [], waitAck := [], waitDur := [], waitCseq := 0, waitSync := [], waitRead := [], waitPart := 0, guard := false, repl := none, st := .success }] }, by decide⟩⟩

/-- Hypotheses of FabricLinksComeUpAndGoDown hold together. -/
theorem witness_FabricLinksComeUpAndGoDown :
    (∃ (p v : Nat) (s : State), halted s = false ∧ p < 4 ∧ blockDown (.fab p) s = false ∧ getF (F.fabLinkCtrlTxOff p) s = 0 ∧ getF (F.fabLinkStatUp p) s = 0 ∧ getF (F.fabLinkCtrlMode p) s = 0 ∧ (v = 1 ∨ v = 2)) ∧
    (∃ (p : Nat) (s : State), halted s = false ∧ p < 4 ∧ getF (F.fabLinkStatUp p) s = 1 ∧ getF (F.fabLinkCtrlTxOff p) s = 0) ∧
    (∃ (p : Nat) (s : State), halted s = false ∧ p < 4 ∧ getF (H.pwrState (.fab p)) s ≠ 2 ∧ getF (H.state (.fab p)) s ≠ 5 ∧ getF (F.fabLinkStatUp p) s = 1) ∧
    (∃ (p : Nat) (on : Bool) (s : State), halted s = false ∧ p < 4 ∧ getF (F.fabLinkStatUp p) s = 1 ∧ getF (F.fabVlanPfcEn p) s = 1) ∧
    (∃ (p t : Nat) (s : State), halted s = false ∧ tget? s.fab.paused p = some t ∧ 100000000 ≤ s.now - t) ∧
    (∃ (p : Nat) (s : State), halted s = false ∧ p < 4 ∧ getF (F.fabLinkStatUp p) s = 1 ∧ getF (F.fabIpv4CfgV4En p) s = 1) ∧
    (∃ (p : Nat) (s : State), halted s = false ∧ p < 4 ∧ getF (F.fabLinkStatUp p) s = 1) :=
  ⟨⟨3, 2, State.reset, by decide⟩,
   ⟨1, setF (F.fabLinkStatUp 1) 1 State.reset, by decide⟩,
   ⟨1, setF (F.fabLinkStatUp 1) 1 State.reset, by decide⟩,
   ⟨1, true, setF (F.fabLinkStatUp 1) 1 (loadF (F.fabVlanPfcEn 1) 1 State.reset), by decide⟩,
   ⟨1, 5, { State.reset with now := 100000005, fab.paused := [(1, 5)] }, by decide⟩,
   ⟨1, setF (F.fabLinkStatUp 1) 1 (setF (F.fabIpv4CfgV4En 1) 1 State.reset), by decide⟩,
   ⟨1, setF (F.fabLinkStatUp 1) 1 State.reset, by decide⟩⟩

/-- Hypotheses of ConnectionsOpenAndClose hold together. -/
theorem witness_ConnectionsOpenAndClose :
    (∃ (p d r rp : Nat) (k : ConnKind) (s : State), halted s = false ∧ portServes p (isV4 r) s = true ∧ running .toe s = true ∧ listens p d (fabTx p (fabRx p s)) = some k ∧ s.fab.conns.length < 65536) ∧
    (∃ (p d r rp : Nat) (s : State), halted s = false ∧ portServes p (isV4 r) s = true ∧ running .toe s = true ∧ listens p d (fabTx p (fabRx p s)) = none) ∧
    (∃ (p r rq : Nat) (s : State), halted s = false ∧ portServes p (isV4 r) s = true ∧ running .toe s = true ∧ getF F.toeCtrlRoceEn (fabTx p (fabRx p s)) = 1 ∧ s.fab.conns.length < 65536) ∧
    (∃ (n : Nat) (h d : Bool) (x : Conn) (s : State), halted s = false ∧ connOf n s = some x ∧ (x.kind = .tcp ∨ x.kind = .disc) ∧ running .toe s = true ∧ x.ready = false) ∧
    (∃ (n cid kato size i : Nat) (nqn : List Byte) (x : Conn) (s : State), halted s = false ∧ s.fab.conns.find? (fun c => c.id == n) = some x ∧ x.ready = true ∧ (x.kind = .tcp ∨ x.kind = .roce) ∧ x.ctl = none ∧ 1 ≤ size ∧ size ≤ 32 ∧ freeFctl s = some i ∧ fabQps s < getF F.toeQpResQpRes s) ∧
    (∃ (n : Nat) (s : State), halted s = false) ∧
    (∃ (i : Nat) (s : State), halted s = false ∧ s.hqe.ctls.any (fun k => k.id == .fab i && k.kato != 0) = true) :=
  ⟨⟨1, 4420, 0xFFFF0A000001, 5000, .tcp, (setF (H.state .toe) 2 (setF (F.fabLinkStatUp 1) 1 (setF (F.fabIpv4CfgV4En 1) 1 (loadF F.toePortsNvmePort 4420 (setF F.toeCtrlTcpEn 1 State.reset))))), by decide⟩,
   ⟨1, 80, 0xFFFF0A000001, 5000, (setF (H.state .toe) 2 (setF (F.fabLinkStatUp 1) 1 (setF (F.fabIpv4CfgV4En 1) 1 (loadF F.toePortsNvmePort 4420 State.reset)))), by decide⟩,
   ⟨1, 0xFFFF0A000001, 77, (setF (H.state .toe) 2 (setF (F.fabLinkStatUp 1) 1 (setF (F.fabIpv4CfgV4En 1) 1 (loadF F.toePortsNvmePort 4420 (setF F.toeCtrlRoceEn 1 State.reset))))), by decide⟩,
   ⟨2, true, false, { id := 2, port := 1, kind := .tcp, remote := 0xFFFF0A000001, rport := 5000, ready := false, hdgst := false, ddgst := false, ctl := none, qid := 0, retx := 0, unacked := 4096, cnp := 0 }, setState .toe 2 { State.reset with fab.conns := [{ id := 2, port := 1, kind := .tcp, remote := 0xFFFF0A000001, rport := 5000, ready := false, hdgst := false, ddgst := false, ctl := none, qid := 0, retx := 0, unacked := 4096, cnp := 0 }] }, by decide⟩,
   ⟨2, 0xFFFF, 0, 32, 0, [], { id := 2, port := 1, kind := .tcp, remote := 0xFFFF0A000001, rport := 5000, ready := true, hdgst := false, ddgst := false, ctl := none, qid := 0, retx := 0, unacked := 4096, cnp := 0 }, setState .toe 2 { State.reset with fab.conns := [{ id := 2, port := 1, kind := .tcp, remote := 0xFFFF0A000001, rport := 5000, ready := true, hdgst := false, ddgst := false, ctl := none, qid := 0, retx := 0, unacked := 4096, cnp := 0 }] }, by decide⟩,
   ⟨2, setState .toe 2 { State.reset with fab.conns := [{ id := 2, port := 1, kind := .tcp, remote := 0xFFFF0A000001, rport := 5000, ready := true, hdgst := false, ddgst := false, ctl := none, qid := 0, retx := 0, unacked := 4096, cnp := 0 }] }, by decide⟩,
   ⟨4095, { State.reset with hqe.ctls := [newCtl (.fab 4095) 64 0 120000 false true] }, by decide⟩⟩

/-- Hypotheses of CapsulesAndDataMoveOnConnections hold together. -/
theorem witness_CapsulesAndDataMoveOnConnections :
    (∃ (n i : Nat) (e : Sqe) (x : Conn) (s : State), halted s = false ∧ connOf n s = some x ∧ x.kind = .tcp ∧ running .toe s = true ∧ x.ready = true ∧ x.ctl = some i ∧ x.qid = 0 ∧ hqeOpen s = true ∧ (s.hqe.cmds.filter fun m => m.ctl == some (.fab i) && m.qid == 0).length < (sqOf (.fab i) 0 s).elim 0 (·.size) ∧ throttled (tenantOf (.fab i) s) s = false ∧ heldByWb 0 e s = false ∧ heldByFwd 0 e s = false) ∧
    (∃ (n : Nat) (e : Sqe) (x : Conn) (s : State), halted s = false ∧ connOf n s = some x ∧ x.kind = .tcp ∧ running .toe s = true ∧ x.ctl = none) ∧
    (∃ (h n i : Nat) (c : Cmd) (s : State), halted s = false ∧ cmdOf h s = some c ∧ c.ctl = some (.fab i) ∧ c.need ≠ 0 ∧ running .toe s = true) ∧
    (∃ (n b : Nat) (x : Conn) (s : State), halted s = false ∧ connOf n s = some x ∧ running .toe s = true) ∧
    (∃ (n : Nat) (x : Conn) (s : State), halted s = false ∧ connOf n s = some x ∧ x.kind = .tcp ∧ running .toe s = true) ∧
    (∃ (n l : Nat) (x : Conn) (s : State), halted s = false ∧ connOf n s = some x ∧ x.kind = .roce ∧ running .toe s = true) ∧
    (∃ (n : Nat) (x : Conn) (s : State), halted s = false ∧ connOf n s = some x ∧ x.kind = .roce ∧ running .toe s = true ∧ getF F.toeRoceCcEn s = 1) :=
  ⟨⟨2, 0, { cid := 9, opc := 2, fused := false, nsid := 1, slba := 0, nlb := 1, len := 512, fua := false, deac := false, ranges := [], bufs := [] }, { id := 2, port := 1, kind := .tcp, remote := 0xFFFF0A000001, rport := 5000, ready := true, hdgst := false, ddgst := false, ctl := some 0, qid := 0, retx := 0, unacked := 4096, cnp := 0 }, setState .hqe 2 (setF F.bldStatStage 9 (setState .toe 2 (addSq (.fab 0) 0 32 0 0 { State.reset with fab.conns := [{ id := 2, port := 1, kind := .tcp, remote := 0xFFFF0A000001, rport := 5000, ready := true, hdgst := false, ddgst := false, ctl := some 0, qid := 0, retx := 0, unacked := 4096, cnp := 0 }], hqe.ctls := [newCtl (.fab 0) 64 0 0 false true] }))), by decide⟩,
   ⟨2, { cid := 9, opc := 2, fused := false, nsid := 1, slba := 0, nlb := 1, len := 512, fua := false, deac := false, ranges := [], bufs := [] }, { id := 2, port := 1, kind := .tcp, remote := 0xFFFF0A000001, rport := 5000, ready := true, hdgst := false, ddgst := false, ctl := none, qid := 0, retx := 0, unacked := 4096, cnp := 0 }, setState .toe 2 { State.reset with fab.conns := [{ id := 2, port := 1, kind := .tcp, remote := 0xFFFF0A000001, rport := 5000, ready := true, hdgst := false, ddgst := false, ctl := none, qid := 0, retx := 0, unacked := 4096, cnp := 0 }] }, by decide⟩,
   ⟨3, 512, 0, { ({ h := 3, ctl := some (.hpe 0 0), qid := 1, sqe := { cid := 9, opc := 1, fused := false, nsid := 1, slba := 0, nlb := 1, len := 0, fua := false, deac := false, ranges := [], bufs := [] }, host := 0, cmp := [], phase := .running, seq := 1, todo := [], need := 0, waitLand := [], waitAck := [], waitDur := [], waitCseq := 0, waitSync := [], waitRead := [], waitPart := 0, guard := false, repl := none, st := .success } : Cmd) with ctl := some (.fab 0), need := 512 }, setState .toe 2 { State.reset with hqe.cmds := [{ ({ h := 3, ctl := some (.hpe 0 0), qid := 1, sqe := { cid := 9, opc := 1, fused := false, nsid := 1, slba := 0, nlb := 1, len := 0, fua := false, deac := false, ranges := [], bufs := [] }, host := 0, cmp := [], phase := .running, seq := 1, todo := [], need := 0, waitLand := [], waitAck := [], waitDur := [], waitCseq := 0, waitSync := [], waitRead := [], waitPart := 0, guard := false, repl := none, st := .success } : Cmd) with ctl := some (.fab 0), need := 512 }] }, by decide⟩,
   ⟨2, 4096, { id := 2, port := 1, kind := .tcp, remote := 0xFFFF0A000001, rport := 5000, ready := true, hdgst := false, ddgst := false, ctl := none, qid := 0, retx := 0, unacked := 4096, cnp := 0 }, setState .toe 2 { State.reset with fab.conns := [{ id := 2, port := 1, kind := .tcp, remote := 0xFFFF0A000001, rport := 5000, ready := true, hdgst := false, ddgst := false, ctl := none, qid := 0, retx := 0, unacked := 4096, cnp := 0 }] }, by decide⟩,
   ⟨2, { id := 2, port := 1, kind := .tcp, remote := 0xFFFF0A000001, rport := 5000, ready := true, hdgst := false, ddgst := false, ctl := none, qid := 0, retx := 0, unacked := 4096, cnp := 0 }, setState .toe 2 { State.reset with fab.conns := [{ id := 2, port := 1, kind := .tcp, remote := 0xFFFF0A000001, rport := 5000, ready := true, hdgst := false, ddgst := false, ctl := none, qid := 0, retx := 0, unacked := 4096, cnp := 0 }] }, by decide⟩,
   ⟨2, 7, { id := 2, port := 1, kind := .roce, remote := 0xFFFF0A000001, rport := 5000, ready := true, hdgst := false, ddgst := false, ctl := none, qid := 0, retx := 0, unacked := 4096, cnp := 0 }, setState .toe 2 { State.reset with fab.conns := [{ id := 2, port := 1, kind := .roce, remote := 0xFFFF0A000001, rport := 5000, ready := true, hdgst := false, ddgst := false, ctl := none, qid := 0, retx := 0, unacked := 4096, cnp := 0 }] }, by decide⟩,
   ⟨2, { id := 2, port := 1, kind := .roce, remote := 0xFFFF0A000001, rport := 5000, ready := true, hdgst := false, ddgst := false, ctl := none, qid := 0, retx := 0, unacked := 4096, cnp := 0 }, setState .toe 2 { State.reset with fab.conns := [{ id := 2, port := 1, kind := .roce, remote := 0xFFFF0A000001, rport := 5000, ready := true, hdgst := false, ddgst := false, ctl := none, qid := 0, retx := 0, unacked := 4096, cnp := 0 }] }, by decide⟩⟩

/-- Hypotheses of IoCommandsRunOnTheirNamespace hold together. -/
theorem witness_IoCommandsRunOnTheirNamespace :
    (∃ (h : Nat) (c : Cmd) (x : Namespace) (d : List Byte) (s : State), halted s = false ∧ ioClear h 0x01 { range := true, resv := some true, cap := true, key := true } c x s = true ∧ bufsOk c = true ∧ c.sqe.len = byteLen c s ∧ d.length = c.sqe.len ∧ (unitsIn (byteStart c s) (byteLen c s)).length ≤ freeSlots s ∧ landingIn x.nsid (unitsIn (byteStart c s) (byteLen c s)) s = false ∧ cutHeld x.nsid (unitsIn (byteStart c s) (byteLen c s)).contains s = false) ∧
    (∃ (h : Nat) (c : Cmd) (x : Namespace) (s : State), halted s = false ∧ ioClear h 0x02 { range := true, resv := some false, cap := false, key := false } c x s = true) ∧
    (∃ (h : Nat) (c : Cmd) (x : Namespace) (d : List Byte) (s : State), halted s = false ∧ ioClear h 0x05 { range := true, resv := some false, cap := false, key := false } c x s = true ∧ bufsOk c = true ∧ c.sqe.len = byteLen c s ∧ d.length = c.sqe.len) ∧
    (∃ (h : Nat) (c : Cmd) (x : Namespace) (s : State), halted s = false ∧ ioClear h 0x08 { range := true, resv := some true, cap := false, key := true } c x s = true ∧ s.ftu.admitStop = false ∧ s.par.blocked.contains x.layout = false) ∧
    (∃ (h : Nat) (c : Cmd) (x : Namespace) (s : State), halted s = false ∧ ioClear h 0x09 { range := false, resv := some true, cap := false, key := false } c x s = true ∧ c.sqe.ranges.length ≤ 256 ∧ c.sqe.deac = false) ∧
    (∃ (h : Nat) (c : Cmd) (x : Namespace) (s : State), halted s = false ∧ ioClear h 0x0C { range := true, resv := some false, cap := false, key := false } c x s = true) ∧
    (∃ (h : Nat) (c : Cmd) (x : Namespace) (s : State), halted s = false ∧ ioClear h 0x00 { range := false, resv := some true, cap := false, key := false } c x s = true ∧ c.sqe.nsid ≠ 0xFFFFFFFF) :=
  ⟨⟨3, { h := 3, ctl := none, qid := 1, sqe := { cid := 9, opc := 1, fused := false, nsid := 1, slba := 0, nlb := 1, len := 4096, fua := false, deac := false, ranges := [], bufs := [] }, host := 5, cmp := [], phase := .fetched, seq := 1, todo := [], need := 0, waitLand := [], waitAck := [], waitDur := [], waitCseq := 0, waitSync := [], waitRead := [], waitPart := 0, guard := false, repl := none, st := .success }, { nsid := 1, group := 1, tenant := 0, nsze := 1000, lbaf := 1, cmpMode := 0, cmpLevel := 0, grouping := 0, domain := 0, layout := 0, key := 65537, nextKey := 0, nguid := 7, resv := noResv, mixed := false, oldPct := 0, attrGen := 0, format := none, deleting := none, cloneOf := 0, protect := false }, List.replicate 4096 7, { State.reset with hqe.cmds := [{ h := 3, ctl := none, qid := 1, sqe := { cid := 9, opc := 1, fused := false, nsid := 1, slba := 0, nlb := 1, len := 4096, fua := false, deac := false, ranges := [], bufs := [] }, host := 5, cmp := [], phase := .fetched, seq := 1, todo := [], need := 0, waitLand := [], waitAck := [], waitDur := [], waitCseq := 0, waitSync := [], waitRead := [], waitPart := 0, guard := false, repl := none, st := .success }], hqe.ns := [{ nsid := 1, group := 1, tenant := 0, nsze := 1000, lbaf := 1, cmpMode := 0, cmpLevel := 0, grouping := 0, domain := 0, layout := 0, key := 65537, nextKey := 0, nguid := 7, resv := noResv, mixed := false, oldPct := 0, attrGen := 0, format := none, deleting := none, cloneOf := 0, protect := false }], hqe.groups := [{ id := 1, mine := true, change := false }], cry.data := [(1, { st := .loaded, keyId := 5, key := [1], stored := none })], cry.gens := [(1, 1)] }, by decide, by decide, by decide, by decide, List.length_replicate, by decide, by decide, by decide⟩,
   ⟨3, { h := 3, ctl := none, qid := 1, sqe := { cid := 9, opc := 2, fused := false, nsid := 1, slba := 0, nlb := 1, len := 4096, fua := false, deac := false, ranges := [], bufs := [] }, host := 5, cmp := [], phase := .fetched, seq := 1, todo := [], need := 0, waitLand := [], waitAck := [], waitDur := [], waitCseq := 0, waitSync := [], waitRead := [], waitPart := 0, guard := false, repl := none, st := .success }, { nsid := 1, group := 1, tenant := 0, nsze := 1000, lbaf := 1, cmpMode := 0, cmpLevel := 0, grouping := 0, domain := 0, layout := 0, key := 0, nextKey := 0, nguid := 7, resv := noResv, mixed := false, oldPct := 0, attrGen := 0, format := none, deleting := none, cloneOf := 0, protect := false }, { State.reset with hqe.cmds := [{ h := 3, ctl := none, qid := 1, sqe := { cid := 9, opc := 2, fused := false, nsid := 1, slba := 0, nlb := 1, len := 4096, fua := false, deac := false, ranges := [], bufs := [] }, host := 5, cmp := [], phase := .fetched, seq := 1, todo := [], need := 0, waitLand := [], waitAck := [], waitDur := [], waitCseq := 0, waitSync := [], waitRead := [], waitPart := 0, guard := false, repl := none, st := .success }], hqe.ns := [{ nsid := 1, group := 1, tenant := 0, nsze := 1000, lbaf := 1, cmpMode := 0, cmpLevel := 0, grouping := 0, domain := 0, layout := 0, key := 0, nextKey := 0, nguid := 7, resv := noResv, mixed := false, oldPct := 0, attrGen := 0, format := none, deleting := none, cloneOf := 0, protect := false }], hqe.groups := [{ id := 1, mine := true, change := false }] }, by decide⟩,
   ⟨3, { h := 3, ctl := none, qid := 1, sqe := { cid := 9, opc := 5, fused := false, nsid := 1, slba := 0, nlb := 1, len := 4096, fua := false, deac := false, ranges := [], bufs := [] }, host := 5, cmp := [], phase := .fetched, seq := 1, todo := [], need := 0, waitLand := [], waitAck := [], waitDur := [], waitCseq := 0, waitSync := [], waitRead := [], waitPart := 0, guard := false, repl := none, st := .success }, { nsid := 1, group := 1, tenant := 0, nsze := 1000, lbaf := 1, cmpMode := 0, cmpLevel := 0, grouping := 0, domain := 0, layout := 0, key := 0, nextKey := 0, nguid := 7, resv := noResv, mixed := false, oldPct := 0, attrGen := 0, format := none, deleting := none, cloneOf := 0, protect := false }, List.replicate 4096 7, { State.reset with hqe.cmds := [{ h := 3, ctl := none, qid := 1, sqe := { cid := 9, opc := 5, fused := false, nsid := 1, slba := 0, nlb := 1, len := 4096, fua := false, deac := false, ranges := [], bufs := [] }, host := 5, cmp := [], phase := .fetched, seq := 1, todo := [], need := 0, waitLand := [], waitAck := [], waitDur := [], waitCseq := 0, waitSync := [], waitRead := [], waitPart := 0, guard := false, repl := none, st := .success }], hqe.ns := [{ nsid := 1, group := 1, tenant := 0, nsze := 1000, lbaf := 1, cmpMode := 0, cmpLevel := 0, grouping := 0, domain := 0, layout := 0, key := 0, nextKey := 0, nguid := 7, resv := noResv, mixed := false, oldPct := 0, attrGen := 0, format := none, deleting := none, cloneOf := 0, protect := false }], hqe.groups := [{ id := 1, mine := true, change := false }] }, by decide, by decide, by decide, by decide, List.length_replicate⟩,
   ⟨3, { h := 3, ctl := none, qid := 1, sqe := { cid := 9, opc := 8, fused := false, nsid := 1, slba := 0, nlb := 1, len := 4096, fua := false, deac := false, ranges := [], bufs := [] }, host := 5, cmp := [], phase := .fetched, seq := 1, todo := [], need := 0, waitLand := [], waitAck := [], waitDur := [], waitCseq := 0, waitSync := [], waitRead := [], waitPart := 0, guard := false, repl := none, st := .success }, { nsid := 1, group := 1, tenant := 0, nsze := 1000, lbaf := 1, cmpMode := 0, cmpLevel := 0, grouping := 0, domain := 0, layout := 0, key := 65537, nextKey := 0, nguid := 7, resv := noResv, mixed := false, oldPct := 0, attrGen := 0, format := none, deleting := none, cloneOf := 0, protect := false }, { State.reset with hqe.cmds := [{ h := 3, ctl := none, qid := 1, sqe := { cid := 9, opc := 8, fused := false, nsid := 1, slba := 0, nlb := 1, len := 4096, fua := false, deac := false, ranges := [], bufs := [] }, host := 5, cmp := [], phase := .fetched, seq := 1, todo := [], need := 0, waitLand := [], waitAck := [], waitDur := [], waitCseq := 0, waitSync := [], waitRead := [], waitPart := 0, guard := false, repl := none, st := .success }], hqe.ns := [{ nsid := 1, group := 1, tenant := 0, nsze := 1000, lbaf := 1, cmpMode := 0, cmpLevel := 0, grouping := 0, domain := 0, layout := 0, key := 65537, nextKey := 0, nguid := 7, resv := noResv, mixed := false, oldPct := 0, attrGen := 0, format := none, deleting := none, cloneOf := 0, protect := false }], hqe.groups := [{ id := 1, mine := true, change := false }], cry.data := [(1, { st := .loaded, keyId := 5, key := [1], stored := none })], cry.gens := [(1, 1)] }, by decide⟩,
   ⟨3, { h := 3, ctl := none, qid := 1, sqe := { cid := 9, opc := 9, fused := false, nsid := 1, slba := 0, nlb := 0, len := 0, fua := false, deac := false, ranges := [], bufs := [] }, host := 5, cmp := [], phase := .fetched, seq := 1, todo := [], need := 0, waitLand := [], waitAck := [], waitDur := [], waitCseq := 0, waitSync := [], waitRead := [], waitPart := 0, guard := false, repl := none, st := .success }, { nsid := 1, group := 1, tenant := 0, nsze := 1000, lbaf := 1, cmpMode := 0, cmpLevel := 0, grouping := 0, domain := 0, layout := 0, key := 0, nextKey := 0, nguid := 7, resv := noResv, mixed := false, oldPct := 0, attrGen := 0, format := none, deleting := none, cloneOf := 0, protect := false }, { State.reset with hqe.cmds := [{ h := 3, ctl := none, qid := 1, sqe := { cid := 9, opc := 9, fused := false, nsid := 1, slba := 0, nlb := 0, len := 0, fua := false, deac := false, ranges := [], bufs := [] }, host := 5, cmp := [], phase := .fetched, seq := 1, todo := [], need := 0, waitLand := [], waitAck := [], waitDur := [], waitCseq := 0, waitSync := [], waitRead := [], waitPart := 0, guard := false, repl := none, st := .success }], hqe.ns := [{ nsid := 1, group := 1, tenant := 0, nsze := 1000, lbaf := 1, cmpMode := 0, cmpLevel := 0, grouping := 0, domain := 0, layout := 0, key := 0, nextKey := 0, nguid := 7, resv := noResv, mixed := false, oldPct := 0, attrGen := 0, format := none, deleting := none, cloneOf := 0, protect := false }], hqe.groups := [{ id := 1, mine := true, change := false }] }, by decide⟩,
   ⟨3, { h := 3, ctl := none, qid := 1, sqe := { cid := 9, opc := 12, fused := false, nsid := 1, slba := 0, nlb := 1, len := 4096, fua := false, deac := false, ranges := [], bufs := [] }, host := 5, cmp := [], phase := .fetched, seq := 1, todo := [], need := 0, waitLand := [], waitAck := [], waitDur := [], waitCseq := 0, waitSync := [], waitRead := [], waitPart := 0, guard := false, repl := none, st := .success }, { nsid := 1, group := 1, tenant := 0, nsze := 1000, lbaf := 1, cmpMode := 0, cmpLevel := 0, grouping := 0, domain := 0, layout := 0, key := 0, nextKey := 0, nguid := 7, resv := noResv, mixed := false, oldPct := 0, attrGen := 0, format := none, deleting := none, cloneOf := 0, protect := false }, { State.reset with hqe.cmds := [{ h := 3, ctl := none, qid := 1, sqe := { cid := 9, opc := 12, fused := false, nsid := 1, slba := 0, nlb := 1, len := 4096, fua := false, deac := false, ranges := [], bufs := [] }, host := 5, cmp := [], phase := .fetched, seq := 1, todo := [], need := 0, waitLand := [], waitAck := [], waitDur := [], waitCseq := 0, waitSync := [], waitRead := [], waitPart := 0, guard := false, repl := none, st := .success }], hqe.ns := [{ nsid := 1, group := 1, tenant := 0, nsze := 1000, lbaf := 1, cmpMode := 0, cmpLevel := 0, grouping := 0, domain := 0, layout := 0, key := 0, nextKey := 0, nguid := 7, resv := noResv, mixed := false, oldPct := 0, attrGen := 0, format := none, deleting := none, cloneOf := 0, protect := false }], hqe.groups := [{ id := 1, mine := true, change := false }] }, by decide⟩,
   ⟨3, { h := 3, ctl := none, qid := 1, sqe := { cid := 9, opc := 0, fused := false, nsid := 1, slba := 0, nlb := 0, len := 0, fua := false, deac := false, ranges := [], bufs := [] }, host := 5, cmp := [], phase := .fetched, seq := 1, todo := [], need := 0, waitLand := [], waitAck := [], waitDur := [], waitCseq := 0, waitSync := [], waitRead := [], waitPart := 0, guard := false, repl := none, st := .success }, { nsid := 1, group := 1, tenant := 0, nsze := 1000, lbaf := 1, cmpMode := 0, cmpLevel := 0, grouping := 0, domain := 0, layout := 0, key := 0, nextKey := 0, nguid := 7, resv := noResv, mixed := false, oldPct := 0, attrGen := 0, format := none, deleting := none, cloneOf := 0, protect := false }, { State.reset with hqe.cmds := [{ h := 3, ctl := none, qid := 1, sqe := { cid := 9, opc := 0, fused := false, nsid := 1, slba := 0, nlb := 0, len := 0, fua := false, deac := false, ranges := [], bufs := [] }, host := 5, cmp := [], phase := .fetched, seq := 1, todo := [], need := 0, waitLand := [], waitAck := [], waitDur := [], waitCseq := 0, waitSync := [], waitRead := [], waitPart := 0, guard := false, repl := none, st := .success }], hqe.ns := [{ nsid := 1, group := 1, tenant := 0, nsze := 1000, lbaf := 1, cmpMode := 0, cmpLevel := 0, grouping := 0, domain := 0, layout := 0, key := 0, nextKey := 0, nguid := 7, resv := noResv, mixed := false, oldPct := 0, attrGen := 0, format := none, deleting := none, cloneOf := 0, protect := false }], hqe.groups := [{ id := 1, mine := true, change := false }] }, by decide⟩⟩

/-- Hypotheses of ReservationsFollowTheRegistrants hold together. -/
theorem witness_ReservationsFollowTheRegistrants :
    (∃ (h k nk : Nat) (c : Cmd) (x : Namespace) (s : State), halted s = false ∧ ioClear h 0x0D resvNeed c x s = true ∧ isReg x.resv (hostOf c s) = false) ∧
    (∃ (h k nk : Nat) (ig : Bool) (pt : Option Bool) (c : Cmd) (x : Namespace) (s : State), halted s = false ∧ ioClear h 0x0D resvNeed c x s = true ∧ isReg x.resv (hostOf c s) = false) ∧
    (∃ (h : Nat) (c : Cmd) (x : Namespace) (s : State), halted s = false ∧ ioClear h 0x0E resvNeed c x s = true) ∧
    (∃ (h t k pk : Nat) (c : Cmd) (x : Namespace) (s : State), halted s = false ∧ ioClear h 0x11 resvNeed c x s = true ∧ 1 ≤ t ∧ t ≤ 6 ∧ keyOf x.resv (hostOf c s) = some k ∧ x.resv.holder = none) ∧
    (∃ (h k : Nat) (c : Cmd) (x : Namespace) (s : State), halted s = false ∧ ioClear h 0x15 resvNeed c x s = true ∧ keyOf x.resv (hostOf c s) = some k ∧ x.resv.holder = some (hostOf c s)) ∧
    (∃ (h t k pk : Nat) (c : Cmd) (x : Namespace) (s : State), halted s = false ∧ ioClear h 0x11 resvNeed c x s = true ∧ 1 ≤ t ∧ t ≤ 6 ∧ keyOf x.resv (hostOf c s) ≠ some k) :=
  ⟨⟨3, 0, 11, { h := 3, ctl := none, qid := 1, sqe := { cid := 9, opc := 13, fused := false, nsid := 1, slba := 0, nlb := 0, len := 0, fua := false, deac := false, ranges := [], bufs := [] }, host := 5, cmp := [], phase := .fetched, seq := 1, todo := [], need := 0, waitLand := [], waitAck := [], waitDur := [], waitCseq := 0, waitSync := [], waitRead := [], waitPart := 0, guard := false, repl := none, st := .success }, { nsid := 1, group := 1, tenant := 0, nsze := 1000, lbaf := 1, cmpMode := 0, cmpLevel := 0, grouping := 0, domain := 0, layout := 0, key := 0, nextKey := 0, nguid := 7, resv := noResv, mixed := false, oldPct := 0, attrGen := 0, format := none, deleting := none, cloneOf := 0, protect := false }, { State.reset with hqe.cmds := [{ h := 3, ctl := none, qid := 1, sqe := { cid := 9, opc := 13, fused := false, nsid := 1, slba := 0, nlb := 0, len := 0, fua := false, deac := false, ranges := [], bufs := [] }, host := 5, cmp := [], phase := .fetched, seq := 1, todo := [], need := 0, waitLand := [], waitAck := [], waitDur := [], waitCseq := 0, waitSync := [], waitRead := [], waitPart := 0, guard := false, repl := none, st := .success }], hqe.ns := [{ nsid := 1, group := 1, tenant := 0, nsze := 1000, lbaf := 1, cmpMode := 0, cmpLevel := 0, grouping := 0, domain := 0, layout := 0, key := 0, nextKey := 0, nguid := 7, resv := noResv, mixed := false, oldPct := 0, attrGen := 0, format := none, deleting := none, cloneOf := 0, protect := false }], hqe.groups := [{ id := 1, mine := true, change := false }] }, by decide⟩,
   ⟨3, 0, 11, false, none, { h := 3, ctl := none, qid := 1, sqe := { cid := 9, opc := 13, fused := false, nsid := 1, slba := 0, nlb := 0, len := 0, fua := false, deac := false, ranges := [], bufs := [] }, host := 5, cmp := [], phase := .fetched, seq := 1, todo := [], need := 0, waitLand := [], waitAck := [], waitDur := [], waitCseq := 0, waitSync := [], waitRead := [], waitPart := 0, guard := false, repl := none, st := .success }, { nsid := 1, group := 1, tenant := 0, nsze := 1000, lbaf := 1, cmpMode := 0, cmpLevel := 0, grouping := 0, domain := 0, layout := 0, key := 0, nextKey := 0, nguid := 7, resv := noResv, mixed := false, oldPct := 0, attrGen := 0, format := none, deleting := none, cloneOf := 0, protect := false }, { State.reset with hqe.cmds := [{ h := 3, ctl := none, qid := 1, sqe := { cid := 9, opc := 13, fused := false, nsid := 1, slba := 0, nlb := 0, len := 0, fua := false, deac := false, ranges := [], bufs := [] }, host := 5, cmp := [], phase := .fetched, seq := 1, todo := [], need := 0, waitLand := [], waitAck := [], waitDur := [], waitCseq := 0, waitSync := [], waitRead := [], waitPart := 0, guard := false, repl := none, st := .success }], hqe.ns := [{ nsid := 1, group := 1, tenant := 0, nsze := 1000, lbaf := 1, cmpMode := 0, cmpLevel := 0, grouping := 0, domain := 0, layout := 0, key := 0, nextKey := 0, nguid := 7, resv := noResv, mixed := false, oldPct := 0, attrGen := 0, format := none, deleting := none, cloneOf := 0, protect := false }], hqe.groups := [{ id := 1, mine := true, change := false }] }, by decide⟩,
   ⟨3, { h := 3, ctl := none, qid := 1, sqe := { cid := 9, opc := 14, fused := false, nsid := 1, slba := 0, nlb := 0, len := 0, fua := false, deac := false, ranges := [], bufs := [] }, host := 5, cmp := [], phase := .fetched, seq := 1, todo := [], need := 0, waitLand := [], waitAck := [], waitDur := [], waitCseq := 0, waitSync := [], waitRead := [], waitPart := 0, guard := false, repl := none, st := .success }, { nsid := 1, group := 1, tenant := 0, nsze := 1000, lbaf := 1, cmpMode := 0, cmpLevel := 0, grouping := 0, domain := 0, layout := 0, key := 0, nextKey := 0, nguid := 7, resv := noResv, mixed := false, oldPct := 0, attrGen := 0, format := none, deleting := none, cloneOf := 0, protect := false }, { State.reset with hqe.cmds := [{ h := 3, ctl := none, qid := 1, sqe := { cid := 9, opc := 14, fused := false, nsid := 1, slba := 0, nlb := 0, len := 0, fua := false, deac := false, ranges := [], bufs := [] }, host := 5, cmp := [], phase := .fetched, seq := 1, todo := [], need := 0, waitLand := [], waitAck := [], waitDur := [], waitCseq := 0, waitSync := [], waitRead := [], waitPart := 0, guard := false, repl := none, st := .success }], hqe.ns := [{ nsid := 1, group := 1, tenant := 0, nsze := 1000, lbaf := 1, cmpMode := 0, cmpLevel := 0, grouping := 0, domain := 0, layout := 0, key := 0, nextKey := 0, nguid := 7, resv := noResv, mixed := false, oldPct := 0, attrGen := 0, format := none, deleting := none, cloneOf := 0, protect := false }], hqe.groups := [{ id := 1, mine := true, change := false }] }, by decide⟩,
   ⟨3, 6, 11, 0, { h := 3, ctl := none, qid := 1, sqe := { cid := 9, opc := 17, fused := false, nsid := 1, slba := 0, nlb := 0, len := 0, fua := false, deac := false, ranges := [], bufs := [] }, host := 5, cmp := [], phase := .fetched, seq := 1, todo := [], need := 0, waitLand := [], waitAck := [], waitDur := [], waitCseq := 0, waitSync := [], waitRead := [], waitPart := 0, guard := false, repl := none, st := .success }, { nsid := 1, group := 1, tenant := 0, nsze := 1000, lbaf := 1, cmpMode := 0, cmpLevel := 0, grouping := 0, domain := 0, layout := 0, key := 0, nextKey := 0, nguid := 7, resv := { regs := [(5, 11)], holder := none, rtype := 0, gen := 1, ptpl := false }, mixed := false, oldPct := 0, attrGen := 0, format := none, deleting := none, cloneOf := 0, protect := false }, { State.reset with hqe.cmds := [{ h := 3, ctl := none, qid := 1, sqe := { cid := 9, opc := 17, fused := false, nsid := 1, slba := 0, nlb := 0, len := 0, fua := false, deac := false, ranges := [], bufs := [] }, host := 5, cmp := [], phase := .fetched, seq := 1, todo := [], need := 0, waitLand := [], waitAck := [], waitDur := [], waitCseq := 0, waitSync := [], waitRead := [], waitPart := 0, guard := false, repl := none, st := .success }], hqe.ns := [{ nsid := 1, group := 1, tenant := 0, nsze := 1000, lbaf := 1, cmpMode := 0, cmpLevel := 0, grouping := 0, domain := 0, layout := 0, key := 0, nextKey := 0, nguid := 7, resv := { regs := [(5, 11)], holder := none, rtype := 0, gen := 1, ptpl := false }, mixed := false, oldPct := 0, attrGen := 0, format := none, deleting := none, cloneOf := 0, protect := false }], hqe.groups := [{ id := 1, mine := true, change := false }] }, by decide⟩,
   ⟨3, 11, { h := 3, ctl := none, qid := 1, sqe := { cid := 9, opc := 21, fused := false, nsid := 1, slba := 0, nlb := 0, len := 0, fua := false, deac := false, ranges := [], bufs := [] }, host := 5, cmp := [], phase := .fetched, seq := 1, todo := [], need := 0, waitLand := [], waitAck := [], waitDur := [], waitCseq := 0, waitSync := [], waitRead := [], waitPart := 0, guard := false, repl := none, st := .success }, { nsid := 1, group := 1, tenant := 0, nsze := 1000, lbaf := 1, cmpMode := 0, cmpLevel := 0, grouping := 0, domain := 0, layout := 0, key := 0, nextKey := 0, nguid := 7, resv := { regs := [(5, 11)], holder := some 5, rtype := 1, gen := 1, ptpl := false }, mixed := false, oldPct := 0, attrGen := 0, format := none, deleting := none, cloneOf := 0, protect := false }, { State.reset with hqe.cmds := [{ h := 3, ctl := none, qid := 1, sqe := { cid := 9, opc := 21, fused := false, nsid := 1, slba := 0, nlb := 0, len := 0, fua := false, deac := false, ranges := [], bufs := [] }, host := 5, cmp := [], phase := .fetched, seq := 1, todo := [], need := 0, waitLand := [], waitAck := [], waitDur := [], waitCseq := 0, waitSync := [], waitRead := [], waitPart := 0, guard := false, repl := none, st := .success }], hqe.ns := [{ nsid := 1, group := 1, tenant := 0, nsze := 1000, lbaf := 1, cmpMode := 0, cmpLevel := 0, grouping := 0, domain := 0, layout := 0, key := 0, nextKey := 0, nguid := 7, resv := { regs := [(5, 11)], holder := some 5, rtype := 1, gen := 1, ptpl := false }, mixed := false, oldPct := 0, attrGen := 0, format := none, deleting := none, cloneOf := 0, protect := false }], hqe.groups := [{ id := 1, mine := true, change := false }] }, by decide⟩,
   ⟨3, 1, 11, 0, { h := 3, ctl := none, qid := 1, sqe := { cid := 9, opc := 17, fused := false, nsid := 1, slba := 0, nlb := 0, len := 0, fua := false, deac := false, ranges := [], bufs := [] }, host := 5, cmp := [], phase := .fetched, seq := 1, todo := [], need := 0, waitLand := [], waitAck := [], waitDur := [], waitCseq := 0, waitSync := [], waitRead := [], waitPart := 0, guard := false, repl := none, st := .success }, { nsid := 1, group := 1, tenant := 0, nsze := 1000, lbaf := 1, cmpMode := 0, cmpLevel := 0, grouping := 0, domain := 0, layout := 0, key := 0, nextKey := 0, nguid := 7, resv := noResv, mixed := false, oldPct := 0, attrGen := 0, format := none, deleting := none, cloneOf := 0, protect := false }, { State.reset with hqe.cmds := [{ h := 3, ctl := none, qid := 1, sqe := { cid := 9, opc := 17, fused := false, nsid := 1, slba := 0, nlb := 0, len := 0, fua := false, deac := false, ranges := [], bufs := [] }, host := 5, cmp := [], phase := .fetched, seq := 1, todo := [], need := 0, waitLand := [], waitAck := [], waitDur := [], waitCseq := 0, waitSync := [], waitRead := [], waitPart := 0, guard := false, repl := none, st := .success }], hqe.ns := [{ nsid := 1, group := 1, tenant := 0, nsze := 1000, lbaf := 1, cmpMode := 0, cmpLevel := 0, grouping := 0, domain := 0, layout := 0, key := 0, nextKey := 0, nguid := 7, resv := noResv, mixed := false, oldPct := 0, attrGen := 0, format := none, deleting := none, cloneOf := 0, protect := false }], hqe.groups := [{ id := 1, mine := true, change := false }] }, by decide⟩⟩

/-- Hypotheses of FormatAndSanitizeRunToTheirEnd hold together. -/
theorem witness_FormatAndSanitizeRunToTheirEnd :
    (∃ (q tag n l e : Nat) (x : Namespace) (s : State), halted s = false ∧ mgmtReady q tag 0x0021 s = true ∧ nsOf n s = some x ∧ x.deleting = none ∧ ownsNs x s = true ∧ l ≤ 1 ∧ e ≤ 1 ∧ sanActive s = false ∧ x.format = none) ∧
    (∃ (h n l e : Nat) (k : Ctl) (m : Cmd) (x : Namespace) (s : State), halted s = false ∧ adminReady h 0x80 s = some m ∧ m.ctl = some k ∧ sanActive s = false ∧ nsOf n s = some x ∧ x.deleting = none ∧ x.tenant = tenantOf k s ∧ l ≤ 1 ∧ e ≤ 1 ∧ ownsNs x s = true ∧ x.format = none) ∧
    (∃ (n : Nat) (x : Namespace) (f : FormatOp) (s : State), halted s = false ∧ nsOf n s = some x ∧ x.format = some f ∧ f.begun = false ∧ f.ses = 0 ∧ nsBusy n f.since s = false) ∧
    (∃ (n : Nat) (x : Namespace) (f : FormatOp) (s : State), halted s = false ∧ nsOf n s = some x ∧ x.format = some f ∧ f.begun = true ∧ f.ses = 0 ∧ f.mgmt = none ∧ f.bands = [] ∧ f.cseq ≤ s.ftu.cack ∧ s.cry.purges = []) ∧
    (∃ (q tag a : Nat) (au : Bool) (s : State), halted s = false ∧ mgmtReady q tag 0x0020 s = true ∧ (a = 2 ∨ a = 4) ∧ sanActive s = false) ∧
    (∃ (q tag : Nat) (au : Bool) (s : State), halted s = false ∧ mgmtReady q tag 0x0020 s = true ∧ sanActive s = false ∧ s.hqe.sanFail ≠ some false) ∧
    (∃ (h a : Nat) (au : Bool) (k : Ctl) (m : Cmd) (s : State), halted s = false ∧ adminReady h 0x84 s = some m ∧ m.ctl = some k ∧ getF F.hqeCtrlHostSan s = 1 ∧ (a = 2 ∨ a = 4) ∧ sanActive s = false) ∧
    (∃ (ok : Bool) (p : Progress) (s : State), halted s = false ∧ s.hqe.progress.find? (fun p => p.kind == 1 && p.state == 1) = some p ∧ (sendTroys (.progress p.action (if ok then 2 else 3)) (sanEnd p.action p.ause ok s)).hqe.sanMgmt = none) ∧
    (∃ (s : State), halted s = false) ∧
    (∃ (s : State), s.cry.purges = []) :=
  ⟨⟨1, 7, 1, 1, 1, { nsid := 1, group := 1, tenant := 0, nsze := 1000, lbaf := 1, cmpMode := 0, cmpLevel := 0, grouping := 0, domain := 0, layout := 0, key := 0, nextKey := 0, nguid := 7, resv := noResv, mixed := false, oldPct := 0, attrGen := 0, format := none, deleting := none, cloneOf := 0, protect := false }, { State.reset with mgmt.cmds := [{ q := 1, tag := 7, opcode := 0x21, fence := false, dataLen := 0, started := false, reject := none, unposted := false }], hqe.ns := [{ nsid := 1, group := 1, tenant := 0, nsze := 1000, lbaf := 1, cmpMode := 0, cmpLevel := 0, grouping := 0, domain := 0, layout := 0, key := 0, nextKey := 0, nguid := 7, resv := noResv, mixed := false, oldPct := 0, attrGen := 0, format := none, deleting := none, cloneOf := 0, protect := false }], hqe.groups := [{ id := 1, mine := true, change := false }] }, by decide⟩,
   ⟨3, 1, 1, 0, .hpe 0 0, { h := 3, ctl := some (.hpe 0 0), qid := 0, sqe := { cid := 9, opc := 128, fused := false, nsid := 0, slba := 0, nlb := 1, len := 0, fua := false, deac := false, ranges := [], bufs := [] }, host := 0, cmp := [], phase := .fetched, seq := 1, todo := [], need := 0, waitLand := [], waitAck := [], waitDur := [], waitCseq := 0, waitSync := [], waitRead := [], waitPart := 0, guard := false, repl := none, st := .success }, { nsid := 1, group := 1, tenant := 0, nsze := 1000, lbaf := 1, cmpMode := 0, cmpLevel := 0, grouping := 0, domain := 0, layout := 0, key := 0, nextKey := 0, nguid := 7, resv := noResv, mixed := false, oldPct := 0, attrGen := 0, format := none, deleting := none, cloneOf := 0, protect := false }, { { State.reset with hqe.ctls := [{ newCtl (.hpe 0 0) 64 0 0 false true with rdy := true }], hqe.cmds := [{ h := 3, ctl := some (.hpe 0 0), qid := 0, sqe := { cid := 9, opc := 128, fused := false, nsid := 0, slba := 0, nlb := 1, len := 0, fua := false, deac := false, ranges := [], bufs := [] }, host := 0, cmp := [], phase := .fetched, seq := 1, todo := [], need := 0, waitLand := [], waitAck := [], waitDur := [], waitCseq := 0, waitSync := [], waitRead := [], waitPart := 0, guard := false, repl := none, st := .success }] } with hqe.ns := [{ nsid := 1, group := 1, tenant := 0, nsze := 1000, lbaf := 1, cmpMode := 0, cmpLevel := 0, grouping := 0, domain := 0, layout := 0, key := 0, nextKey := 0, nguid := 7, resv := noResv, mixed := false, oldPct := 0, attrGen := 0, format := none, deleting := none, cloneOf := 0, protect := false }], hqe.groups := [{ id := 1, mine := true, change := false }] }, by decide⟩,
   ⟨1, { nsid := 1, group := 1, tenant := 0, nsze := 1000, lbaf := 1, cmpMode := 0, cmpLevel := 0, grouping := 0, domain := 0, layout := 0, key := 0, nextKey := 0, nguid := 7, resv := noResv, mixed := false, oldPct := 0, attrGen := 0, format := some { cmd := none, begun := false, mgmt := some (1, 7), lbaf := 0, ses := 0, since := 2, cseq := 0, bands := [] }, deleting := none, cloneOf := 0, protect := false }, { cmd := none, begun := false, mgmt := some (1, 7), lbaf := 0, ses := 0, since := 2, cseq := 0, bands := [] }, { State.reset with hqe.ns := [{ nsid := 1, group := 1, tenant := 0, nsze := 1000, lbaf := 1, cmpMode := 0, cmpLevel := 0, grouping := 0, domain := 0, layout := 0, key := 0, nextKey := 0, nguid := 7, resv := noResv, mixed := false, oldPct := 0, attrGen := 0, format := some { cmd := none, begun := false, mgmt := some (1, 7), lbaf := 0, ses := 0, since := 2, cseq := 0, bands := [] }, deleting := none, cloneOf := 0, protect := false }], hqe.groups := [{ id := 1, mine := true, change := false }] }, by decide⟩,
   ⟨1, { nsid := 1, group := 1, tenant := 0, nsze := 1000, lbaf := 1, cmpMode := 0, cmpLevel := 0, grouping := 0, domain := 0, layout := 0, key := 0, nextKey := 0, nguid := 7, resv := noResv, mixed := false, oldPct := 0, attrGen := 0, format := some { cmd := some 3, begun := true, mgmt := none, lbaf := 0, ses := 0, since := 2, cseq := 0, bands := [] }, deleting := none, cloneOf := 0, protect := false }, { cmd := some 3, begun := true, mgmt := none, lbaf := 0, ses := 0, since := 2, cseq := 0, bands := [] }, { State.reset with hqe.ns := [{ nsid := 1, group := 1, tenant := 0, nsze := 1000, lbaf := 1, cmpMode := 0, cmpLevel := 0, grouping := 0, domain := 0, layout := 0, key := 0, nextKey := 0, nguid := 7, resv := noResv, mixed := false, oldPct := 0, attrGen := 0, format := some { cmd := some 3, begun := true, mgmt := none, lbaf := 0, ses := 0, since := 2, cseq := 0, bands := [] }, deleting := none, cloneOf := 0, protect := false }], hqe.groups := [{ id := 1, mine := true, change := false }] }, by decide⟩,
   ⟨1, 7, 4, true, { State.reset with mgmt.cmds := [{ q := 1, tag := 7, opcode := 0x20, fence := false, dataLen := 0, started := false, reject := none, unposted := false }] }, by decide⟩,
   ⟨1, 7, true, { State.reset with mgmt.cmds := [{ q := 1, tag := 7, opcode := 0x20, fence := false, dataLen := 0, started := false, reject := none, unposted := false }] }, by decide⟩,
   ⟨3, 2, true, .hpe 0 0, { h := 3, ctl := some (.hpe 0 0), qid := 0, sqe := { cid := 9, opc := 132, fused := false, nsid := 0, slba := 0, nlb := 1, len := 0, fua := false, deac := false, ranges := [], bufs := [] }, host := 0, cmp := [], phase := .fetched, seq := 1, todo := [], need := 0, waitLand := [], waitAck := [], waitDur := [], waitCseq := 0, waitSync := [], waitRead := [], waitPart := 0, guard := false, repl := none, st := .success }, setF F.hqeCtrlHostSan 1 { State.reset with hqe.ctls := [{ newCtl (.hpe 0 0) 64 0 0 false true with rdy := true }], hqe.cmds := [{ h := 3, ctl := some (.hpe 0 0), qid := 0, sqe := { cid := 9, opc := 132, fused := false, nsid := 0, slba := 0, nlb := 1, len := 0, fua := false, deac := false, ranges := [], bufs := [] }, host := 0, cmp := [], phase := .fetched, seq := 1, todo := [], need := 0, waitLand := [], waitAck := [], waitDur := [], waitCseq := 0, waitSync := [], waitRead := [], waitPart := 0, guard := false, repl := none, st := .success }] }, by decide⟩,
   ⟨true, { kind := 1, action := 2, state := 1, nsid := 0xFFFFFFFF, cursor := 0, progress := 0, ause := false, gen := 1 }, { State.reset with hqe.progress := [{ kind := 1, action := 2, state := 1, nsid := 0xFFFFFFFF, cursor := 0, progress := 0, ause := false, gen := 1 }] }, by decide⟩,
   ⟨State.reset, by decide⟩,
   ⟨State.reset, by decide⟩⟩

/-- Hypotheses of NamespacesAndGroupsAreManaged hold together. -/
theorem witness_NamespacesAndGroupsAreManaged :
    (∃ (q tag : Nat) (b : NsCreateBody) (g : AnaGroup) (s : State), halted s = false ∧ mgmtReady q tag 0x0010 s = true ∧ 1 ≤ b.nsid ∧ b.nsid ≤ 32768 ∧ 1 ≤ b.group ∧ b.group ≤ 1024 ∧ b.tenant ≤ 4091 ∧ b.nsze ≠ 0 ∧ b.lbaf = 1 ∧ b.cmpMode = 0 ∧ b.grouping ≤ 1 ∧ b.domain ≤ 16383 ∧ b.layout ≤ 7 ∧ classOn b.layout s = true ∧ b.nsze ≤ 2 ^ 52 ∧ groupOf b.group s = some g ∧ g.mine = true ∧ sanActive s = false ∧ troysUp s = true ∧ nsidTaken b.nsid s = false ∧ b.key = 0 ∧ b.nextKey = 0) ∧
    (∃ (q tag n : Nat) (x : Namespace) (s : State), halted s = false ∧ mgmtReady q tag 0x0011 s = true ∧ nsOf n s = some x ∧ x.deleting = none ∧ ownsNs x s = true ∧ x.format = none ∧ sanActive s = false ∧ s.eph.epochs = []) ∧
    (∃ (q tag : Nat) (b : NsModifyBody) (x : Namespace) (s : State), halted s = false ∧ mgmtReady q tag 0x0012 s = true ∧ b.action = 0 ∧ nsOf b.nsid s = some x ∧ x.deleting = none ∧ ownsNs x s = true ∧ b.valid = 1 ∧ unitsOf { x with nsze := b.nsze } ≤ 2 ^ 52 ∧ x.format = none ∧ sanActive s = false ∧ x.nsze ≤ b.nsze) ∧
    (∃ (q tag g : Nat) (s : State), halted s = false ∧ mgmtReady q tag 0x0013 s = true ∧ 1 ≤ g ∧ g ≤ 1024 ∧ groupOf g s = none ∧ troysUp s = true ∧ s.hqe.reserving.contains (1, g) = false) ∧
    (∃ (q tag g : Nat) (x : AnaGroup) (s : State), halted s = false ∧ mgmtReady q tag 0x0013 s = true ∧ 1 ≤ g ∧ g ≤ 1024 ∧ groupOf g s = some x ∧ x.mine = true ∧ troysUp s = true ∧ s.hqe.ns.any (fun x => x.group == g) = false) :=
  ⟨⟨1, 7, { nsid := 32768, group := 1, tenant := 0, nsze := 1000, lbaf := 1, cmpMode := 0, cmpLevel := 0, grouping := 0, domain := 0, layout := 0, key := 0, nextKey := 0, nguid := 7 }, { id := 1, mine := true, change := false }, setF (F.tlLinkStatUp 0) 1 { State.reset with mgmt.cmds := [{ q := 1, tag := 7, opcode := 0x10, fence := false, dataLen := 0, started := false, reject := none, unposted := false }], hqe.groups := [{ id := 1, mine := true, change := false }] }, by decide⟩,
   ⟨1, 7, 1, { nsid := 1, group := 1, tenant := 0, nsze := 1000, lbaf := 1, cmpMode := 0, cmpLevel := 0, grouping := 0, domain := 0, layout := 0, key := 0, nextKey := 0, nguid := 7, resv := noResv, mixed := false, oldPct := 0, attrGen := 0, format := none, deleting := none, cloneOf := 0, protect := false }, { State.reset with mgmt.cmds := [{ q := 1, tag := 7, opcode := 0x11, fence := false, dataLen := 0, started := false, reject := none, unposted := false }], hqe.ns := [{ nsid := 1, group := 1, tenant := 0, nsze := 1000, lbaf := 1, cmpMode := 0, cmpLevel := 0, grouping := 0, domain := 0, layout := 0, key := 0, nextKey := 0, nguid := 7, resv := noResv, mixed := false, oldPct := 0, attrGen := 0, format := none, deleting := none, cloneOf := 0, protect := false }], hqe.groups := [{ id := 1, mine := true, change := false }] }, by decide⟩,
   ⟨1, 7, { nsid := 1, tenant := 0, action := 0, valid := 1, nsze := 2000, cmpMode := 0, cmpLevel := 0, grouping := 0, layout := 0, nextKey := 0, nqn := [] }, { nsid := 1, group := 1, tenant := 0, nsze := 1000, lbaf := 1, cmpMode := 0, cmpLevel := 0, grouping := 0, domain := 0, layout := 0, key := 0, nextKey := 0, nguid := 7, resv := noResv, mixed := false, oldPct := 0, attrGen := 0, format := none, deleting := none, cloneOf := 0, protect := false }, { State.reset with mgmt.cmds := [{ q := 1, tag := 7, opcode := 0x12, fence := false, dataLen := 0, started := false, reject := none, unposted := false }], hqe.ns := [{ nsid := 1, group := 1, tenant := 0, nsze := 1000, lbaf := 1, cmpMode := 0, cmpLevel := 0, grouping := 0, domain := 0, layout := 0, key := 0, nextKey := 0, nguid := 7, resv := noResv, mixed := false, oldPct := 0, attrGen := 0, format := none, deleting := none, cloneOf := 0, protect := false }], hqe.groups := [{ id := 1, mine := true, change := false }] }, by decide⟩,
   ⟨1, 7, 1024, setF (F.tlLinkStatUp 0) 1 { State.reset with mgmt.cmds := [{ q := 1, tag := 7, opcode := 0x13, fence := false, dataLen := 0, started := false, reject := none, unposted := false }], hqe.ns := [{ nsid := 1, group := 1, tenant := 0, nsze := 1000, lbaf := 1, cmpMode := 0, cmpLevel := 0, grouping := 0, domain := 0, layout := 0, key := 0, nextKey := 0, nguid := 7, resv := noResv, mixed := false, oldPct := 0, attrGen := 0, format := none, deleting := none, cloneOf := 0, protect := false }], hqe.groups := [{ id := 1, mine := true, change := false }] }, by decide⟩,
   ⟨1, 7, 1, { id := 1, mine := true, change := false }, setF (F.tlLinkStatUp 0) 1 { State.reset with mgmt.cmds := [{ q := 1, tag := 7, opcode := 0x13, fence := false, dataLen := 0, started := false, reject := none, unposted := false }], hqe.groups := [{ id := 1, mine := true, change := false }] }, by decide⟩⟩

/-- Hypotheses of SlotsFillAndEnterDestage hold together. -/
theorem witness_SlotsFillAndEnterDestage :
    (∃ (n : Nat) (x : Slot) (s : State), halted s = false ∧ tget? s.wb.own n = some x ∧ x.st = .landing ∧ x.landed = true ∧ x.acked = false) ∧
    (∃ (n : Nat) (x : Slot) (s : State), tget? s.wb.own n = some x ∧ x.st = .landing ∧ x.landed = true ∧ x.acked = true ∧ x.replaced = false ∧ s.wb.own.find? (fun p => p.1 != n && indexed x.nsid x.unit p) = none) ∧
    (∃ (n : Nat) (x : Slot) (s : State), halted s = false ∧ tget? s.wb.own n = some x ∧ x.st = .releasing) ∧
    (∃ (n : Nat) (x : Slot) (s : State), halted s = false ∧ tget? s.wb.own n = some x ∧ running .ftu s = true ∧ s.txn.holding = none ∧ ready (n, x) = true ∧ due x s = true ∧ firstInLine x s = true ∧ s.wb.units.length < 8192 ∧ x.mask = 0xFF) ∧
    (∃ (u : Nat) (d : DestUnit) (s : State), halted s = false ∧ unitOf u s = some d ∧ d.stage = .fingerprint ∧ running .dge s = true ∧ getF F.dgeCtrlUnitEn s = 1 ∧ (List.range 16).any (fun l => laneUsable .dge l s) = true) ∧
    (∃ (s : State), halted s = false ∧ filterSat s ≤ 1024) ∧
    (∃ (s : State), halted s = false ∧ 1024 < filterSat s) :=
  ⟨⟨0, { nsid := 1, unit := 5, seq := 1, st := .landing, mask := 0xFF, durable := true, landed := true, acked := false, shadow := false, replaced := false, fillDone := false, cmd := 0, filledAt := 0, data := [] }, { State.reset with wb.own := [(0, { nsid := 1, unit := 5, seq := 1, st := .landing, mask := 0xFF, durable := true, landed := true, acked := false, shadow := false, replaced := false, fillDone := false, cmd := 0, filledAt := 0, data := [] })] }, by decide⟩,
   ⟨0, { nsid := 1, unit := 5, seq := 1, st := .landing, mask := 0xFF, durable := true, landed := true, acked := true, shadow := false, replaced := false, fillDone := false, cmd := 0, filledAt := 0, data := [] }, { State.reset with wb.own := [(0, { nsid := 1, unit := 5, seq := 1, st := .landing, mask := 0xFF, durable := true, landed := true, acked := true, shadow := false, replaced := false, fillDone := false, cmd := 0, filledAt := 0, data := [] })] }, by decide⟩,
   ⟨0, { nsid := 1, unit := 5, seq := 1, st := .releasing, mask := 0xFF, durable := true, landed := true, acked := true, shadow := false, replaced := false, fillDone := false, cmd := 0, filledAt := 0, data := [] }, { State.reset with wb.own := [(0, { nsid := 1, unit := 5, seq := 1, st := .releasing, mask := 0xFF, durable := true, landed := true, acked := true, shadow := false, replaced := false, fillDone := false, cmd := 0, filledAt := 0, data := [] })] }, by decide⟩,
   ⟨0, { nsid := 1, unit := 5, seq := 1, st := .filled, mask := 0xFF, durable := true, landed := true, acked := true, shadow := false, replaced := false, fillDone := false, cmd := 0, filledAt := 0, data := [] }, setState .ftu 2 ({ State.reset with wb.own := [(0, { nsid := 1, unit := 5, seq := 1, st := .filled, mask := 0xFF, durable := true, landed := true, acked := true, shadow := false, replaced := false, fillDone := false, cmd := 0, filledAt := 0, data := [] })] }), by decide⟩,
   ⟨1, { id := 1, src := .slot 0, nsid := 1, unit := 5, seq := 1, stage := .fingerprint, data := [7], zero := false, fp := [], dup := none, own := none, grp := none, mode := 0, body := [], key := 0, gen := 0, uaddr := 0, mem := 0, cls := 0, durable := false }, setF F.dgeCtrlUnitEn 1 (setState .dge 2 ({ State.reset with wb.units := [{ id := 1, src := .slot 0, nsid := 1, unit := 5, seq := 1, stage := .fingerprint, data := [7], zero := false, fp := [], dup := none, own := none, grp := none, mode := 0, body := [], key := 0, gen := 0, uaddr := 0, mem := 0, cls := 0, durable := false }] })), by decide⟩,
   ⟨State.reset, by decide⟩,
   ⟨{ State.reset with wb.filter := List.replicate 1025 (0, 15) }, by decide, by rw [filterSat]; simp⟩⟩

/-- Hypotheses of IndexDecidesAndKeepsItsTiers hold together. -/
theorem witness_IndexDecidesAndKeepsItsTiers :
    (∃ (u n dom : Nat) (d : DestUnit) (k : List Byte) (s : State), halted s = false ∧ unitOf u s = some d ∧ d.stage = .search ∧ d.src = .gc n false ∧ dom = (nsOf d.nsid s).elim 0 (·.domain) ∧ domKey dom s = some k ∧ domOn dom s = false) ∧
    (∃ (i k : Nat) (e : TagEntry) (s : State), halted s = false ∧ s.fiu.ins.find? (fun p => p.2.fptIdx == i) = some (k, e) ∧ bankUp (k % 16) s = true ∧ (tget? s.fiu.fpt i).isSome = true ∧ (segOf k s).length < 128) ∧
    (∃ (i : Nat) (e : FptEntry) (s : State), halted s = false ∧ s.fiu.rem.contains i = true ∧ tget? s.fiu.fpt i = some e) ∧
    (∃ (k : Nat) (s : State), halted s = false ∧ running .fiu s = true ∧ getF F.fiuScrubScrubEn s = 1 ∧ k = s.fiu.scrubSeg ∧ s.fiu.ins = [] ∧ s.fiu.rem = [] ∧ segOf k s = tget s.fiu.dcopy k []) ∧
    (∃ (k : Nat) (d : Bool) (s : State), halted s = false ∧ running .fiu s = true ∧ getF F.fiuScrubScrubEn s = 1 ∧ k = s.fiu.scrubSeg ∧ s.fiu.ins = [] ∧ s.fiu.rem = [] ∧ bankUp (k % 16) s = true) ∧
    (∃ (b : Nat) (s : State), halted s = false ∧ b < 16 ∧ bit (getF F.fiuBankStatLoading s) b = true ∧ laneReady .fiu b s = true) ∧
    (∃ (m : Nat) (s : State), halted s = false) ∧
    (∃ (n : Nat) (s : State), halted s = false ∧ s.fiu.refill = some n ∧ running .fiu s = true) ∧
    (∃ (n i k old : Nat) (s : State), halted s = false ∧ old = mapGet 0 n i s ∧ running .fiu s = true ∧ bgOk s = true ∧ getF F.fiuCtrlBgdEn s = 1 ∧ winOpen 2 s = true ∧ uBand old ≠ 0 ∧ old ≠ k ∧ jrnlRoom s = true ∧ tget? s.fiu.sut old = none ∧ backOf old s = some (n, i) ∧ liveUnit k s = true ∧ (logOf old s).isSome = true ∧ logOf old s = logOf k s) :=
  ⟨⟨1, 7, 0, { id := 1, src := .gc 7 false, nsid := 1, unit := 5, seq := 1, stage := .search, data := [7], zero := false, fp := [], dup := none, own := none, grp := none, mode := 0, body := [], key := 0, gen := 0, uaddr := 0, mem := 0, cls := 0, durable := false }, [1], setBankF F.fiuDomCfgDedupEn 0 0 1 { State.reset with wb.units := [{ id := 1, src := .gc 7 false, nsid := 1, unit := 5, seq := 1, stage := .search, data := [7], zero := false, fp := [], dup := none, own := none, grp := none, mode := 0, body := [], key := 0, gen := 0, uaddr := 0, mem := 0, cls := 0, durable := false }], cry.dedup := [(0, { st := .loaded, keyId := 5, key := [1], stored := none })] }, by decide⟩,
   ⟨4, 0, { tag := 3, domain := 0, fptIdx := 4, heat := 128, age := 0 }, setF F.fiuBankStatReady 0xFFFF { State.reset with fiu.ins := [(0, { tag := 3, domain := 0, fptIdx := 4, heat := 128, age := 0 })], fiu.fpt := [(4, { fp := [1], uaddr := 99, domain := 0, st := .live, indexed := false, raw := false, group16 := false, pendref := 0, heat := 128, seq := 0, crcBad := false })], regs.cur := [] }, by decide⟩,
   ⟨4, { fp := [1], uaddr := 99, domain := 0, st := .dead, indexed := true, raw := false, group16 := false, pendref := 0, heat := 128, seq := 0, crcBad := false }, { State.reset with fiu.rem := [4], fiu.fpt := [(4, { fp := [1], uaddr := 99, domain := 0, st := .dead, indexed := true, raw := false, group16 := false, pendref := 0, heat := 128, seq := 0, crcBad := false })] }, by decide⟩,
   ⟨0, setState .fiu 2 (setF F.fiuScrubScrubEn 1 State.reset), by decide⟩,
   ⟨0, true, setF F.fiuBankStatReady 0xFFFF (setState .fiu 2 (setF F.fiuScrubScrubEn 1 State.reset)), by decide⟩,
   ⟨15, setF F.fiuBankEnBankOn 0xFFFF (setF F.fiuBankStatLoading 0xFFFF State.reset), by decide⟩,
   ⟨0xFF, State.reset, by decide⟩,
   ⟨0, setState .fiu 2 ({ State.reset with fiu.refill := some 0 }), by decide⟩,
   ⟨1, 5, 2 ^ 40 + 2 ^ 12 + 4, 2 ^ 40 + 4, setF F.fiuCtrlBgdEn 1 (setState .fiu 2 ({ State.reset with ftu.maps := [{ epoch := 0, nsid := 1, entries := [(5, 2 ^ 40 + 4), (6, 2 ^ 40 + 2 ^ 12 + 4)] }], eph.open_ := [(2, 9)], ftu.back := [(2 ^ 40 + 4, { nsid := 1, unit := 5, mask := 1, gen := 0, seq := 1, copy := false, shared := false, src := 0 })], fiu.log := [{ fp := [1], uaddr := 2 ^ 40 + 4, domain := 0, raw := true, group16 := false }, { fp := [1], uaddr := 2 ^ 40 + 2 ^ 12 + 4, domain := 0, raw := true, group16 := false }] })), by decide⟩⟩

/-- Hypotheses of UnitsAreEncodedSealedAndOpened hold together. -/
theorem witness_UnitsAreEncodedSealedAndOpened :
    (∃ (u : Nat) (d : DestUnit) (x : Namespace) (s : State), halted s = false ∧ unitOf u s = some d ∧ d.stage = .compress ∧ running .cmp s = true ∧ nsOf d.nsid s = some x ∧ x.cmpMode = 0) ∧
    (∃ (g : Nat) (s : State), halted s = false ∧ running .cmp s = true) ∧
    (∃ (u : Nat) (d : DestUnit) (k : List Byte) (s : State), halted s = false ∧ unitOf u s = some d ∧ d.stage = .encrypt ∧ d.grp = none ∧ d.body ≠ [] ∧ running .cry s = true ∧ getF F.cryCtrlXtsEn s = 1 ∧ (List.range 16).any (fun l => laneUsable .cry l s) = true ∧ dataKey d.key s = some k) ∧
    (∃ (u n : Nat) (d : DestUnit) (s : State), halted s = false ∧ unitOf u s = some d ∧ d.src = .slot n ∧ d.stage = .clause ∧ running .ftu s = true ∧ getF F.ftuCtrlMapEn s = 1 ∧ d.zero = true ∧ d.dup = none ∧ superseded d n s = false ∧ jrnlRoom s = true ∧ s.ftu.csnext ≤ mcaLow s + 4096) ∧
    (∃ (u n : Nat) (d : DestUnit) (s : State), halted s = false ∧ unitOf u s = some d ∧ d.src = .slot n ∧ d.stage = .clause ∧ running .ftu s = true ∧ getF F.ftuCtrlMapEn s = 1 ∧ d.zero = false ∧ d.dup = none ∧ unitAccepted d.uaddr s = true ∧ superseded d n s = false ∧ jrnlRoom s = true ∧ s.ftu.csnext ≤ mcaLow s + 4096) ∧
    (∃ (r : Nat) (b : List Byte) (x : UnitRead) (s : State), halted s = false ∧ uRead r s = some x ∧ x.stage = .decrypt ∧ x.body = [] ∧ running .cry s = true ∧ getF F.cryCtrlXtsEn s = 1 ∧ (List.range 16).any (fun l => laneUsable .cry l s) = true ∧ b.length = uLen x.uaddr * 16 ∧ headerOk b = false) ∧
    (∃ (r h : Nat) (b : List Byte) (x : UnitRead) (s : State), halted s = false ∧ uRead r s = some x ∧ x.stage = .decrypt ∧ x.for_ = .host h ∧ x.body = [] ∧ running .cry s = true ∧ getF F.cryCtrlXtsEn s = 1 ∧ (List.range 16).any (fun l => laneUsable .cry l s) = true ∧ b.length = uLen x.uaddr * 16 ∧ headerOk b = true ∧ dataKey (hdKey b) s = none) ∧
    (∃ (r : Nat) (x : UnitRead) (s : State), halted s = false ∧ uRead r s = some x ∧ x.stage = .expand ∧ running .cmp s = true ∧ getF F.cmpCtrlExpEn s = 1 ∧ (List.range 32).any (fun l => laneUsable .cmp (0x80 + l) s) = true) ∧
    (∃ (j : BulkJob) (s : State), halted s = false ∧ bulkOk s = true ∧ j.input = [] ∧ j.chain = [8]) ∧
    (∃ (j : BulkJob) (s : State), halted s = false ∧ bulkOk s = true ∧ j.input.length ≤ 2 ^ 20 ∧ j.chain.length ≤ 256) ∧
    (∃ (j : BulkJob) (s : State), halted s = false ∧ bulkOk s = true ∧ getF F.cmpCtrlExpEn s = 1 ∧ (bulkExpand j.limit (j.input.length + 1) j.input [] 0 0).1 = 0) :=
  ⟨⟨1, { id := 1, src := .slot 0, nsid := 1, unit := 5, seq := 1, stage := .compress, data := [7], zero := false, fp := [], dup := none, own := none, grp := none, mode := 0, body := [], key := 0, gen := 0, uaddr := 0, mem := 0, cls := 0, durable := false }, { nsid := 1, group := 1, tenant := 0, nsze := 1000, lbaf := 1, cmpMode := 0, cmpLevel := 0, grouping := 0, domain := 0, layout := 0, key := 0, nextKey := 0, nguid := 7, resv := noResv, mixed := false, oldPct := 0, attrGen := 0, format := none, deleting := none, cloneOf := 0, protect := false }, setState .cmp 2 ({ State.reset with wb.units := [{ id := 1, src := .slot 0, nsid := 1, unit := 5, seq := 1, stage := .compress, data := [7], zero := false, fp := [], dup := none, own := none, grp := none, mode := 0, body := [], key := 0, gen := 0, uaddr := 0, mem := 0, cls := 0, durable := false }], hqe.ns := [{ nsid := 1, group := 1, tenant := 0, nsze := 1000, lbaf := 1, cmpMode := 0, cmpLevel := 0, grouping := 0, domain := 0, layout := 0, key := 0, nextKey := 0, nguid := 7, resv := noResv, mixed := false, oldPct := 0, attrGen := 0, format := none, deleting := none, cloneOf := 0, protect := false }] }), by decide⟩,
   ⟨1, setState .cmp 2 State.reset, by decide⟩,
   ⟨1, { id := 1, src := .slot 0, nsid := 1, unit := 5, seq := 1, stage := .encrypt, data := [7], zero := false, fp := [], dup := none, own := none, grp := none, mode := 0, body := [7], key := 65537, gen := 0, uaddr := 0, mem := 0, cls := 0, durable := false }, [1], setF F.cryCtrlXtsEn 1 <| setState .cry 2 ({ State.reset with wb.units := [{ id := 1, src := .slot 0, nsid := 1, unit := 5, seq := 1, stage := .encrypt, data := [7], zero := false, fp := [], dup := none, own := none, grp := none, mode := 0, body := [7], key := 65537, gen := 0, uaddr := 0, mem := 0, cls := 0, durable := false }], cry.data := [(1, { st := .loaded, keyId := 5, key := [1], stored := none })], cry.gens := [(1, 1)] }), by decide⟩,
   ⟨1, 0, { id := 1, src := .slot 0, nsid := 1, unit := 5, seq := 1, stage := .clause, data := [7], zero := true, fp := [], dup := none, own := none, grp := none, mode := 0, body := [], key := 0, gen := 0, uaddr := 0, mem := 0, cls := 0, durable := false }, setF F.ftuCtrlMapEn 1 <| setState .ftu 2 ({ State.reset with wb.units := [{ id := 1, src := .slot 0, nsid := 1, unit := 5, seq := 1, stage := .clause, data := [7], zero := true, fp := [], dup := none, own := none, grp := none, mode := 0, body := [], key := 0, gen := 0, uaddr := 0, mem := 0, cls := 0, durable := false }], wb.own := [(0, { nsid := 1, unit := 5, seq := 1, st := .destaging, mask := 0xFF, durable := true, landed := true, acked := true, shadow := false, replaced := false, fillDone := false, cmd := 0, filledAt := 0, data := [] })] }), by decide⟩,
   ⟨1, 0, { id := 1, src := .slot 0, nsid := 1, unit := 5, seq := 1, stage := .clause, data := [7], zero := false, fp := [], dup := none, own := none, grp := none, mode := 0, body := [], key := 0, gen := 0, uaddr := (2 ^ 40 + 4), mem := 0, cls := 0, durable := false }, setF F.ftuCtrlMapEn 1 <| setState .ftu 2 ({ State.reset with wb.units := [{ id := 1, src := .slot 0, nsid := 1, unit := 5, seq := 1, stage := .clause, data := [7], zero := false, fp := [], dup := none, own := none, grp := none, mode := 0, body := [], key := 0, gen := 0, uaddr := (2 ^ 40 + 4), mem := 0, cls := 0, durable := false }], wb.own := [(0, { nsid := 1, unit := 5, seq := 1, st := .destaging, mask := 0xFF, durable := true, landed := true, acked := true, shadow := false, replaced := false, fillDone := false, cmd := 0, filledAt := 0, data := [] })] }), by decide⟩,
   ⟨1, List.replicate 32 0, { id := 1, for_ := .host 3, nsid := 1, unit := 5, stage := .decrypt, uaddr := (2 ^ 40 + 8), ovMask := 0, ovData := [], body := [], cws := [], gone := [], late := [], tries := [] }, setF F.cryCtrlXtsEn 1 <| setState .cry 2 ({ State.reset with wb.reads := [{ id := 1, for_ := .host 3, nsid := 1, unit := 5, stage := .decrypt, uaddr := (2 ^ 40 + 8), ovMask := 0, ovData := [], body := [], cws := [], gone := [], late := [], tries := [] }] }), by decide⟩,
   ⟨1, 3, [1, 0, 16, 0] ++ List.replicate 28 0, { id := 1, for_ := .host 3, nsid := 1, unit := 5, stage := .decrypt, uaddr := (2 ^ 40 + 8), ovMask := 0, ovData := [], body := [], cws := [], gone := [], late := [], tries := [] }, setF F.cryCtrlXtsEn 1 <| setState .cry 2 ({ State.reset with wb.reads := [{ id := 1, for_ := .host 3, nsid := 1, unit := 5, stage := .decrypt, uaddr := (2 ^ 40 + 8), ovMask := 0, ovData := [], body := [], cws := [], gone := [], late := [], tries := [] }] }), by decide⟩,
   ⟨1, { id := 1, for_ := .host 3, nsid := 1, unit := 5, stage := .expand, uaddr := 0, ovMask := 0, ovData := [], body := [], cws := [], gone := [], late := [], tries := [] }, setF F.cmpCtrlExpEn 1 <| setState .cmp 2 ({ State.reset with wb.reads := [{ id := 1, for_ := .host 3, nsid := 1, unit := 5, stage := .expand, uaddr := 0, ovMask := 0, ovData := [], body := [], cws := [], gone := [], late := [], tries := [] }] }), by decide⟩,
   ⟨{ id := 1, input := [], chain := [8], limit := 0, mode := 1, level := 1 }, setF F.cmpBulkCfgMaxLanes 1 (setState .cmp 2 State.reset), by decide⟩,
   ⟨{ id := 1, input := [], chain := [8], limit := 0, mode := 1, level := 1 }, setF F.cmpBulkCfgMaxLanes 1 (setState .cmp 2 State.reset), by decide⟩,
   ⟨{ id := 1, input := zeros 8, chain := [8], limit := 0, mode := 1, level := 1 }, setF F.cmpBulkCfgMaxLanes 1 (setF F.cmpCtrlExpEn 1 <| setState .cmp 2 State.reset), by decide⟩⟩

/-- Hypotheses of KeysAreLoadedPurgedAndRestored hold together. -/
theorem witness_KeysAreLoadedPurgedAndRestored :
    (∃ (q tag ps : Nat) (b : KeyLoadBody) (w : List Byte) (s : State), halted s = false ∧ mgmtReady q tag 0x0040 s = true ∧ keyBodyOk b = true ∧ b.kind ≠ 2 ∧ planeDown .reduction s = false ∧ runsAlone s = true ∧ keySlot b.kind b.slot s = none ∧ wrapKeyOf b s = some w) ∧
    (∃ (q tag : Nat) (b : KeyLoadBody) (w : List Byte) (s : State), halted s = false ∧ mgmtReady q tag 0x0040 s = true ∧ keyBodyOk b = true ∧ b.kind ≠ 2 ∧ planeDown .reduction s = false ∧ runsAlone s = false ∧ troysUp s = true ∧ keySlot b.kind b.slot s = none ∧ wrapKeyOf b s = some w) ∧
    (∃ (q tag ps : Nat) (b : KeyLoadBody) (k : KeySlot) (s : State), halted s = false ∧ mgmtReady q tag 0x0040 s = true ∧ keyBodyOk b = true ∧ b.kind ≠ 2 ∧ planeDown .reduction s = false ∧ runsAlone s = true ∧ keySlot b.kind b.slot s = some k) ∧
    (∃ (q tag h : Nat) (k : KeySlot) (s : State), halted s = false ∧ mgmtReady q tag 0x0041 s = true ∧ hKind h = 0 ∧ h ≠ 0 ∧ planeDown .reduction s = false ∧ runsAlone s = true ∧ keyGen 0 (hSlot h) s = hGen h ∧ keySlot 0 (hSlot h) s = some k ∧ k.st ≠ .purging ∧ keyUsers h s = 0) ∧
    (∃ (q tag h : Nat) (s : State), halted s = false ∧ mgmtReady q tag 0x0041 s = true ∧ hKind h = 2 ∧ hSlot h < 16 ∧ keyGen 2 (hSlot h) s ≠ hGen h) ∧
    (∃ (k n : Nat) (x : KeySlot) (s : State), halted s = false ∧ (k = 0 ∨ k = 2) ∧ keySlot k n s = some x ∧ x.st = .purging) ∧
    (∃ (n : Nat) (x : KeySlot) (w : List Byte × Nat) (s : State), halted s = false ∧ planeDown .reduction s = false ∧ s.cry.data = [(n, x)] ∧ s.cry.dedup = [] ∧ x.st = .restorePending ∧ x.stored = some w ∧ (keySlot 2 w.2 s).isSome = true) :=
  ⟨⟨1, 7, 0, { kind := 0, slot := 3, wrapSlot := 0, wrappedLen := 72, keyId := 9, ephPub := [], wrapped := [] }, [1], { State.reset with mgmt.cmds := [{ q := 1, tag := 7, opcode := 0x40, fence := false, dataLen := 0, started := false, reject := none, unposted := false }], cry.wrap := [(0, { st := .loaded, keyId := 1, key := [1], stored := none })], pair.role := .alone }, by decide⟩,
   ⟨1, 7, { kind := 1, slot := 3, wrapSlot := 0, wrappedLen := 40, keyId := 9, ephPub := [], wrapped := [] }, [1], setF (F.tlLinkStatUp 0) 1 { State.reset with mgmt.cmds := [{ q := 1, tag := 7, opcode := 0x40, fence := false, dataLen := 0, started := false, reject := none, unposted := false }], cry.wrap := [(0, { st := .loaded, keyId := 1, key := [1], stored := none })] }, by decide⟩,
   ⟨1, 7, 0, { kind := 0, slot := 3, wrapSlot := 0, wrappedLen := 72, keyId := 9, ephPub := [], wrapped := [] }, { st := .loaded, keyId := 5, key := [1], stored := none }, { State.reset with mgmt.cmds := [{ q := 1, tag := 7, opcode := 0x40, fence := false, dataLen := 0, started := false, reject := none, unposted := false }], cry.wrap := [(0, { st := .loaded, keyId := 1, key := [1], stored := none })], pair.role := .alone, cry.data := [(3, { st := .loaded, keyId := 5, key := [1], stored := none })] }, by decide⟩,
   ⟨1, 7, 65539, { st := .loaded, keyId := 5, key := [1], stored := none }, { State.reset with mgmt.cmds := [{ q := 1, tag := 7, opcode := 0x41, fence := false, dataLen := 0, started := false, reject := none, unposted := false }], pair.role := .alone, cry.data := [(3, { st := .loaded, keyId := 5, key := [1], stored := none })], cry.gens := [(3, 1)] }, by decide⟩,
   ⟨1, 7, 98304, { State.reset with mgmt.cmds := [{ q := 1, tag := 7, opcode := 0x41, fence := false, dataLen := 0, started := false, reject := none, unposted := false }] }, by decide⟩,
   ⟨0, 3, { st := .purging, keyId := 5, key := [1], stored := none }, { State.reset with cry.data := [(3, { st := .purging, keyId := 5, key := [1], stored := none })] }, by decide⟩,
   ⟨3, { st := .restorePending, keyId := 5, key := [], stored := some ([], 0) }, ([], 0), { State.reset with cry.wrap := [(0, { st := .loaded, keyId := 1, key := [1], stored := none })], cry.data := [(3, { st := .restorePending, keyId := 5, key := [], stored := some ([], 0) })] }, by decide⟩⟩

/-- Hypotheses of DigestJobsRunInContexts hold together. -/
theorem witness_DigestJobsRunInContexts :
    (∃ (r : Nat) (d : DgeDesc) (s : State), halted s = false ∧ r < 3 ∧ running .dge s = true ∧ getF F.dgeCtrlJobEn s = 1 ∧ d.first = true ∧ jobInvalid d d.alg = true) ∧
    (∃ (r n : Nat) (d : DgeDesc) (s : State), halted s = false ∧ r < 3 ∧ running .dge s = true ∧ getF F.dgeCtrlJobEn s = 1 ∧ d.first = true ∧ jobInvalid d d.alg = false ∧ ctxFree s = some n) ∧
    (∃ (n : Nat) (c : DgeCtx) (d : DgeDesc) (data ex : List Byte) (i : Bool) (s : State), halted s = false ∧ ctxOf n s = some c ∧ c.job = some d ∧ c.st = .active ∧ running .dge s = true) ∧
    (∃ (n : Nat) (c : DgeCtx) (d : DgeDesc) (data ex : List Byte) (s : State), halted s = false ∧ ctxOf n s = some c ∧ c.job = some d ∧ c.st = .active ∧ running .dge s = true ∧ data.length = d.declLen) ∧
    (∃ (l n : Nat) (c : DgeCtx) (s : State), halted s = false ∧ s.dge.ctx.find? (fun c => c.2.lane == some l) = some (n, c) ∧ running .dge s = true ∧ jobWaiting s = true) ∧
    (∃ (n : Nat) (c : DgeCtx) (s : State), halted s = false ∧ ctxOf n s = some c ∧ c.st = .open_ ∧ getF F.dgeCfgOpenLimit s ≠ 0 ∧ 1000000000 * getF F.dgeCfgOpenLimit s ≤ s.now - c.since) ∧
    (∃ (k : Nat) (s : State), halted s = false ∧ k < 3) ∧
    (∃ (s : State), halted s = false) ∧
    (∃ (k : Nat) (s : State), halted s = false ∧ k < 3) :=
  ⟨⟨2, { alg := 0, first := true, last := true, compare := false, extend := false, push := false, rsv := true, ctx := 0, ctxGen := 0, keySlot := 0, keySrc := 0, mr := 0, declLen := 1, result := 8, tag := 6, core := 0 }, setF F.dgeCtrlJobEn 1 <| setState .dge 2 <| State.reset, by decide⟩,
   ⟨0, 32, { alg := 0, first := true, last := true, compare := false, extend := false, push := false, rsv := false, ctx := 0, ctxGen := 0, keySlot := 0, keySrc := 0, mr := 0, declLen := 1, result := 8, tag := 6, core := 0 }, setF F.dgeCtrlJobEn 1 <| setState .dge 2 <| State.reset, by decide⟩,
   ⟨4, { st := .active, owner := 1, core := 0, alg := 0, msg := [], keyCopy := some [], keySlot := 0, keySrc := 0, lane := some 2, job := some { alg := 0, first := true, last := true, compare := false, extend := false, push := false, rsv := false, ctx := 0, ctxGen := 0, keySlot := 0, keySrc := 0, mr := 0, declLen := 1, result := 8, tag := 6, core := 0 }, since := 0, susp := false }, { alg := 0, first := true, last := true, compare := false, extend := false, push := false, rsv := false, ctx := 0, ctxGen := 0, keySlot := 0, keySrc := 0, mr := 0, declLen := 1, result := 8, tag := 6, core := 0 }, [], [], false, setState .dge 2 { State.reset with dge.ctx := [(4, { st := .active, owner := 1, core := 0, alg := 0, msg := [], keyCopy := some [], keySlot := 0, keySrc := 0, lane := some 2, job := some { alg := 0, first := true, last := true, compare := false, extend := false, push := false, rsv := false, ctx := 0, ctxGen := 0, keySlot := 0, keySrc := 0, mr := 0, declLen := 1, result := 8, tag := 6, core := 0 }, since := 0, susp := false })] }, by decide⟩,
   ⟨4, { st := .active, owner := 1, core := 0, alg := 0, msg := [], keyCopy := some [], keySlot := 0, keySrc := 0, lane := some 2, job := some { alg := 0, first := true, last := true, compare := false, extend := false, push := false, rsv := false, ctx := 0, ctxGen := 0, keySlot := 0, keySrc := 0, mr := 0, declLen := 1, result := 8, tag := 6, core := 0 }, since := 0, susp := false }, { alg := 0, first := true, last := true, compare := false, extend := false, push := false, rsv := false, ctx := 0, ctxGen := 0, keySlot := 0, keySrc := 0, mr := 0, declLen := 1, result := 8, tag := 6, core := 0 }, [7], [], setState .dge 2 { State.reset with dge.ctx := [(4, { st := .active, owner := 1, core := 0, alg := 0, msg := [], keyCopy := some [], keySlot := 0, keySrc := 0, lane := some 2, job := some { alg := 0, first := true, last := true, compare := false, extend := false, push := false, rsv := false, ctx := 0, ctxGen := 0, keySlot := 0, keySrc := 0, mr := 0, declLen := 1, result := 8, tag := 6, core := 0 }, since := 0, susp := false })] }, by decide⟩,
   ⟨2, 4, { st := .active, owner := 1, core := 0, alg := 0, msg := [], keyCopy := some [], keySlot := 0, keySrc := 0, lane := some 2, job := some { alg := 0, first := true, last := true, compare := false, extend := false, push := false, rsv := false, ctx := 0, ctxGen := 0, keySlot := 0, keySrc := 0, mr := 0, declLen := 1, result := 8, tag := 6, core := 0 }, since := 0, susp := false }, setState .dge 2 { State.reset with dge.wait := [5], dge.ctx := [(4, { st := .active, owner := 1, core := 0, alg := 0, msg := [], keyCopy := some [], keySlot := 0, keySrc := 0, lane := some 2, job := some { alg := 0, first := true, last := true, compare := false, extend := false, push := false, rsv := false, ctx := 0, ctxGen := 0, keySlot := 0, keySrc := 0, mr := 0, declLen := 1, result := 8, tag := 6, core := 0 }, since := 0, susp := false }), (5, { st := .waiting, owner := 1, core := 0, alg := 0, msg := [], keyCopy := some [], keySlot := 0, keySrc := 0, lane := none, job := some { alg := 0, first := true, last := true, compare := false, extend := false, push := false, rsv := false, ctx := 0, ctxGen := 0, keySlot := 0, keySrc := 0, mr := 0, declLen := 1, result := 8, tag := 6, core := 0 }, since := 0, susp := false })] }, by decide⟩,
   ⟨4, { st := .open_, owner := 1, core := 0, alg := 0, msg := [], keyCopy := some [], keySlot := 0, keySrc := 0, lane := some 2, job := some { alg := 0, first := true, last := true, compare := false, extend := false, push := false, rsv := false, ctx := 0, ctxGen := 0, keySlot := 0, keySrc := 0, mr := 0, declLen := 1, result := 8, tag := 6, core := 0 }, since := 0, susp := false }, setF F.dgeCfgOpenLimit 1 { State.reset with now := 10 ^ 10, dge.ctx := [(4, { st := .open_, owner := 1, core := 0, alg := 0, msg := [], keyCopy := some [], keySlot := 0, keySrc := 0, lane := some 2, job := some { alg := 0, first := true, last := true, compare := false, extend := false, push := false, rsv := false, ctx := 0, ctxGen := 0, keySlot := 0, keySrc := 0, mr := 0, declLen := 1, result := 8, tag := 6, core := 0 }, since := 0, susp := false })] }, by decide⟩,
   ⟨2, State.reset, by decide⟩,
   ⟨State.reset, by decide⟩,
   ⟨2, State.reset, by decide⟩⟩

/-- Hypotheses of MeasurementRegistersOnlyExtend hold together. -/
theorem witness_MeasurementRegistersOnlyExtend :
    (∃ (src mr ev : Nat) (dg : List Byte) (s : State), halted s = false ∧ dg.length = 48 ∧ mrOpen src mr s = true ∧ s.sec.mr.length = 8) ∧
    (∃ (src mr ev : Nat) (dg : List Byte) (s : State), halted s = false ∧ dg.length = 48 ∧ mrOpen src mr s = false) ∧
    (∃ (s : State), s.sec.quote = none) ∧
    (∃ (q : Quote) (s : State), s.sec.quote = some q ∧ getF F.secStatAttkeyOk s = 1) ∧
    (∃ (q : Quote) (s : State), s.sec.quote = some q ∧ getF F.secStatAttkeyOk s = 0) :=
  ⟨⟨2, 7, 0x30, zero48, State.reset, by decide⟩,
   ⟨1, 7, 0x30, zero48, State.reset, by decide⟩,
   ⟨State.reset, by decide⟩,
   ⟨{ nonce := [], mrs := [], count := 0, flags := 0 }, setF F.secStatAttkeyOk 1 { State.reset with sec.quote := some { nonce := [], mrs := [], count := 0, flags := 0 } }, by decide⟩,
   ⟨{ nonce := [], mrs := [], count := 0, flags := 0 }, setF F.secStatAttkeyOk 0 { State.reset with sec.quote := some { nonce := [], mrs := [], count := 0, flags := 0 } }, by decide⟩⟩

/-- Hypotheses of MapCacheLooksUpFillsAndCleans hold together. -/
theorem witness_MapCacheLooksUpFillsAndCleans :
    (∃ (n u : Nat) (l : McaLine) (s : State), halted s = false ∧ mcaServes s = true ∧ bankWaits (mcaBank 0 n (u / 8)) s = false ∧ getF F.mcaCtrlCacheEn s = 1 ∧ mcaLine 0 n (u / 8) s = some l ∧ l.pref = false ∧ l.victim = false ∧ (pageOf 0 n (u / 512) s).all (·.zero) = false) ∧
    (∃ (n u : Nat) (s : State), halted s = false ∧ mcaServes s = true ∧ bankWaits (mcaBank 0 n (u / 8)) s = false ∧ pageOf 0 n (u / 512) s = none) ∧
    (∃ (n l : Nat) (m : McaMiss) (s : State), halted s = false ∧ mcaServes s = true ∧ s.mca.misses = [m] ∧ m.epoch = 0 ∧ m.nsid = n ∧ m.line = l ∧ m.waiting = false ∧ m.demand = true ∧ mcaLine 0 n l s = none ∧ s.wb.reads = []) ∧
    (∃ (s : State), halted s = false ∧ running .mca s = true) ∧
    (∃ (g : Nat) (s : State), halted s = false ∧ 1 ≤ g ∧ g ≤ 3 ∧ bit (getF F.mcaWaysGroupOn s) (g - 1) = true ∧ s.mca.off.contains g = false) ∧
    (∃ (g : Nat) (s : State), halted s = false ∧ 1 ≤ g ∧ g ≤ 3 ∧ s.mca.off.contains g = true ∧ getF F.pwcStatHstate s = 0) ∧
    (∃ (s : State), halted s = false ∧ s.mca.off = [] ∧ running .mca s = true ∧ getF (H.pwrAuto .mca) s = 1 ∧ 10000000 ≤ s.now - s.mca.busyAt) ∧
    (∃ (s : State), halted s = false) ∧
    (∃ (k : Nat) (s : State), halted s = false ∧ s.mca.replay = some k ∧ running .ftu s = true) :=
  ⟨⟨1, 5, { epoch := 0, nsid := 1, line := 0, dirty := none, way := 0, victim := false, pref := false }, setF F.ftuCtrlMapEn 1 <| setF F.mcaCtrlCacheEn 1 <| setState .ftu 2 <| setState .mca 2 <| { State.reset with mca.lines := [{ epoch := 0, nsid := 1, line := 0, dirty := none, way := 0, victim := false, pref := false }], ftu.pages := [{ epoch := 0, nsid := 1, page := 0, pid := 1, resident := true, dirty := false, loading := false, writing := false, zero := false, flash := 0, wrote := 0, again := none, dirtyCseq := 1, used := 0 }] }, by decide⟩,
   ⟨1, 5, setF F.ftuCtrlMapEn 1 <| setF F.mcaCtrlCacheEn 1 <| setState .ftu 2 <| setState .mca 2 <| State.reset, by decide⟩,
   ⟨1, 0, { epoch := 0, nsid := 1, line := 0, demand := true, waiting := false }, setF F.ftuCtrlMapEn 1 <| setF F.mcaCtrlCacheEn 1 <| setState .ftu 2 <| setState .mca 2 <| { State.reset with mca.misses := [{ epoch := 0, nsid := 1, line := 0, demand := true, waiting := false }] }, by decide⟩,
   ⟨setState .mca 2 State.reset, by decide⟩,
   ⟨3, setF F.mcaWaysGroupOn 7 State.reset, by decide⟩,
   ⟨3, { State.reset with mca.off := [3] }, by decide⟩,
   ⟨setF (H.pwrAuto .mca) 1 <| setState .mca 2 { State.reset with now := 10000000 }, by decide⟩,
   ⟨State.reset, by decide⟩,
   ⟨1, setState .ftu 2 { State.reset with mca.replay := some 1 }, by decide⟩⟩

/-- Hypotheses of MapPagesAndJournalReachFlash hold together. -/
theorem witness_MapPagesAndJournalReachFlash :
    (∃ (e n g : Nat) (p : MapPage) (s : State), halted s = false ∧ pageOf e n g s = some p ∧ p.resident = false ∧ p.zero = false ∧ p.loading = true ∧ running .ftu s = true ∧ mcaServes s = false) ∧
    (∃ (e n g : Nat) (p : MapPage) (s : State), p.epoch = e ∧ p.nsid = n ∧ p.page = g) ∧
    (∃ (b : JBlock) (s : State), halted s = false ∧ running .ftu s = true ∧ s.pwc.stopping = true ∧ s.ftu.blocks.find? (fun b => b.sealed_ && b.copy == 0) = some b ∧ (packMeta 7 0 0 b.no b.first 0 (blockBytes b s) s).isSome = true) ∧
    (∃ (e n g : Nat) (p : MapPage) (s : State), halted s = false ∧ pageOf e n g s = some p ∧ running .ftu s = true ∧ getF F.ftuCtrlCkptEn s = 1 ∧ ckptReady p = true ∧ (s.ftu.pages.filter ckptReady).all (fun q => ckptFirst p q s) = true ∧ (packMeta 1 n e g (s.ftu.capply - 1) p.flash (pageBytes e n g s) (cleanLines (fun l => l.epoch == e && l.nsid == n && l.line / 64 == g) s)).isSome = true) ∧
    (∃ (e n g u : Nat) (p : MapPage) (s : State), halted s = false ∧ pageOf e n g s = some p ∧ p.writing = true ∧ p.wrote = u ∧ programmed u s = true ∧ p.flash = 0) ∧
    (∃ (s : State), halted s = false ∧ running .ftu s = true ∧ inService s = true ∧ jrnlRoom s = true ∧ 1000000 * getF F.ftuCkptCfgPeriodMs s ≤ s.now - s.ftu.rootAt) ∧
    (∃ (s : State), halted s = false ∧ s.pair.shadow = true) ∧
    (∃ (s : State), halted s = false ∧ getF F.bldStatStage s = 8) ∧
    (∃ (r : Root) (s : State), s.ftu.root = some r) ∧
    (∃ (s : State), halted s = false ∧ getF F.bldStatStage s = 8) ∧
    (∃ (e n g : Nat) (p : MapPage) (s : State), halted s = false ∧ pageOf e n g s = some p ∧ p.resident = false ∧ p.zero = false ∧ p.loading = true ∧ running .ftu s = true) :=
  ⟨⟨0, 1, 0, { epoch := 0, nsid := 1, page := 0, pid := 1, resident := false, dirty := false, loading := true, writing := false, zero := false, flash := 4096, wrote := 0, again := none, dirtyCseq := 1, used := 0 }, setState .ftu 2 { State.reset with ftu.pages := [{ epoch := 0, nsid := 1, page := 0, pid := 1, resident := false, dirty := false, loading := true, writing := false, zero := false, flash := 4096, wrote := 0, again := none, dirtyCseq := 1, used := 0 }] }, by decide⟩,
   ⟨0, 1, 0, { epoch := 0, nsid := 1, page := 0, pid := 1, resident := true, dirty := false, loading := false, writing := false, zero := false, flash := 0, wrote := 0, again := none, dirtyCseq := 1, used := 0 }, State.reset, by decide⟩,
   ⟨{ no := 1, first := 1, last := 126, sealed_ := true, time := 0, copy := 0, spilled := false }, setState .ftu 2 { State.reset with pwc.stopping := true, ftu.blocks := [{ no := 1, first := 1, last := 126, sealed_ := true, time := 0, copy := 0, spilled := false }], ftu.bands := [{ no := 1, st := .open_, d := 3, p := 1, k := 8, cls := 0, bseq := 1, live := 0, stripes := 0, cbits := 0, isMeta := true, isGc := false, reloc := false, short := false, degraded := false, mine := true, members := [(0, [1]), (1, [1]), (2, [1]), (3, [1])], fwd := 0, openCseq := 1, wrong := [] }] }, by decide⟩,
   ⟨0, 1, 0, { epoch := 0, nsid := 1, page := 0, pid := 1, resident := true, dirty := true, loading := false, writing := false, zero := false, flash := 0, wrote := 0, again := none, dirtyCseq := 1, used := 0 }, setF F.ftuCtrlCkptEn 1 <| setState .ftu 2 { State.reset with ftu.pages := [{ epoch := 0, nsid := 1, page := 0, pid := 1, resident := true, dirty := true, loading := false, writing := false, zero := false, flash := 0, wrote := 0, again := none, dirtyCseq := 1, used := 0 }], ftu.bands := [{ no := 1, st := .open_, d := 3, p := 1, k := 8, cls := 0, bseq := 1, live := 0, stripes := 0, cbits := 0, isMeta := true, isGc := false, reloc := false, short := false, degraded := false, mine := true, members := [(0, [1]), (1, [1]), (2, [1]), (3, [1])], fwd := 0, openCseq := 1, wrong := [] }] }, by decide⟩,
   ⟨0, 1, 0, 4096, { epoch := 0, nsid := 1, page := 0, pid := 1, resident := true, dirty := false, loading := false, writing := true, zero := false, flash := 0, wrote := 4096, again := none, dirtyCseq := 1, used := 0 }, { State.reset with ftu.pages := [{ epoch := 0, nsid := 1, page := 0, pid := 1, resident := true, dirty := false, loading := false, writing := true, zero := false, flash := 0, wrote := 4096, again := none, dirtyCseq := 1, used := 0 }] }, by decide⟩,
   ⟨setF F.bldStatStage 9 <| setState .ftu 2 { State.reset with now := 10 ^ 12 }, by decide⟩,
   ⟨{ State.reset with pair.shadow := true }, by decide⟩,
   ⟨setF F.bldStatStage 8 State.reset, by decide⟩,
   ⟨{ gen := 1, clean := true, low := 1, next := 1, storeCtr := 0, nextSeq := 1, nextBseq := 1, time := 0, fence := [] }, { State.reset with ftu.root := some { gen := 1, clean := true, low := 1, next := 1, storeCtr := 0, nextSeq := 1, nextBseq := 1, time := 0, fence := [] } }, by decide⟩,
   ⟨setF F.bldStatStage 8 State.reset, by decide⟩,
   ⟨0, 1, 0, { epoch := 0, nsid := 1, page := 0, pid := 1, resident := false, dirty := false, loading := true, writing := false, zero := false, flash := 4096, wrote := 0, again := none, dirtyCseq := 1, used := 0 }, setState .ftu 2 { State.reset with ftu.pages := [{ epoch := 0, nsid := 1, page := 0, pid := 1, resident := false, dirty := false, loading := true, writing := false, zero := false, flash := 4096, wrote := 0, again := none, dirtyCseq := 1, used := 0 }] }, by decide⟩⟩

/-- Hypotheses of BandsOpenSealAndKeepSpace hold together. -/
theorem witness_BandsOpenSealAndKeepSpace :
    (∃ (c d p k no : Nat) (s : State), halted s = false ∧ running .ftu s = true ∧ c < 8 ∧ classOn c s = true ∧ openBand c false false s = none ∧ jrnlRoom s = true ∧ classD c s = d ∧ classP c s = p ∧ classK d s = k ∧ minD p ≤ d ∧ d + p ≤ (eligible k s).length ∧ freeBand s = some no) ∧
    (∃ (c : Nat) (s : State), halted s = false ∧ running .ftu s = true ∧ c < 8 ∧ classOn c s = true ∧ openBand c false false s = none ∧ jrnlRoom s = true ∧ (eligible (classK (classD c s) s) s).length < minD (classP c s) + classP c s ∧ minD (classP c s) ≤ classD c s) ∧
    (∃ (n : Nat) (b : Band) (s : State), halted s = false ∧ bandOf n s = some b ∧ running .ftu s = true ∧ b.mine = true ∧ b.st = .open_ ∧ lastClosed b s = true) ∧
    (∃ (n : Nat) (b : Band) (s : State), halted s = false ∧ bandOf n s = some b ∧ running .ftu s = true ∧ b.mine = true ∧ b.st = .open_ ∧ (b.reloc = true ∨ s.pwc.stopping = true)) ∧
    (∃ (m e : Nat) (s : State), halted s = false ∧ running .ftu s = true ∧ (memOf m s).st = .present ∧ (freeBlocks m s).length < 512 ∧ troysUp s = true ∧ jrnlRoom s = true ∧ ownsExtent m e (sendTroys (.extentRequest m) s) = false ∧ e * 256 < (recOf m s).elim 0 blockCount) ∧
    (∃ (s : State), halted s = false ∧ running .ftu s = true ∧ s.ftu.gcOn = false ∧ freePm s < getF F.ftuSpaceStartPct s * 10) ∧
    (∃ (s : State), halted s = false ∧ running .ftu s = true ∧ s.ftu.admitStop = false ∧ freePm s < getF F.ftuSpaceAdmitResPct s * 10) ∧
    (∃ (m k b n pos : Nat) (c : YmCmd) (s : State), halted s = false ∧ s.mods.cmds.find? (fun c => c.m == m && c.block == k && c.opc == 3) = some c ∧ c.for_ = .program b n pos) ∧
    (∃ (m k : Nat) (c : YmCmd) (s : State), halted s = false ∧ s.mods.cmds.find? (fun c => c.m == m && c.block == k && c.opc == 4) = some c) :=
  ⟨⟨0, 3, 1, 8, 1, (setBankF F.parClassCfgD 0 3 8 <| setState .ftu 2 { State.reset with par.members := [(0, { st := .present, serial := 0, timeouts := [], arounds := 0, declared := 0, downAt := none, fatal := false }), (1, { st := .present, serial := 0, timeouts := [], arounds := 0, declared := 0, downAt := none, fatal := false }), (2, { st := .present, serial := 0, timeouts := [], arounds := 0, declared := 0, downAt := none, fatal := false }), (3, { st := .present, serial := 0, timeouts := [], arounds := 0, declared := 0, downAt := none, fatal := false })], mods.mir := [(0, { magic := 0, version := 1, major := 1, serial := 7, holdup := false, softRead := true, i3c := true, luns := 1, planes := 1, blocksPerLun := 8, pusPerBlock := 1, sysBlocks := 0, puBytes := 65536, ratedErases := 1000, wear := 0, relocThr := 100, retrySteps := 4, tProgMax := 10, tEraseMax := 20, crcOk := true, words := [] }), (1, { magic := 0, version := 1, major := 1, serial := 7, holdup := false, softRead := true, i3c := true, luns := 1, planes := 1, blocksPerLun := 8, pusPerBlock := 1, sysBlocks := 0, puBytes := 65536, ratedErases := 1000, wear := 0, relocThr := 100, retrySteps := 4, tProgMax := 10, tEraseMax := 20, crcOk := true, words := [] }), (2, { magic := 0, version := 1, major := 1, serial := 7, holdup := false, softRead := true, i3c := true, luns := 1, planes := 1, blocksPerLun := 8, pusPerBlock := 1, sysBlocks := 0, puBytes := 65536, ratedErases := 1000, wear := 0, relocThr := 100, retrySteps := 4, tProgMax := 10, tEraseMax := 20, crcOk := true, words := [] }), (3, { magic := 0, version := 1, major := 1, serial := 7, holdup := false, softRead := true, i3c := true, luns := 1, planes := 1, blocksPerLun := 8, pusPerBlock := 1, sysBlocks := 0, puBytes := 65536, ratedErases := 1000, wear := 0, relocThr := 100, retrySteps := 4, tProgMax := 10, tEraseMax := 20, crcOk := true, words := [] })] }), by decide, by decide, by decide, by decide, by decide, by decide, by decide, by decide, by decide, by decide, by simp only [eligible, List.length_mergeSort]; decide, by decide⟩,
   ⟨0, setState .ftu 2 State.reset, by decide, by decide, by decide, by decide, by decide, by decide, by simp only [eligible, List.length_mergeSort]; decide, by decide⟩,
   ⟨1, { no := 1, st := .open_, d := 3, p := 1, k := 8, cls := 0, bseq := 1, live := 0, stripes := 8, cbits := 0, isMeta := false, isGc := false, reloc := false, short := false, degraded := false, mine := true, members := [(0, [1]), (1, [1]), (2, [1]), (3, [1])], fwd := 0, openCseq := 1, wrong := [] }, setState .ftu 2 { State.reset with ftu.bands := [{ no := 1, st := .open_, d := 3, p := 1, k := 8, cls := 0, bseq := 1, live := 0, stripes := 8, cbits := 0, isMeta := false, isGc := false, reloc := false, short := false, degraded := false, mine := true, members := [(0, [1]), (1, [1]), (2, [1]), (3, [1])], fwd := 0, openCseq := 1, wrong := [] }] }, by decide⟩,
   ⟨1, { no := 1, st := .open_, d := 3, p := 1, k := 8, cls := 0, bseq := 1, live := 0, stripes := 0, cbits := 0, isMeta := false, isGc := false, reloc := true, short := false, degraded := false, mine := true, members := [(0, [1]), (1, [1]), (2, [1]), (3, [1])], fwd := 0, openCseq := 1, wrong := [] }, setState .ftu 2 { State.reset with ftu.bands := [{ no := 1, st := .open_, d := 3, p := 1, k := 8, cls := 0, bseq := 1, live := 0, stripes := 0, cbits := 0, isMeta := false, isGc := false, reloc := true, short := false, degraded := false, mine := true, members := [(0, [1]), (1, [1]), (2, [1]), (3, [1])], fwd := 0, openCseq := 1, wrong := [] }] }, by decide⟩,
   ⟨1, 1, setF (F.tlLinkStatUp 0) 1 <| setState .ftu 2 { State.reset with par.members := [(0, { st := .present, serial := 0, timeouts := [], arounds := 0, declared := 0, downAt := none, fatal := false }), (1, { st := .present, serial := 0, timeouts := [], arounds := 0, declared := 0, downAt := none, fatal := false }), (2, { st := .present, serial := 0, timeouts := [], arounds := 0, declared := 0, downAt := none, fatal := false }), (3, { st := .present, serial := 0, timeouts := [], arounds := 0, declared := 0, downAt := none, fatal := false })], mods.mir := [(1, { magic := 0, version := 1, major := 1, serial := 7, holdup := false, softRead := true, i3c := true, luns := 1, planes := 1, blocksPerLun := 300, pusPerBlock := 1, sysBlocks := 0, puBytes := 65536, ratedErases := 1000, wear := 0, relocThr := 100, retrySteps := 4, tProgMax := 10, tEraseMax := 20, crcOk := true, words := [] })] }, by decide⟩,
   ⟨setF F.ftuSpaceStartPct 20 <| setState .ftu 2 { State.reset with par.members := [(0, { st := .present, serial := 0, timeouts := [], arounds := 0, declared := 0, downAt := none, fatal := false }), (1, { st := .present, serial := 0, timeouts := [], arounds := 0, declared := 0, downAt := none, fatal := false }), (2, { st := .present, serial := 0, timeouts := [], arounds := 0, declared := 0, downAt := none, fatal := false }), (3, { st := .present, serial := 0, timeouts := [], arounds := 0, declared := 0, downAt := none, fatal := false })] }, by decide⟩,
   ⟨setF F.ftuSpaceAdmitResPct 5 <| setState .ftu 2 { State.reset with par.members := [(0, { st := .present, serial := 0, timeouts := [], arounds := 0, declared := 0, downAt := none, fatal := false }), (1, { st := .present, serial := 0, timeouts := [], arounds := 0, declared := 0, downAt := none, fatal := false }), (2, { st := .present, serial := 0, timeouts := [], arounds := 0, declared := 0, downAt := none, fatal := false }), (3, { st := .present, serial := 0, timeouts := [], arounds := 0, declared := 0, downAt := none, fatal := false })] }, by decide⟩,
   ⟨1, 1, 1, 0, 2, { m := 1, q := 0, cid := 0, opc := 3, gen := 0, block := 1, pu := 0, cw := 0, cws := 0, retry := 0, for_ := .program 1 0 2, issued := 0, accepted := false, late := false, again := false }, { State.reset with mods.cmds := [{ m := 1, q := 0, cid := 0, opc := 3, gen := 0, block := 1, pu := 0, cw := 0, cws := 0, retry := 0, for_ := .program 1 0 2, issued := 0, accepted := false, late := false, again := false }] }, by decide⟩,
   ⟨1, 1, { m := 1, q := 0, cid := 0, opc := 4, gen := 0, block := 1, pu := 0, cw := 0, cws := 0, retry := 0, for_ := .erase 1, issued := 0, accepted := false, late := false, again := false }, { State.reset with mods.cmds := [{ m := 1, q := 0, cid := 0, opc := 4, gen := 0, block := 1, pu := 0, cw := 0, cws := 0, retry := 0, for_ := .erase 1, issued := 0, accepted := false, late := false, again := false }] }, by decide⟩⟩

/-- Hypotheses of CollectionMovesUnitsAndErasesBands hold together. -/
theorem witness_CollectionMovesUnitsAndErasesBands :
    (∃ (n : Nat) (b : Band) (s : State), halted s = false ∧ running .ftu s = true ∧ getF F.ftuCtrlGcEn s = 1 ∧ bgOk s = true ∧ s.ftu.relocQ.head? = some n ∧ bandOf n s = some b ∧ b.st = .sealed_ ∧ bandQuiet n s = true) ∧
    (∃ (n : Nat) (b : Band) (s : State), halted s = false ∧ running .ftu s = true ∧ getF F.ftuCtrlGcEn s = 1 ∧ bgOk s = true ∧ s.ftu.relocQ.head? = some n ∧ bandOf n s = some b ∧ b.st = .open_) ∧
    (∃ (n : Nat) (b : Band) (s : State), bandOf n s = some b ∧ liveIn n s = []) ∧
    (∃ (n i o w : Nat) (re : Bool) (d : DestUnit) (s : State), halted s = false ∧ s.wb.units.find? (fun d => d.src == .gc o re && d.nsid == n && d.unit == i && d.uaddr == w && d.stage == .clause) = some d ∧ running .ftu s = true ∧ uBand w ≠ 0 ∧ programmed w s = true ∧ jrnlRoom s = true ∧ s.ftu.csnext ≤ mcaLow s + 4096 ∧ gcOf (uBand o) s = none ∧ fptOf o s = none) ∧
    (∃ (n : Nat) (b : Band) (s : State), halted s = false ∧ bandOf n s = some b ∧ running .ftu s = true ∧ b.st = .collecting ∧ (gcOf n s).isSome = true ∧ liveIn n s = [] ∧ bandNeeded n s = false ∧ bandQuiet n s = true ∧ jrnlRoom s = true) ∧
    (∃ (n : Nat) (b : Band) (s : State), halted s = false ∧ bandOf n s = some b ∧ running .ftu s = true ∧ b.st = .erasing ∧ erasing n s = false ∧ jrnlRoom s = true) ∧
    (∃ (n i : Nat) (f : Fwd) (s : State), halted s = false ∧ s.ftu.fwd.find? (fun f => f.old == mapGet 0 n i s) = some f ∧ running .ftu s = true ∧ getF F.ftuCtrlFixupEn s = 1 ∧ jrnlRoom s = true ∧ f.new ≠ lostEntry) :=
  ⟨⟨1, { no := 1, st := .sealed_, d := 3, p := 1, k := 8, cls := 0, bseq := 1, live := 0, stripes := 0, cbits := 0, isMeta := false, isGc := false, reloc := false, short := false, degraded := false, mine := true, members := [(0, [1]), (1, [1]), (2, [1]), (3, [1])], fwd := 0, openCseq := 1, wrong := [] }, setF F.ftuCtrlGcEn 1 <| setState .ftu 2 { State.reset with ftu.bands := [{ no := 1, st := .sealed_, d := 3, p := 1, k := 8, cls := 0, bseq := 1, live := 0, stripes := 0, cbits := 0, isMeta := false, isGc := false, reloc := false, short := false, degraded := false, mine := true, members := [(0, [1]), (1, [1]), (2, [1]), (3, [1])], fwd := 0, openCseq := 1, wrong := [] }], ftu.relocQ := [1] }, by decide⟩,
   ⟨1, { no := 1, st := .open_, d := 3, p := 1, k := 8, cls := 0, bseq := 1, live := 0, stripes := 0, cbits := 0, isMeta := false, isGc := false, reloc := false, short := false, degraded := false, mine := true, members := [(0, [1]), (1, [1]), (2, [1]), (3, [1])], fwd := 0, openCseq := 1, wrong := [] }, setF F.ftuCtrlGcEn 1 <| setState .ftu 2 { State.reset with ftu.bands := [{ no := 1, st := .open_, d := 3, p := 1, k := 8, cls := 0, bseq := 1, live := 0, stripes := 0, cbits := 0, isMeta := false, isGc := false, reloc := false, short := false, degraded := false, mine := true, members := [(0, [1]), (1, [1]), (2, [1]), (3, [1])], fwd := 0, openCseq := 1, wrong := [] }], ftu.relocQ := [1] }, by decide⟩,
   ⟨1, { no := 1, st := .sealed_, d := 3, p := 1, k := 8, cls := 0, bseq := 1, live := 0, stripes := 0, cbits := 0, isMeta := false, isGc := false, reloc := false, short := false, degraded := false, mine := true, members := [(0, [1]), (1, [1]), (2, [1]), (3, [1])], fwd := 0, openCseq := 1, wrong := [] }, { State.reset with ftu.bands := [{ no := 1, st := .sealed_, d := 3, p := 1, k := 8, cls := 0, bseq := 1, live := 0, stripes := 0, cbits := 0, isMeta := false, isGc := false, reloc := false, short := false, degraded := false, mine := true, members := [(0, [1]), (1, [1]), (2, [1]), (3, [1])], fwd := 0, openCseq := 1, wrong := [] }] }, by decide⟩,
   ⟨1, 5, 2 ^ 40 + 4, 2 * 2 ^ 40 + 4, false, { id := 1, src := .gc (2 ^ 40 + 4) false, nsid := 1, unit := 5, seq := 1, stage := .clause, data := [7], zero := false, fp := [], dup := none, own := none, grp := none, mode := 0, body := [], key := 0, gen := 0, uaddr := (2 * 2 ^ 40 + 4), mem := 0, cls := 0, durable := false }, setState .ftu 2 { State.reset with wb.units := [{ id := 1, src := .gc (2 ^ 40 + 4) false, nsid := 1, unit := 5, seq := 1, stage := .clause, data := [7], zero := false, fp := [], dup := none, own := none, grp := none, mode := 0, body := [], key := 0, gen := 0, uaddr := (2 * 2 ^ 40 + 4), mem := 0, cls := 0, durable := false }] }, by decide⟩,
   ⟨1, { no := 1, st := .collecting, d := 3, p := 1, k := 8, cls := 0, bseq := 1, live := 0, stripes := 0, cbits := 0, isMeta := false, isGc := false, reloc := false, short := false, degraded := false, mine := true, members := [(0, [1]), (1, [1]), (2, [1]), (3, [1])], fwd := 0, openCseq := 1, wrong := [] }, setState .ftu 2 { State.reset with ftu.bands := [{ no := 1, st := .collecting, d := 3, p := 1, k := 8, cls := 0, bseq := 1, live := 0, stripes := 0, cbits := 0, isMeta := false, isGc := false, reloc := false, short := false, degraded := false, mine := true, members := [(0, [1]), (1, [1]), (2, [1]), (3, [1])], fwd := 0, openCseq := 1, wrong := [] }], ftu.gcs := [{ band := 1, units := [], rebuild := false }] }, by decide⟩,
   ⟨1, { no := 1, st := .erasing, d := 3, p := 1, k := 8, cls := 0, bseq := 1, live := 0, stripes := 0, cbits := 0, isMeta := false, isGc := false, reloc := false, short := false, degraded := false, mine := true, members := [(0, [1]), (1, [1]), (2, [1]), (3, [1])], fwd := 0, openCseq := 1, wrong := [] }, setState .ftu 2 { State.reset with ftu.bands := [{ no := 1, st := .erasing, d := 3, p := 1, k := 8, cls := 0, bseq := 1, live := 0, stripes := 0, cbits := 0, isMeta := false, isGc := false, reloc := false, short := false, degraded := false, mine := true, members := [(0, [1]), (1, [1]), (2, [1]), (3, [1])], fwd := 0, openCseq := 1, wrong := [] }] }, by decide⟩,
   ⟨1, 5, { old := 2 ^ 40 + 4, new := 2 * 2 ^ 40 + 4, remain := 1 }, setF F.ftuCtrlFixupEn 1 <| setState .ftu 2 { State.reset with ftu.maps := [{ epoch := 0, nsid := 1, entries := [(5, 2 ^ 40 + 4)] }], ftu.fwd := [{ old := 2 ^ 40 + 4, new := 2 * 2 ^ 40 + 4, remain := 1 }] }, by decide⟩⟩

/-- Hypotheses of StripesGetTheirParityAndComplete hold together. -/
theorem witness_StripesGetTheirParityAndComplete :
    (∃ (n k : Nat) (b : Band) (x : Stripe) (s : State), halted s = false ∧ bandOf n s = some b ∧ stripeAt n k s = some x ∧ running .par s = true ∧ getF F.parCtrlParityEn s = 1 ∧ x.closed = true ∧ x.parity = false ∧ x.held = true ∧ x.recover = false ∧ (List.range b.d).all (fun d => x.chunks.getD (dataPos b k d) .open_ != .open_) = true) ∧
    (∃ (b : Band) (n : Nat) (x : Stripe) (s : State), stripeAt b.no n s = some x) ∧
    (∃ (n k : Nat) (b : Band) (x : Stripe) (s : State), halted s = false ∧ bandOf n s = some b ∧ stripeAt n k s = some x ∧ x.parity = true ∧ chunksDone x = true ∧ s.ftu.blocks = []) ∧
    (∃ (n k t : Nat) (x : Stripe) (s : State), halted s = false ∧ stripeAt n k s = some x ∧ x.closed = false ∧ x.dueAt = some t ∧ t ≤ s.now) ∧
    (∃ (n k : Nat) (l : List Nat) (b : Band) (x : Stripe) (s : State), halted s = false ∧ bandOf n s = some b ∧ stripeAt n k s = some x ∧ running .par s = true ∧ running .ftu s = true ∧ x.held = false ∧ b.mine = true ∧ (x.isGc = true ∨ x.isMeta = true)) ∧
    (∃ (n k : Nat) (l : List Nat) (b : Band) (x : Stripe) (s : State), halted s = false ∧ bandOf n s = some b ∧ stripeAt n k s = some x ∧ running .par s = true ∧ running .ftu s = true ∧ getF F.parCtrlParityEn s = 1 ∧ x.held = false ∧ b.mine = true ∧ x.isGc = false ∧ x.isMeta = false) ∧
    (∃ (r : Nat) (o : List (Nat × List Byte)) (x : UnitRead) (b : Band) (s : State), halted s = false ∧ uRead r s = some x ∧ bandOf (uBand x.uaddr) s = some b ∧ x.stage = .module_ ∧ x.gone ≠ [] ∧ x.late = [] ∧ x.tries = [] ∧ b.p < x.gone.length ∧ x.gone.all (· < b.d) = true ∧ x.gone.Nodup ∧ running .par s = true ∧ getF F.parCtrlParityEn s = 1) :=
  ⟨⟨1, 0, { no := 1, st := .open_, d := 3, p := 1, k := 8, cls := 0, bseq := 1, live := 0, stripes := 1, cbits := 0, isMeta := false, isGc := false, reloc := false, short := false, degraded := false, mine := true, members := [(0, [1]), (1, [1]), (2, [1]), (3, [1])], fwd := 0, openCseq := 1, wrong := [] }, { band := 1, no := 0, chunks := [.sent, .sent, .sent, .open_], dataEnd := 0, stream := [], items := [], parity := false, early := false, closed := true, degraded := false, dueAt := none, held := true, recover := false, isMeta := false, isGc := false }, setF F.parCtrlParityEn 1 <| setState .par 2 <| setState .ftu 2 { State.reset with ftu.bands := [{ no := 1, st := .open_, d := 3, p := 1, k := 8, cls := 0, bseq := 1, live := 0, stripes := 1, cbits := 0, isMeta := false, isGc := false, reloc := false, short := false, degraded := false, mine := true, members := [(0, [1]), (1, [1]), (2, [1]), (3, [1])], fwd := 0, openCseq := 1, wrong := [] }], par.stripes := [{ band := 1, no := 0, chunks := [.sent, .sent, .sent, .open_], dataEnd := 0, stream := [], items := [], parity := false, early := false, closed := true, degraded := false, dueAt := none, held := true, recover := false, isMeta := false, isGc := false }] }, by decide⟩,
   ⟨{ no := 1, st := .open_, d := 3, p := 1, k := 8, cls := 0, bseq := 1, live := 0, stripes := 1, cbits := 0, isMeta := false, isGc := false, reloc := false, short := false, degraded := false, mine := true, members := [(0, [1]), (1, [1]), (2, [1]), (3, [1])], fwd := 0, openCseq := 1, wrong := [] }, 0, { band := 1, no := 0, chunks := [.sent, .sent, .sent, .open_], dataEnd := 0, stream := [], items := [], parity := false, early := false, closed := true, degraded := false, dueAt := none, held := true, recover := false, isMeta := false, isGc := false }, { State.reset with par.stripes := [{ band := 1, no := 0, chunks := [.sent, .sent, .sent, .open_], dataEnd := 0, stream := [], items := [], parity := false, early := false, closed := true, degraded := false, dueAt := none, held := true, recover := false, isMeta := false, isGc := false }] }, by decide⟩,
   ⟨1, 0, { no := 1, st := .open_, d := 3, p := 1, k := 8, cls := 0, bseq := 1, live := 0, stripes := 1, cbits := 0, isMeta := false, isGc := false, reloc := false, short := false, degraded := false, mine := true, members := [(0, [1]), (1, [1]), (2, [1]), (3, [1])], fwd := 0, openCseq := 1, wrong := [] }, { band := 1, no := 0, chunks := [.programmed, .programmed, .programmed, .programmed], dataEnd := 0, stream := [], items := [], parity := true, early := false, closed := true, degraded := false, dueAt := none, held := true, recover := false, isMeta := false, isGc := false }, { State.reset with ftu.bands := [{ no := 1, st := .open_, d := 3, p := 1, k := 8, cls := 0, bseq := 1, live := 0, stripes := 1, cbits := 0, isMeta := false, isGc := false, reloc := false, short := false, degraded := false, mine := true, members := [(0, [1]), (1, [1]), (2, [1]), (3, [1])], fwd := 0, openCseq := 1, wrong := [] }], par.stripes := [{ band := 1, no := 0, chunks := [.programmed, .programmed, .programmed, .programmed], dataEnd := 0, stream := [], items := [], parity := true, early := false, closed := true, degraded := false, dueAt := none, held := true, recover := false, isMeta := false, isGc := false }] }, by decide⟩,
   ⟨1, 0, 0, { band := 1, no := 0, chunks := [.open_, .open_, .open_, .open_], dataEnd := 0, stream := [], items := [], parity := false, early := false, closed := false, degraded := false, dueAt := some 0, held := true, recover := false, isMeta := false, isGc := false }, { State.reset with par.stripes := [{ band := 1, no := 0, chunks := [.open_, .open_, .open_, .open_], dataEnd := 0, stream := [], items := [], parity := false, early := false, closed := false, degraded := false, dueAt := some 0, held := true, recover := false, isMeta := false, isGc := false }] }, by decide⟩,
   ⟨1, 0, [], { no := 1, st := .open_, d := 3, p := 1, k := 8, cls := 0, bseq := 1, live := 0, stripes := 1, cbits := 0, isMeta := false, isGc := false, reloc := false, short := false, degraded := false, mine := true, members := [(0, [1]), (1, [1]), (2, [1]), (3, [1])], fwd := 0, openCseq := 1, wrong := [] }, { band := 1, no := 0, chunks := [.open_, .open_, .open_, .open_], dataEnd := 0, stream := [], items := [], parity := false, early := false, closed := false, degraded := false, dueAt := none, held := false, recover := false, isMeta := false, isGc := true }, setF F.parCtrlParityEn 1 <| setState .par 2 <| setState .ftu 2 { State.reset with ftu.bands := [{ no := 1, st := .open_, d := 3, p := 1, k := 8, cls := 0, bseq := 1, live := 0, stripes := 1, cbits := 0, isMeta := false, isGc := false, reloc := false, short := false, degraded := false, mine := true, members := [(0, [1]), (1, [1]), (2, [1]), (3, [1])], fwd := 0, openCseq := 1, wrong := [] }], par.stripes := [{ band := 1, no := 0, chunks := [.open_, .open_, .open_, .open_], dataEnd := 0, stream := [], items := [], parity := false, early := false, closed := false, degraded := false, dueAt := none, held := false, recover := false, isMeta := false, isGc := true }] }, by decide⟩,
   ⟨1, 0, [], { no := 1, st := .open_, d := 3, p := 1, k := 8, cls := 0, bseq := 1, live := 0, stripes := 1, cbits := 0, isMeta := false, isGc := false, reloc := false, short := false, degraded := false, mine := true, members := [(0, [1]), (1, [1]), (2, [1]), (3, [1])], fwd := 0, openCseq := 1, wrong := [] }, { band := 1, no := 0, chunks := [.open_, .open_, .open_, .open_], dataEnd := 0, stream := [], items := [], parity := false, early := false, closed := false, degraded := false, dueAt := none, held := false, recover := false, isMeta := false, isGc := false }, setF F.parCtrlParityEn 1 <| setState .par 2 <| setState .ftu 2 { State.reset with ftu.bands := [{ no := 1, st := .open_, d := 3, p := 1, k := 8, cls := 0, bseq := 1, live := 0, stripes := 1, cbits := 0, isMeta := false, isGc := false, reloc := false, short := false, degraded := false, mine := true, members := [(0, [1]), (1, [1]), (2, [1]), (3, [1])], fwd := 0, openCseq := 1, wrong := [] }], par.stripes := [{ band := 1, no := 0, chunks := [.open_, .open_, .open_, .open_], dataEnd := 0, stream := [], items := [], parity := false, early := false, closed := false, degraded := false, dueAt := none, held := false, recover := false, isMeta := false, isGc := false }] }, by decide⟩,
   ⟨1, [], { id := 1, for_ := .host 3, nsid := 1, unit := 5, stage := .module_, uaddr := (2 ^ 40 + 4), ovMask := 0, ovData := [], body := [], cws := [], gone := [0, 1], late := [], tries := [] }, { no := 1, st := .open_, d := 3, p := 1, k := 8, cls := 0, bseq := 1, live := 0, stripes := 1, cbits := 0, isMeta := false, isGc := false, reloc := false, short := false, degraded := false, mine := true, members := [(0, [1]), (1, [1]), (2, [1]), (3, [1])], fwd := 0, openCseq := 1, wrong := [] }, setF F.parCtrlParityEn 1 <| setState .par 2 <| setState .ftu 2 { State.reset with ftu.bands := [{ no := 1, st := .open_, d := 3, p := 1, k := 8, cls := 0, bseq := 1, live := 0, stripes := 1, cbits := 0, isMeta := false, isGc := false, reloc := false, short := false, degraded := false, mine := true, members := [(0, [1]), (1, [1]), (2, [1]), (3, [1])], fwd := 0, openCseq := 1, wrong := [] }], wb.reads := [{ id := 1, for_ := .host 3, nsid := 1, unit := 5, stage := .module_, uaddr := (2 ^ 40 + 4), ovMask := 0, ovData := [], body := [], cws := [], gone := [0, 1], late := [], tries := [] }] }, by decide⟩⟩

/-- Hypotheses of ParityRecoversUnreadableChunks hold together. -/
theorem witness_ParityRecoversUnreadableChunks :
    (∃ (ds : List (List Byte)) (q : List Byte) (n x : Nat), 0 < n ∧ (∀ c ∈ ds, c.length = n) ∧ x < ds.length) ∧
    (∃ (ds : List (List Byte)) (n x : Nat), 0 < n ∧ (∀ c ∈ ds, c.length = n) ∧ x < ds.length ∧ ds.length ≤ 30) ∧
    (∃ (ds : List (List Byte)) (n x y : Nat), 0 < n ∧ (∀ c ∈ ds, c.length = n) ∧ x < y ∧ y < ds.length ∧ ds.length ≤ 30) :=
  ⟨⟨List.replicate 3 [7], [], 1, 2, by decide, by decide, by decide⟩,
   ⟨List.replicate 4 [7], 1, 3, by decide, by decide, by decide, by decide⟩,
   ⟨List.replicate 30 [7], 1, 0, 29, by decide, by decide, by decide, by decide, by decide⟩⟩

/-- Hypotheses of MembersFailRetireAndRebuild hold together. -/
theorem witness_MembersFailRetireAndRebuild :
    (∃ (m q cid r pos : Nat) (c : YmCmd) (s : State), halted s = false ∧ ymOf m q cid s = some c ∧ c.for_ = .read r pos ∧ c.late = false ∧ c.issued + memTimeout s < s.now ∧ s.now ≤ c.issued + 10 * memTimeout s ∧ running .par s = true) ∧
    (∃ (m q cid : Nat) (c : YmCmd) (x : ModRec) (s : State), halted s = false ∧ ymOf m q cid s = some c ∧ c.opc = 3 ∧ c.late = false ∧ recOf m s = some x ∧ c.issued + memTimeout s + 1000 * x.tProgMax < s.now) ∧
    (∃ (m : Nat) (s : State), halted s = false ∧ canFail m s = true ∧ ((memOf m s).fatal = true ∨ 3 ≤ (recentTimeouts m s).length)) ∧
    (∃ (m : Nat) (s : State), halted s = false ∧ getF (H.pwrState .par) s ≠ 2 ∧ getF (H.state .par) s ≠ 5 ∧ getF F.parMemSelModule s = m ∧ canFail m s = true) ∧
    (∃ (m : Nat) (s : State), halted s = false ∧ getF (H.pwrState .par) s ≠ 2 ∧ getF (H.state .par) s ≠ 5 ∧ getF F.parMemSelModule s = m ∧ canRetire m s = true) ∧
    (∃ (m : Nat) (s : State), halted s = false ∧ canFail m s = true) ∧
    (∃ (m : Nat) (s : State), halted s = false ∧ canRetire m s = true) ∧
    (∃ (m t : Nat) (s : State), halted s = false ∧ canFail m s = true ∧ getF (F.mptLinkStatUp m) s = 0 ∧ (memOf m s).downAt = some t ∧ 1000000000 * getF F.parGraceGraceS s ≤ s.now - t) ∧
    (∃ (s : State), halted s = false ∧ running .par s = true ∧ getF F.parCtrlRebuildEn s = 1 ∧ rebuildTight s = true ∧ rebuildList s ≠ []) ∧
    (∃ (m : Nat) (s : State), halted s = false ∧ running .par s = true ∧ getF F.parCtrlRebuildEn s = 1 ∧ s.par.rebuilds.any (fun r => r.member == m && !r.started && decide (r.dueAt ≤ s.now)) = true) ∧
    (∃ (b : Band) (s : State), halted s = false ∧ rebuildNext s = some b ∧ running .par s = true ∧ running .ftu s = true ∧ getF F.parCtrlRebuildEn s = 1 ∧ rebuildTight s = false ∧ b.st = .sealed_ ∧ bandQuiet b.no s = true) ∧
    (∃ (m : Nat) (s : State), halted s = false ∧ (memOf m s).st = .retiring ∧ s.ftu.bands = []) :=
  ⟨⟨1, 0, 0, 1, 0, { m := 1, q := 0, cid := 0, opc := 1, gen := 0, block := 1, pu := 0, cw := 0, cws := 0, retry := 0, for_ := .read 1 0, issued := 0, accepted := false, late := false, again := false }, loadF F.parTimeoutMemberTimeout 1 <| setState .par 2 { State.reset with now := 2000, mods.cmds := [{ m := 1, q := 0, cid := 0, opc := 1, gen := 0, block := 1, pu := 0, cw := 0, cws := 0, retry := 0, for_ := .read 1 0, issued := 0, accepted := false, late := false, again := false }] }, by decide⟩,
   ⟨1, 0, 0, { m := 1, q := 0, cid := 0, opc := 3, gen := 0, block := 1, pu := 0, cw := 0, cws := 0, retry := 0, for_ := .program 1 0 2, issued := 0, accepted := false, late := false, again := false }, { magic := 0, version := 1, major := 1, serial := 7, holdup := false, softRead := true, i3c := true, luns := 1, planes := 1, blocksPerLun := 8, pusPerBlock := 1, sysBlocks := 0, puBytes := 65536, ratedErases := 1000, wear := 0, relocThr := 100, retrySteps := 4, tProgMax := 10, tEraseMax := 20, crcOk := true, words := [] }, { State.reset with now := 10 ^ 12, mods.mir := [(0, { magic := 0, version := 1, major := 1, serial := 7, holdup := false, softRead := true, i3c := true, luns := 1, planes := 1, blocksPerLun := 8, pusPerBlock := 1, sysBlocks := 0, puBytes := 65536, ratedErases := 1000, wear := 0, relocThr := 100, retrySteps := 4, tProgMax := 10, tEraseMax := 20, crcOk := true, words := [] }), (1, { magic := 0, version := 1, major := 1, serial := 7, holdup := false, softRead := true, i3c := true, luns := 1, planes := 1, blocksPerLun := 8, pusPerBlock := 1, sysBlocks := 0, puBytes := 65536, ratedErases := 1000, wear := 0, relocThr := 100, retrySteps := 4, tProgMax := 10, tEraseMax := 20, crcOk := true, words := [] }), (2, { magic := 0, version := 1, major := 1, serial := 7, holdup := false, softRead := true, i3c := true, luns := 1, planes := 1, blocksPerLun := 8, pusPerBlock := 1, sysBlocks := 0, puBytes := 65536, ratedErases := 1000, wear := 0, relocThr := 100, retrySteps := 4, tProgMax := 10, tEraseMax := 20, crcOk := true, words := [] }), (3, { magic := 0, version := 1, major := 1, serial := 7, holdup := false, softRead := true, i3c := true, luns := 1, planes := 1, blocksPerLun := 8, pusPerBlock := 1, sysBlocks := 0, puBytes := 65536, ratedErases := 1000, wear := 0, relocThr := 100, retrySteps := 4, tProgMax := 10, tEraseMax := 20, crcOk := true, words := [] })], mods.cmds := [{ m := 1, q := 0, cid := 0, opc := 3, gen := 0, block := 1, pu := 0, cw := 0, cws := 0, retry := 0, for_ := .program 1 0 2, issued := 0, accepted := false, late := false, again := false }] }, by decide⟩,
   ⟨1, { State.reset with par.members := [(1, { st := .present, serial := 0, timeouts := [], arounds := 0, declared := 0, downAt := none, fatal := true })], mods.mir := [(0, { magic := 0, version := 1, major := 1, serial := 7, holdup := false, softRead := true, i3c := true, luns := 1, planes := 1, blocksPerLun := 8, pusPerBlock := 1, sysBlocks := 0, puBytes := 65536, ratedErases := 1000, wear := 0, relocThr := 100, retrySteps := 4, tProgMax := 10, tEraseMax := 20, crcOk := true, words := [] }), (1, { magic := 0, version := 1, major := 1, serial := 7, holdup := false, softRead := true, i3c := true, luns := 1, planes := 1, blocksPerLun := 8, pusPerBlock := 1, sysBlocks := 0, puBytes := 65536, ratedErases := 1000, wear := 0, relocThr := 100, retrySteps := 4, tProgMax := 10, tEraseMax := 20, crcOk := true, words := [] }), (2, { magic := 0, version := 1, major := 1, serial := 7, holdup := false, softRead := true, i3c := true, luns := 1, planes := 1, blocksPerLun := 8, pusPerBlock := 1, sysBlocks := 0, puBytes := 65536, ratedErases := 1000, wear := 0, relocThr := 100, retrySteps := 4, tProgMax := 10, tEraseMax := 20, crcOk := true, words := [] }), (3, { magic := 0, version := 1, major := 1, serial := 7, holdup := false, softRead := true, i3c := true, luns := 1, planes := 1, blocksPerLun := 8, pusPerBlock := 1, sysBlocks := 0, puBytes := 65536, ratedErases := 1000, wear := 0, relocThr := 100, retrySteps := 4, tProgMax := 10, tEraseMax := 20, crcOk := true, words := [] })] }, by decide⟩,
   ⟨1, setF F.parMemSelModule 1 { State.reset with par.members := [(0, { st := .present, serial := 0, timeouts := [], arounds := 0, declared := 0, downAt := none, fatal := false }), (1, { st := .present, serial := 0, timeouts := [], arounds := 0, declared := 0, downAt := none, fatal := false }), (2, { st := .present, serial := 0, timeouts := [], arounds := 0, declared := 0, downAt := none, fatal := false }), (3, { st := .present, serial := 0, timeouts := [], arounds := 0, declared := 0, downAt := none, fatal := false })] }, by decide⟩,
   ⟨1, setF F.parMemSelModule 1 { State.reset with par.members := [(0, { st := .present, serial := 0, timeouts := [], arounds := 0, declared := 0, downAt := none, fatal := false }), (1, { st := .present, serial := 0, timeouts := [], arounds := 0, declared := 0, downAt := none, fatal := false }), (2, { st := .present, serial := 0, timeouts := [], arounds := 0, declared := 0, downAt := none, fatal := false }), (3, { st := .present, serial := 0, timeouts := [], arounds := 0, declared := 0, downAt := none, fatal := false })] }, by decide⟩,
   ⟨1, { State.reset with par.members := [(0, { st := .present, serial := 0, timeouts := [], arounds := 0, declared := 0, downAt := none, fatal := false }), (1, { st := .present, serial := 0, timeouts := [], arounds := 0, declared := 0, downAt := none, fatal := false }), (2, { st := .present, serial := 0, timeouts := [], arounds := 0, declared := 0, downAt := none, fatal := false }), (3, { st := .present, serial := 0, timeouts := [], arounds := 0, declared := 0, downAt := none, fatal := false })] }, by decide⟩,
   ⟨1, { State.reset with par.members := [(0, { st := .present, serial := 0, timeouts := [], arounds := 0, declared := 0, downAt := none, fatal := false }), (1, { st := .present, serial := 0, timeouts := [], arounds := 0, declared := 0, downAt := none, fatal := false }), (2, { st := .present, serial := 0, timeouts := [], arounds := 0, declared := 0, downAt := none, fatal := false }), (3, { st := .present, serial := 0, timeouts := [], arounds := 0, declared := 0, downAt := none, fatal := false })] }, by decide⟩,
   ⟨1, 0, { State.reset with par.members := [(1, { st := .present, serial := 0, timeouts := [], arounds := 0, declared := 0, downAt := some 0, fatal := false })], mods.mir := [(0, { magic := 0, version := 1, major := 1, serial := 7, holdup := false, softRead := true, i3c := true, luns := 1, planes := 1, blocksPerLun := 8, pusPerBlock := 1, sysBlocks := 0, puBytes := 65536, ratedErases := 1000, wear := 0, relocThr := 100, retrySteps := 4, tProgMax := 10, tEraseMax := 20, crcOk := true, words := [] }), (1, { magic := 0, version := 1, major := 1, serial := 7, holdup := false, softRead := true, i3c := true, luns := 1, planes := 1, blocksPerLun := 8, pusPerBlock := 1, sysBlocks := 0, puBytes := 65536, ratedErases := 1000, wear := 0, relocThr := 100, retrySteps := 4, tProgMax := 10, tEraseMax := 20, crcOk := true, words := [] }), (2, { magic := 0, version := 1, major := 1, serial := 7, holdup := false, softRead := true, i3c := true, luns := 1, planes := 1, blocksPerLun := 8, pusPerBlock := 1, sysBlocks := 0, puBytes := 65536, ratedErases := 1000, wear := 0, relocThr := 100, retrySteps := 4, tProgMax := 10, tEraseMax := 20, crcOk := true, words := [] }), (3, { magic := 0, version := 1, major := 1, serial := 7, holdup := false, softRead := true, i3c := true, luns := 1, planes := 1, blocksPerLun := 8, pusPerBlock := 1, sysBlocks := 0, puBytes := 65536, ratedErases := 1000, wear := 0, relocThr := 100, retrySteps := 4, tProgMax := 10, tEraseMax := 20, crcOk := true, words := [] })], now := 10 ^ 18 }, by decide⟩,
   ⟨setF F.ftuSpaceGcResPct 3 <| setF F.parCtrlRebuildEn 1 <| setState .par 2 { State.reset with par.members := [(0, { st := .present, serial := 0, timeouts := [], arounds := 0, declared := 0, downAt := none, fatal := false }), (1, { st := .present, serial := 0, timeouts := [], arounds := 0, declared := 0, downAt := none, fatal := false }), (2, { st := .present, serial := 0, timeouts := [], arounds := 0, declared := 0, downAt := none, fatal := false }), (3, { st := .present, serial := 0, timeouts := [], arounds := 0, declared := 0, downAt := none, fatal := false })], ftu.bands := [{ no := 1, st := .open_, d := 3, p := 1, k := 8, cls := 0, bseq := 1, live := 0, stripes := 0, cbits := 0, isMeta := false, isGc := false, reloc := false, short := false, degraded := false, mine := true, members := [(0, [1]), (1, [1]), (2, [1]), (3, [1])], fwd := 0, openCseq := 1, wrong := [] }], par.rebuilds := [{ member := 1, started := true, dueAt := 0 }] }, by decide⟩,
   ⟨1, setF F.parCtrlRebuildEn 1 <| setState .par 2 { State.reset with par.rebuilds := [{ member := 1, started := false, dueAt := 0 }] }, by decide⟩,
   ⟨{ no := 1, st := .sealed_, d := 3, p := 1, k := 8, cls := 0, bseq := 1, live := 0, stripes := 0, cbits := 0, isMeta := false, isGc := false, reloc := false, short := false, degraded := false, mine := true, members := [(0, [1]), (1, [1]), (2, [1]), (3, [1])], fwd := 0, openCseq := 1, wrong := [] }, setF F.ftuSpaceGcResPct 0 <| setF F.parCtrlRebuildEn 1 <| setState .par 2 <| setState .ftu 2 { State.reset with ftu.bands := [{ no := 1, st := .sealed_, d := 3, p := 1, k := 8, cls := 0, bseq := 1, live := 0, stripes := 0, cbits := 0, isMeta := false, isGc := false, reloc := false, short := false, degraded := false, mine := true, members := [(0, [1]), (1, [1]), (2, [1]), (3, [1])], fwd := 0, openCseq := 1, wrong := [] }], par.rebuilds := [{ member := 1, started := true, dueAt := 0 }] }, by decide⟩,
   ⟨1, { State.reset with par.members := [(1, { st := .retiring, serial := 0, timeouts := [], arounds := 0, declared := 0, downAt := none, fatal := false })], mods.mir := [(0, { magic := 0, version := 1, major := 1, serial := 7, holdup := false, softRead := true, i3c := true, luns := 1, planes := 1, blocksPerLun := 8, pusPerBlock := 1, sysBlocks := 0, puBytes := 65536, ratedErases := 1000, wear := 0, relocThr := 100, retrySteps := 4, tProgMax := 10, tEraseMax := 20, crcOk := true, words := [] }), (1, { magic := 0, version := 1, major := 1, serial := 7, holdup := false, softRead := true, i3c := true, luns := 1, planes := 1, blocksPerLun := 8, pusPerBlock := 1, sysBlocks := 0, puBytes := 65536, ratedErases := 1000, wear := 0, relocThr := 100, retrySteps := 4, tProgMax := 10, tEraseMax := 20, crcOk := true, words := [] }), (2, { magic := 0, version := 1, major := 1, serial := 7, holdup := false, softRead := true, i3c := true, luns := 1, planes := 1, blocksPerLun := 8, pusPerBlock := 1, sysBlocks := 0, puBytes := 65536, ratedErases := 1000, wear := 0, relocThr := 100, retrySteps := 4, tProgMax := 10, tEraseMax := 20, crcOk := true, words := [] }), (3, { magic := 0, version := 1, major := 1, serial := 7, holdup := false, softRead := true, i3c := true, luns := 1, planes := 1, blocksPerLun := 8, pusPerBlock := 1, sysBlocks := 0, puBytes := 65536, ratedErases := 1000, wear := 0, relocThr := 100, retrySteps := 4, tProgMax := 10, tEraseMax := 20, crcOk := true, words := [] })] }, by decide⟩⟩

/-- Hypotheses of LossesAreLoggedAndStripesPatrolled hold together. -/
theorem witness_LossesAreLoggedAndStripesPatrolled :
    (∃ (n : Nat) (s : State), halted s = false ∧ getF (H.pwrState .par) s ≠ 2 ∧ getF (H.state .par) s ≠ 5 ∧ 1 ≤ n ∧ n ≤ s.par.lost.length) ∧
    (∃ (n : Nat) (s : State), halted s = false ∧ getF (H.pwrState .par) s ≠ 2 ∧ getF (H.state .par) s ≠ 5 ∧ (n = 0 ∨ s.par.lost.length < n)) ∧
    (∃ (n u e c : Nat) (r : Bool) (s : State), s.par.lost = []) ∧
    (∃ (n k : Nat) (mm ok : Bool) (o : Option Nat) (f : List Nat) (b : Band) (s : State), halted s = false ∧ bandOf n s = some b ∧ running .par s = true ∧ getF F.parCtrlPatrolEn s = 1 ∧ winOpen 1 s = true ∧ bgOk s = true ∧ patrolSet s = [(n, k)] ∧ s.par.swept = [] ∧ stripeReadable b k s = false) ∧
    (∃ (s : State), halted s = false ∧ running .par s = true ∧ getF F.parCtrlPatrolEn s = 1 ∧ 3600000000000 * getF F.parPatrolPeriodH s ≤ s.now - s.par.sweepAt) :=
  ⟨⟨1, { State.reset with par.lost := [{ nsid := 1, unit := 5, count := 1, time := 0, epoch := 0, cause := 2, recon := false }] }, by decide⟩,
   ⟨0, State.reset, by decide⟩,
   ⟨1, 5, 0, 2, false, State.reset, by decide⟩,
   ⟨1, 0, false, true, none, [], { no := 1, st := .sealed_, d := 3, p := 1, k := 8, cls := 0, bseq := 1, live := 0, stripes := 1, cbits := 0, isMeta := false, isGc := false, reloc := false, short := false, degraded := false, mine := true, members := [(0, [1]), (1, [1]), (2, [1]), (3, [1])], fwd := 0, openCseq := 1, wrong := [] }, setF F.parCtrlPatrolEn 1 <| setState .par 2 { State.reset with ftu.bands := [{ no := 1, st := .sealed_, d := 3, p := 1, k := 8, cls := 0, bseq := 1, live := 0, stripes := 1, cbits := 0, isMeta := false, isGc := false, reloc := false, short := false, degraded := false, mine := true, members := [(0, [1]), (1, [1]), (2, [1]), (3, [1])], fwd := 0, openCseq := 1, wrong := [] }], eph.open_ := [(1, 9)] }, by decide⟩,
   ⟨setF F.parCtrlPatrolEn 1 <| setState .par 2 { State.reset with now := 10 ^ 19 }, by decide⟩⟩

/-- Hypotheses of ModuleLinksAreAdmittedAndWatched hold together. -/
theorem witness_ModuleLinksAreAdmittedAndWatched :
    (∃ (m sp w fe : Nat) (fl : Bool) (s : State), halted s = false ∧ getF (F.mptLinkStatUp m) s = 0 ∧ getF (F.mptLinkCtrlPerst m) s = 0 ∧ blockDown (.mpt m) s = false ∧ 1 ≤ sp ∧ 1 ≤ w ∧ unanswered m s = false ∧ getF (F.mptFenceResResult m) s ≠ 3) ∧
    (∃ (m : Nat) (s : State), halted s = false ∧ getF (F.mptLinkStatUp m) s = 1) ∧
    (∃ (m : Nat) (s : State), m < 32 ∧ getF (F.mptLinkStatUp m) s = 1) ∧
    (∃ (m : Nat) (s : State), halted s = false ∧ getF (H.pwrState (.mpt m)) s ≠ 2 ∧ getF (H.state (.mpt m)) s ≠ 5) ∧
    (∃ (m : Nat) (r : ModRec) (y : YmRegs) (s : State), halted s = false ∧ getF (F.mptLinkStatUp m) s = 1 ∧ running (.mpt m) s = true ∧ admitOk r y = false) ∧
    (∃ (m : Nat) (r : ModRec) (y : YmRegs) (s : State), halted s = false ∧ getF (F.mptLinkStatUp m) s = 1 ∧ running (.mpt m) s = true ∧ admitOk r y = true ∧ (memOf m s).st = .absent) ∧
    (∃ (m : Nat) (r : ModRec) (s : State), halted s = false ∧ getF (F.mptModStatI3c m) s = 1 ∧ r.crcOk = true ∧ r.magic = 0x494D4B48) ∧
    (∃ (m y : Nat) (s : State), halted s = false ∧ getF (F.mptModStatI3c m) s = 0 ∧ getF (F.mptModStatAdmitted m) s = 1 ∧ bit y 1 = true) ∧
    (∃ (m : Nat) (s : State), halted s = false ∧ s.mods.sysRecs = [m] ∧ inSvc s = [m + 1]) :=
  ⟨⟨1, 5, 2, 0, true, setF (F.mptLinkCtrlPerst 1) 0 State.reset, by decide⟩,
   ⟨1, setF (F.mptLinkStatUp 1) 1 State.reset, by decide⟩,
   ⟨31, setF (F.mptLinkStatUp 31) 1 State.reset, by decide⟩,
   ⟨1, State.reset, by decide⟩,
   ⟨1, { magic := 0, version := 1, major := 1, serial := 7, holdup := false, softRead := true, i3c := true, luns := 1, planes := 1, blocksPerLun := 8, pusPerBlock := 1, sysBlocks := 0, puBytes := 65536, ratedErases := 1000, wear := 0, relocThr := 100, retrySteps := 4, tProgMax := 10, tEraseMax := 20, crcOk := true, words := [] }, { id := 0x4D594B48, ver := 0x100, cap := 0x80F, stat := 8 }, setF (F.mptLinkStatUp 1) 1 (setState (.mpt 1) 2 State.reset), by decide⟩,
   ⟨1, { magic := 0x494D4B48, version := 1, major := 1, serial := 7, holdup := true, softRead := true, i3c := true, luns := 1, planes := 1, blocksPerLun := 8, pusPerBlock := 1, sysBlocks := 0, puBytes := 73728, ratedErases := 1000, wear := 0, relocThr := 100, retrySteps := 4, tProgMax := 10, tEraseMax := 20, crcOk := true, words := [] }, { id := 0x4D594B48, ver := 0x100, cap := 0x80F, stat := 8 }, setF (F.mptLinkStatUp 1) 1 (setState (.mpt 1) 2 State.reset), by decide⟩,
   ⟨1, { magic := 0x494D4B48, version := 1, major := 1, serial := 7, holdup := true, softRead := true, i3c := true, luns := 1, planes := 1, blocksPerLun := 8, pusPerBlock := 1, sysBlocks := 0, puBytes := 73728, ratedErases := 1000, wear := 0, relocThr := 100, retrySteps := 4, tProgMax := 10, tEraseMax := 20, crcOk := true, words := [] }, setF (F.mptModStatI3c 1) 1 State.reset, by decide⟩,
   ⟨1, 2, setF (F.mptModStatI3c 1) 0 <| setF (F.mptModStatAdmitted 1) 1 State.reset, by decide⟩,
   ⟨0, { State.reset with mods.sysRecs := [0], par.members := [(1, { st := .present, serial := 0, timeouts := [], arounds := 0, declared := 0, downAt := none, fatal := false })] }, by decide⟩⟩

/-- Hypotheses of ModuleCommandsCompleteByStatus hold together. -/
theorem witness_ModuleCommandsCompleteByStatus :
    (∃ (m q cid b : Nat) (d : List Nat) (c : YmCmd) (s : State), halted s = false ∧ ymOf m q cid s = some c ∧ c.opc = 4 ∧ c.for_ = .erase b ∧ getF (F.mptLinkStatUp m) s = 1) ∧
    (∃ (m q cid : Nat) (d : List Nat) (c : YmCmd) (s : State), halted s = false ∧ ymOf m q cid s = some c ∧ c.opc = 4 ∧ getF (F.mptLinkStatUp m) s = 1) ∧
    (∃ (m q cid r pos : Nat) (d : List Nat) (c : YmCmd) (s : State), halted s = false ∧ ymOf m q cid s = some c ∧ c.opc = 1 ∧ c.for_ = .read r pos ∧ getF (F.mptLinkStatUp m) s = 1) ∧
    (∃ (m q cid b n pos : Nat) (c : YmCmd) (s : State), halted s = false ∧ ymOf m q cid s = some c ∧ c.for_ = .program b n pos ∧ c.accepted = false ∧ getF (F.mptLinkStatUp m) s = 1) ∧
    (∃ (b n pos : Nat) (c : ChunkSt) (x : Stripe) (s : State), stripeAt b n s = some x ∧ c ≠ .failed ∧ pos < x.chunks.length) ∧
    (∃ (m q cid b n pos : Nat) (c : YmCmd) (s : State), halted s = false ∧ ymOf m q cid s = some c ∧ c.for_ = .program b n pos ∧ c.accepted = true ∧ getF (F.mptLinkStatUp m) s = 1) ∧
    (∃ (l m k pu cw b : Nat) (s : State), halted s = false ∧ running .ldc s = true ∧ getF F.ldcCtrlDecEn s = 1 ∧ laneUsable .ldc l s = true ∧ bandAt m k s = none ∧ s.wb.reads = []) ∧
    (∃ (l m k pu cw b : Nat) (s : State), halted s = false ∧ running .ldc s = true ∧ getF F.ldcCtrlDecEn s = 1 ∧ laneUsable .ldc l s = true ∧ bandAt m k s = none ∧ s.wb.reads = []) ∧
    (∃ (l m k pu cw b : Nat) (x : UnitRead) (s : State), halted s = false ∧ running .ldc s = true ∧ getF F.ldcCtrlDecEn s = 1 ∧ laneUsable .ldc l s = true ∧ bandAt m k s = none ∧ s.wb.reads = [x] ∧ x.cws.contains (m, k, pu, cw) = true ∧ bandOf (uBand x.uaddr) s = none) ∧
    (∃ (m k pu cw st d : Nat) (x : UnitRead) (b : Band) (s : State), halted s = false ∧ s.wb.reads.find? (fun x => x.cws.contains (m, k, pu, cw)) = some x ∧ running .ldc s = true ∧ 1 ≤ st ∧ st ≤ retryMax m s ∧ reachable m s = true ∧ bandOf (uBand x.uaddr) s = some b ∧ posAt b m k pu s = some d ∧ getF F.ldcCfgEarlyRecon s = 0) :=
  ⟨⟨1, 0, 0, 1, [], { m := 1, q := 0, cid := 0, opc := 4, gen := 0, block := 1, pu := 0, cw := 0, cws := 0, retry := 0, for_ := .erase 1, issued := 0, accepted := false, late := false, again := false }, setF (F.mptLinkStatUp 1) 1 { State.reset with mods.cmds := [{ m := 1, q := 0, cid := 0, opc := 4, gen := 0, block := 1, pu := 0, cw := 0, cws := 0, retry := 0, for_ := .erase 1, issued := 0, accepted := false, late := false, again := false }] }, by decide⟩,
   ⟨1, 0, 0, [], { m := 1, q := 0, cid := 0, opc := 4, gen := 0, block := 1, pu := 0, cw := 0, cws := 0, retry := 0, for_ := .erase 1, issued := 0, accepted := false, late := false, again := false }, setF (F.mptLinkStatUp 1) 1 { State.reset with mods.cmds := [{ m := 1, q := 0, cid := 0, opc := 4, gen := 0, block := 1, pu := 0, cw := 0, cws := 0, retry := 0, for_ := .erase 1, issued := 0, accepted := false, late := false, again := false }] }, by decide⟩,
   ⟨1, 0, 0, 1, 0, [], { m := 1, q := 0, cid := 0, opc := 1, gen := 0, block := 1, pu := 0, cw := 0, cws := 2, retry := 0, for_ := .read 1 0, issued := 0, accepted := false, late := false, again := false }, setF (F.mptLinkStatUp 1) 1 { State.reset with mods.cmds := [{ m := 1, q := 0, cid := 0, opc := 1, gen := 0, block := 1, pu := 0, cw := 0, cws := 2, retry := 0, for_ := .read 1 0, issued := 0, accepted := false, late := false, again := false }] }, by decide⟩,
   ⟨1, 0, 0, 1, 0, 2, { m := 1, q := 0, cid := 0, opc := 3, gen := 0, block := 1, pu := 0, cw := 0, cws := 0, retry := 0, for_ := .program 1 0 2, issued := 0, accepted := false, late := false, again := false }, setF (F.mptLinkStatUp 1) 1 { State.reset with mods.cmds := [{ m := 1, q := 0, cid := 0, opc := 3, gen := 0, block := 1, pu := 0, cw := 0, cws := 0, retry := 0, for_ := .program 1 0 2, issued := 0, accepted := false, late := false, again := false }] }, by decide⟩,
   ⟨1, 0, 2, .accepted, { band := 1, no := 0, chunks := [.sent, .sent, .sent, .sent], dataEnd := 0, stream := [], items := [], parity := false, early := false, closed := false, degraded := false, dueAt := none, held := true, recover := false, isMeta := false, isGc := false }, { State.reset with par.stripes := [{ band := 1, no := 0, chunks := [.sent, .sent, .sent, .sent], dataEnd := 0, stream := [], items := [], parity := false, early := false, closed := false, degraded := false, dueAt := none, held := true, recover := false, isMeta := false, isGc := false }] }, by decide⟩,
   ⟨1, 0, 0, 1, 0, 2, { m := 1, q := 0, cid := 0, opc := 3, gen := 0, block := 1, pu := 0, cw := 0, cws := 0, retry := 0, for_ := .program 1 0 2, issued := 0, accepted := true, late := false, again := false }, setF (F.mptLinkStatUp 1) 1 { State.reset with mods.cmds := [{ m := 1, q := 0, cid := 0, opc := 3, gen := 0, block := 1, pu := 0, cw := 0, cws := 0, retry := 0, for_ := .program 1 0 2, issued := 0, accepted := true, late := false, again := false }] }, by decide⟩,
   ⟨0, 1, 1, 0, 0, 5, setF F.ldcCtrlDecEn 1 <| setState .ldc 2 State.reset, by decide⟩,
   ⟨0, 1, 1, 0, 0, 5, setF F.ldcCtrlDecEn 1 <| setState .ldc 2 State.reset, by decide⟩,
   ⟨0, 1, 1, 0, 0, 5, { id := 1, for_ := .host 3, nsid := 1, unit := 5, stage := .module_, uaddr := 0, ovMask := 0, ovData := [], body := [], cws := [(1, 1, 0, 0)], gone := [], late := [], tries := [] }, setF F.ldcCtrlDecEn 1 <| setState .ldc 2 { State.reset with wb.reads := [{ id := 1, for_ := .host 3, nsid := 1, unit := 5, stage := .module_, uaddr := 0, ovMask := 0, ovData := [], body := [], cws := [(1, 1, 0, 0)], gone := [], late := [], tries := [] }] }, by decide⟩,
   ⟨1, 1, 0, 0, 1, 1, { id := 1, for_ := .host 3, nsid := 1, unit := 5, stage := .module_, uaddr := (2 ^ 40 + 4), ovMask := 0, ovData := [], body := [], cws := [(1, 1, 0, 0)], gone := [], late := [], tries := [] }, { no := 1, st := .open_, d := 3, p := 1, k := 8, cls := 0, bseq := 1, live := 0, stripes := 1, cbits := 0, isMeta := false, isGc := false, reloc := false, short := false, degraded := false, mine := true, members := [(0, [1]), (1, [1]), (2, [1]), (3, [1])], fwd := 0, openCseq := 1, wrong := [] }, loadF F.ldcCfgEarlyRecon 0 <| loadF F.ldcCfgRetryMax 0 <| setF (F.mptLinkStatUp 1) 1 <| setState .ldc 2 { State.reset with ftu.bands := [{ no := 1, st := .open_, d := 3, p := 1, k := 8, cls := 0, bseq := 1, live := 0, stripes := 1, cbits := 0, isMeta := false, isGc := false, reloc := false, short := false, degraded := false, mine := true, members := [(0, [1]), (1, [1]), (2, [1]), (3, [1])], fwd := 0, openCseq := 1, wrong := [] }], par.members := [(0, { st := .present, serial := 0, timeouts := [], arounds := 0, declared := 0, downAt := none, fatal := false }), (1, { st := .present, serial := 0, timeouts := [], arounds := 0, declared := 0, downAt := none, fatal := false }), (2, { st := .present, serial := 0, timeouts := [], arounds := 0, declared := 0, downAt := none, fatal := false }), (3, { st := .present, serial := 0, timeouts := [], arounds := 0, declared := 0, downAt := none, fatal := false })], mods.mir := [(0, { magic := 0, version := 1, major := 1, serial := 7, holdup := false, softRead := true, i3c := true, luns := 1, planes := 1, blocksPerLun := 8, pusPerBlock := 1, sysBlocks := 0, puBytes := 65536, ratedErases := 1000, wear := 0, relocThr := 100, retrySteps := 4, tProgMax := 10, tEraseMax := 20, crcOk := true, words := [] }), (1, { magic := 0, version := 1, major := 1, serial := 7, holdup := false, softRead := true, i3c := true, luns := 1, planes := 1, blocksPerLun := 8, pusPerBlock := 1, sysBlocks := 0, puBytes := 65536, ratedErases := 1000, wear := 0, relocThr := 100, retrySteps := 4, tProgMax := 10, tEraseMax := 20, crcOk := true, words := [] }), (2, { magic := 0, version := 1, major := 1, serial := 7, holdup := false, softRead := true, i3c := true, luns := 1, planes := 1, blocksPerLun := 8, pusPerBlock := 1, sysBlocks := 0, puBytes := 65536, ratedErases := 1000, wear := 0, relocThr := 100, retrySteps := 4, tProgMax := 10, tEraseMax := 20, crcOk := true, words := [] }), (3, { magic := 0, version := 1, major := 1, serial := 7, holdup := false, softRead := true, i3c := true, luns := 1, planes := 1, blocksPerLun := 8, pusPerBlock := 1, sysBlocks := 0, puBytes := 65536, ratedErases := 1000, wear := 0, relocThr := 100, retrySteps := 4, tProgMax := 10, tEraseMax := 20, crcOk := true, words := [] })], wb.reads := [{ id := 1, for_ := .host 3, nsid := 1, unit := 5, stage := .module_, uaddr := (2 ^ 40 + 4), ovMask := 0, ovData := [], body := [], cws := [(1, 1, 0, 0)], gone := [], late := [], tries := [] }] }, by decide⟩⟩

/-- Hypotheses of TimeFollowsItsSource hold together. -/
theorem witness_TimeFollowsItsSource :
    (∃ (x : Option Int) (o : Int) (s : State), halted s = false ∧ running .eph s = true ∧ srcOffset x s = some o) ∧
    (∃ (o : Int) (s : State), getF F.ephStatState s = 0) ∧
    (∃ (o : Int) (s : State), getF F.ephStatState s ≠ 0 ∧ o.natAbs < 1000000) ∧
    (∃ (o : Int) (s : State), getF F.ephStatState s ≠ 0 ∧ 1000000 ≤ o.natAbs) ∧
    (∃ (x : Option Int) (s : State), halted s = false ∧ running .eph s = true ∧ srcOffset x s = none ∧ getF F.ephStatState s = 2) ∧
    (∃ (p : Nat) (o : Int) (s : State), halted s = false ∧ ptpOn p s = true) ∧
    (∃ (p k : Nat) (s : State), halted s = false ∧ ptpOn p s = true) ∧
    (∃ (p : Nat) (s : State), halted s = false ∧ s.fab.announce.any (fun a => a.port == p) = true) ∧
    (∃ (s : State), halted s = false ∧ running .eph s = true ∧ getF F.ephStatSetPend s = 1 ∧ getF F.ephCtrlSrc s = 2) ∧
    (∃ (s : State), halted s = false ∧ getF (H.pwrState .eph) s ≠ 2 ∧ getF (H.state .eph) s ≠ 5 ∧ getF F.ephCtrlSrc s = 2) ∧
    (∃ (s : State), halted s = false ∧ getF (H.pwrState .eph) s ≠ 2 ∧ getF (H.state .eph) s ≠ 5 ∧ getF F.ephCtrlSrc s ≠ 2) ∧
    (∃ (t : Nat) (s : State), halted s = false ∧ s.eph.setAt = some t ∧ 2000000000 ≤ s.now - t) ∧
    (∃ (s : State), halted s = false ∧ ppsOutOn s = true ∧ s.eph.time % 1000000000 ≤ 8) ∧
    (∃ (s : State), halted s = false ∧ ppsOutOn s = false) :=
  ⟨⟨some 5, 5, setState .eph 2 <| setF (F.fabPtpPtpEn 1) 1 <| setF (F.fabLinkStatUp 1) 1 { State.reset with fab.announce := [{ port := 1, quality := 5 }] }, by decide⟩,
   ⟨5, State.reset, by decide⟩,
   ⟨5, setF F.ephStatState 2 State.reset, by decide⟩,
   ⟨-1000000, setF F.ephStatState 2 State.reset, by decide⟩,
   ⟨none, setState .eph 2 <| setF F.ephStatState 2 State.reset, by decide⟩,
   ⟨1, -3, setState (.fab 1) 2 <| setF (F.fabPtpPtpEn 1) 1 <| setF (F.fabLinkStatUp 1) 1 State.reset, by decide⟩,
   ⟨1, 5, setState (.fab 1) 2 <| setF (F.fabPtpPtpEn 1) 1 <| setF (F.fabLinkStatUp 1) 1 State.reset, by decide⟩,
   ⟨1, { State.reset with fab.announce := [{ port := 1, quality := 5 }] }, by decide⟩,
   ⟨setState .eph 2 <| setF F.ephStatSetPend 1 <| loadF F.ephCtrlSrc 2 State.reset, by decide⟩,
   ⟨loadF F.ephCtrlSrc 2 State.reset, by decide⟩,
   ⟨loadF F.ephCtrlSrc 1 State.reset, by decide⟩,
   ⟨0, { State.reset with now := 2000000000, eph.setAt := some 0 }, by decide⟩,
   ⟨setF F.ephCtrlPpsOutEn 1 <| setF F.ephStatState 2 State.reset, by decide⟩,
   ⟨State.reset, by decide⟩⟩

/-- Hypotheses of EphemerisFiresCutsAndWindows hold together. -/
theorem witness_EphemerisFiresCutsAndWindows :
    (∃ (e : Nat) (x : Entry) (s : State), halted s = false ∧ s.eph.entries = [x] ∧ x.no = e ∧ ephFires s = true ∧ dueEntry x s = true ∧ (x.kind = .winGc ∨ x.kind = .winPatrol ∨ x.kind = .winDedup)) ∧
    (∃ (x : Entry) (s : State), s.eph.time < x.start + (s.eph.time - x.start) / max 1 x.period * x.period + 1000000000 * getF (F.ephWinDurDurS x.ref) s) ∧
    (∃ (e : Nat) (x : Entry) (c : CutDef) (s : State), halted s = false ∧ s.eph.entries = [x] ∧ x.no = e ∧ ephFires s = true ∧ dueEntry x s = true ∧ x.kind = .snapCut ∧ cutOf x.ref s = some c ∧ jrnlRoom s = true ∧ lateNow x s = false ∧ x.requireTime = false) ∧
    (∃ (e : Nat) (x : Entry) (c : CutDef) (s : State), halted s = false ∧ s.eph.entries = [x] ∧ x.no = e ∧ ephFires s = true ∧ dueEntry x s = true ∧ x.kind = .snapCut ∧ cutOf x.ref s = some c ∧ jrnlRoom s = true ∧ x.skipLate = true ∧ lateNow x s = true) ∧
    (∃ (k : Nat) (s : State), halted s = false) ∧
    (∃ (e g : Nat) (s : State), halted s = false ∧ s.eph.guards = [(e, g)] ∧ g ≤ s.eph.time) ∧
    (∃ (n : Nat) (e : Epoch) (s : State), halted s = false ∧ s.eph.epochs.find? (fun e => e.no == n) = some e ∧ e.st = .pending ∧ (nsOf e.nsid s).any (fun x => ownsNs x s) = true ∧ epochSettled e s = true ∧ jrnlRoom s = true ∧ s.repl.streams = [] ∧ s.eph.cuts = []) ∧
    (∃ (l : List Nat) (s : State), halted s = false ∧ troysUp s = true) ∧
    (∃ (q tag no : Nat) (b : SnapBody) (s : State), halted s = false ∧ mgmtReady q tag 0x0030 s = true ∧ nsListOk b.nsids = true ∧ b.instant = 0 ∧ b.nsids.any (fun n => (nsOf n s).isNone) = false ∧ peerNs b.nsids s = false ∧ freeEntry s = some no) ∧
    (∃ (q tag no : Nat) (b : PlaceBody) (s : State), halted s = false ∧ mgmtReady q tag 0x003A s = true ∧ nsListOk b.nsids = true ∧ b.instant ≠ 0 ∧ b.instant % 8 = 0 ∧ periodOk b.period = true ∧ b.retain ≤ 4095 ∧ timeUnset s = false ∧ s.eph.time + 50000 ≤ b.instant ∧ b.nsids.any (fun n => (nsOf n s).isNone) = false ∧ runsAlone s = true ∧ freeEntry s = some no) ∧
    (∃ (q tag e : Nat) (x : Entry) (s : State), halted s = false ∧ mgmtReady q tag 0x003B s = true ∧ s.eph.entries.find? (fun x => x.no == e) = some x ∧ x.kind = .snapCut ∧ cutOf x.ref s = none) ∧
    (∃ (q tag n e : Nat) (x : Epoch) (y : Namespace) (s : State), halted s = false ∧ mgmtReady q tag 0x0031 s = true ∧ s.eph.epochs.find? (fun x => x.no == e && x.nsid == n && x.st != .deleting) = some x ∧ nsOf n s = some y ∧ ownsNs y s = true ∧ x.clones = 0 ∧ heldEpoch e s = false) ∧
    (∃ (n : Nat) (e : Epoch) (s : State), halted s = false ∧ s.eph.epochs.find? (fun e => e.no == n) = some e ∧ e.st = .deleting ∧ running .ftu s = true ∧ s.ftu.pages = []) ∧
    (∃ (q tag : Nat) (b : CloneBody) (x : Namespace) (e : Epoch) (g : AnaGroup) (s : State), halted s = false ∧ mgmtReady q tag 0x0032 s = true ∧ nsOf b.srcNsid s = some x ∧ 1 ≤ b.nsid ∧ b.nsid ≤ 32768 ∧ 1 ≤ b.group ∧ b.group ≤ 1024 ∧ b.tenant ≤ 4091 ∧ s.eph.epochs.find? (fun e => e.no == b.srcEpoch && e.nsid == b.srcNsid && e.st == .ready) = some e ∧ ownsNs x s = true ∧ groupOf b.group s = some g ∧ g.mine = true ∧ sanActive s = false ∧ troysUp s = true ∧ cloneDepth 17 b.srcNsid s < 16 ∧ nsidTaken b.nsid s = false) :=
  ⟨⟨3, { no := 3, kind := .winGc, start := 0, next := 0, period := 1000000000, left := 0, skipLate := true, requireTime := false, ref := 0, dormant := false }, setF F.ephCtrlFireEn 1 <| setF F.ephStatState 2 { State.reset with eph.entries := [{ no := 3, kind := .winGc, start := 0, next := 0, period := 1000000000, left := 0, skipLate := true, requireTime := false, ref := 0, dormant := false }] }, by decide⟩,
   ⟨{ no := 3, kind := .winGc, start := 0, next := 0, period := 1000000000, left := 0, skipLate := true, requireTime := false, ref := 0, dormant := false }, loadF (F.ephWinDurDurS 0) 1 State.reset, by decide⟩,
   ⟨3, { no := 3, kind := .snapCut, start := 0, next := 0, period := 0, left := 1, skipLate := true, requireTime := false, ref := 1, dormant := false }, { no := 1, nsids := [1], groupId := 0, retain := 0, mgmt := none, status := 0, time := 0, got := [] }, setF F.ephCtrlFireEn 1 <| setF F.ephStatState 2 { State.reset with eph.entries := [{ no := 3, kind := .snapCut, start := 0, next := 0, period := 0, left := 1, skipLate := true, requireTime := false, ref := 1, dormant := false }], eph.cuts := [{ no := 1, nsids := [1], groupId := 0, retain := 0, mgmt := none, status := 0, time := 0, got := [] }] }, by decide⟩,
   ⟨3, { no := 3, kind := .snapCut, start := 0, next := 0, period := 0, left := 1, skipLate := true, requireTime := false, ref := 1, dormant := false }, { no := 1, nsids := [1], groupId := 0, retain := 0, mgmt := none, status := 0, time := 0, got := [] }, setF F.ephCtrlFireEn 1 <| setF F.ephStatState 2 { State.reset with eph.time := 1008, eph.entries := [{ no := 3, kind := .snapCut, start := 0, next := 0, period := 0, left := 1, skipLate := true, requireTime := false, ref := 1, dormant := false }], eph.cuts := [{ no := 1, nsids := [1], groupId := 0, retain := 0, mgmt := none, status := 0, time := 0, got := [] }] }, by decide⟩,
   ⟨2, State.reset, by decide⟩,
   ⟨9, 0, { State.reset with eph.guards := [(9, 0)] }, by decide⟩,
   ⟨9, { no := 9, nsid := 1, slot := 1, cutSeq := 1, instant := 0, groupId := 0, st := .pending, internal := false, received := false, retain := 0, late := false, unsure := false, sched := 0xFFFF, clones := 0, mgmt := none }, { State.reset with eph.epochs := [{ no := 9, nsid := 1, slot := 1, cutSeq := 1, instant := 0, groupId := 0, st := .pending, internal := false, received := false, retain := 0, late := false, unsure := false, sched := 0xFFFF, clones := 0, mgmt := none }], hqe.ns := [{ nsid := 1, group := 1, tenant := 0, nsze := 1000, lbaf := 1, cmpMode := 0, cmpLevel := 0, grouping := 0, domain := 0, layout := 0, key := 0, nextKey := 0, nguid := 7, resv := noResv, mixed := false, oldPct := 0, attrGen := 0, format := none, deleting := none, cloneOf := 0, protect := false }], hqe.groups := [{ id := 1, mine := true, change := false }] }, by decide⟩,
   ⟨[5], setF (F.tlLinkStatUp 0) 1 State.reset, by decide⟩,
   ⟨1, 7, 16, { instant := 0, groupId := 0, nsids := [1], skipLate := true, requireTime := false }, { State.reset with mgmt.cmds := [{ q := 1, tag := 7, opcode := 0x30, fence := false, dataLen := 0, started := false, reject := none, unposted := false }], hqe.ns := [{ nsid := 1, group := 1, tenant := 0, nsze := 1000, lbaf := 1, cmpMode := 0, cmpLevel := 0, grouping := 0, domain := 0, layout := 0, key := 0, nextKey := 0, nguid := 7, resv := noResv, mixed := false, oldPct := 0, attrGen := 0, format := none, deleting := none, cloneOf := 0, protect := false }], hqe.groups := [{ id := 1, mine := true, change := false }] }, by decide⟩,
   ⟨1, 7, 16, { instant := 1000000, period := 0, skipLate := true, requireTime := false, nsids := [1], count := 0, retain := 0, groupId := 0 }, setF F.ephStatState 2 { State.reset with mgmt.cmds := [{ q := 1, tag := 7, opcode := 0x3A, fence := false, dataLen := 0, started := false, reject := none, unposted := false }], hqe.ns := [{ nsid := 1, group := 1, tenant := 0, nsze := 1000, lbaf := 1, cmpMode := 0, cmpLevel := 0, grouping := 0, domain := 0, layout := 0, key := 0, nextKey := 0, nguid := 7, resv := noResv, mixed := false, oldPct := 0, attrGen := 0, format := none, deleting := none, cloneOf := 0, protect := false }], hqe.groups := [{ id := 1, mine := true, change := false }], pair.role := .alone }, by decide⟩,
   ⟨1, 7, 3, { no := 3, kind := .snapCut, start := 0, next := 0, period := 0, left := 1, skipLate := true, requireTime := false, ref := 1, dormant := false }, { State.reset with mgmt.cmds := [{ q := 1, tag := 7, opcode := 0x3B, fence := false, dataLen := 0, started := false, reject := none, unposted := false }], hqe.ns := [{ nsid := 1, group := 1, tenant := 0, nsze := 1000, lbaf := 1, cmpMode := 0, cmpLevel := 0, grouping := 0, domain := 0, layout := 0, key := 0, nextKey := 0, nguid := 7, resv := noResv, mixed := false, oldPct := 0, attrGen := 0, format := none, deleting := none, cloneOf := 0, protect := false }], hqe.groups := [{ id := 1, mine := true, change := false }], eph.entries := [{ no := 3, kind := .snapCut, start := 0, next := 0, period := 0, left := 1, skipLate := true, requireTime := false, ref := 1, dormant := false }] }, by decide⟩,
   ⟨1, 7, 1, 9, { no := 9, nsid := 1, slot := 1, cutSeq := 1, instant := 0, groupId := 0, st := .ready, internal := false, received := false, retain := 0, late := false, unsure := false, sched := 0xFFFF, clones := 0, mgmt := none }, { nsid := 1, group := 1, tenant := 0, nsze := 1000, lbaf := 1, cmpMode := 0, cmpLevel := 0, grouping := 0, domain := 0, layout := 0, key := 0, nextKey := 0, nguid := 7, resv := noResv, mixed := false, oldPct := 0, attrGen := 0, format := none, deleting := none, cloneOf := 0, protect := false }, { State.reset with mgmt.cmds := [{ q := 1, tag := 7, opcode := 0x31, fence := false, dataLen := 0, started := false, reject := none, unposted := false }], hqe.ns := [{ nsid := 1, group := 1, tenant := 0, nsze := 1000, lbaf := 1, cmpMode := 0, cmpLevel := 0, grouping := 0, domain := 0, layout := 0, key := 0, nextKey := 0, nguid := 7, resv := noResv, mixed := false, oldPct := 0, attrGen := 0, format := none, deleting := none, cloneOf := 0, protect := false }], hqe.groups := [{ id := 1, mine := true, change := false }], eph.epochs := [{ no := 9, nsid := 1, slot := 1, cutSeq := 1, instant := 0, groupId := 0, st := .ready, internal := false, received := false, retain := 0, late := false, unsure := false, sched := 0xFFFF, clones := 0, mgmt := none }] }, by decide⟩,
   ⟨9, { no := 9, nsid := 1, slot := 1, cutSeq := 1, instant := 0, groupId := 0, st := .deleting, internal := false, received := false, retain := 0, late := false, unsure := false, sched := 0xFFFF, clones := 0, mgmt := none }, setState .ftu 2 { State.reset with eph.epochs := [{ no := 9, nsid := 1, slot := 1, cutSeq := 1, instant := 0, groupId := 0, st := .deleting, internal := false, received := false, retain := 0, late := false, unsure := false, sched := 0xFFFF, clones := 0, mgmt := none }] }, by decide⟩,
   ⟨1, 7, { nsid := 2, srcNsid := 1, srcEpoch := 9, group := 1, tenant := 0, key := 0, nextKey := 0, nguid := 0 }, { nsid := 1, group := 1, tenant := 0, nsze := 1000, lbaf := 1, cmpMode := 0, cmpLevel := 0, grouping := 0, domain := 0, layout := 0, key := 0, nextKey := 0, nguid := 7, resv := noResv, mixed := false, oldPct := 0, attrGen := 0, format := none, deleting := none, cloneOf := 0, protect := false }, { no := 9, nsid := 1, slot := 1, cutSeq := 1, instant := 0, groupId := 0, st := .ready, internal := false, received := false, retain := 0, late := false, unsure := false, sched := 0xFFFF, clones := 0, mgmt := none }, { id := 1, mine := true, change := false }, setF (F.tlLinkStatUp 0) 1 { State.reset with mgmt.cmds := [{ q := 1, tag := 7, opcode := 0x32, fence := false, dataLen := 0, started := false, reject := none, unposted := false }], hqe.ns := [{ nsid := 1, group := 1, tenant := 0, nsze := 1000, lbaf := 1, cmpMode := 0, cmpLevel := 0, grouping := 0, domain := 0, layout := 0, key := 0, nextKey := 0, nguid := 7, resv := noResv, mixed := false, oldPct := 0, attrGen := 0, format := none, deleting := none, cloneOf := 0, protect := false }], hqe.groups := [{ id := 1, mine := true, change := false }], eph.epochs := [{ no := 9, nsid := 1, slot := 1, cutSeq := 1, instant := 0, groupId := 0, st := .ready, internal := false, received := false, retain := 0, late := false, unsure := false, sched := 0xFFFF, clones := 0, mgmt := none }] }, by decide⟩⟩

/-- Hypotheses of CutGivesItsEpochTheCurrentMap hold together. -/
theorem witness_CutGivesItsEpochTheCurrentMap :
    (∃ (x : Epoch) (n i : Nat) (r : List Nat) (s : State), s.eph.reserve = n :: r ∧ n ≠ 0 ∧ (s.eph.epochs.filter fun e => e.nsid == i).length < 4096 ∧ s.eph.epochs.length < 1048575) ∧
    (∃ (x : Epoch) (i : Nat) (s : State), s.eph.reserve = []) :=
  ⟨⟨{ no := 9, nsid := 1, slot := 1, cutSeq := 1, instant := 0, groupId := 0, st := .pending, internal := false, received := false, retain := 0, late := false, unsure := false, sched := 0xFFFF, clones := 0, mgmt := none }, 9, 1, [], { State.reset with eph.reserve := [9] }, by decide⟩,
   ⟨{ no := 9, nsid := 1, slot := 1, cutSeq := 1, instant := 0, groupId := 0, st := .pending, internal := false, received := false, retain := 0, late := false, unsure := false, sched := 0xFFFF, clones := 0, mgmt := none }, 1, State.reset, by decide⟩⟩

/-- Hypotheses of ReplicationStreamsAreSetUpConnectedAndEnded hold together. -/
theorem witness_ReplicationStreamsAreSetUpConnectedAndEnded :
    (∃ (q tag n k : Nat) (b : ReplBody) (s : State), halted s = false ∧ mgmtReady q tag 0x38 s = true ∧ replBodyOk b = true ∧ b.target = false ∧ b.sync = false ∧ b.firstCut = 0 ∧ b.ns.all (fun p => (nsOf p.1 s).isSome) = true ∧ peerNs (b.ns.map (·.1)) s = false ∧ s.repl.streams = [] ∧ (runsAlone s = true ∨ troysUp s = true) ∧ freeStream s = some n ∧ freeEntry s = some k) ∧
    (∃ (q tag n : Nat) (b : ReplBody) (s : State), halted s = false ∧ mgmtReady q tag 0x38 s = true ∧ replBodyOk b = true ∧ b.target = true ∧ b.sync = false ∧ b.firstCut = 0 ∧ b.ns.all (fun p => (nsOf p.1 s).isSome) = true ∧ peerNs (b.ns.map (·.1)) s = false ∧ s.repl.streams = [] ∧ (runsAlone s = true ∨ troysUp s = true) ∧ freeStream s = some n ∧ (streamKeys b s).1 ≠ stSuccess) ∧
    (∃ (q tag n : Nat) (p k : Bool) (s : State), halted s = false ∧ mgmtReady q tag 0x39 s = true ∧ streamId? n s = none) ∧
    (∃ (q tag n : Nat) (k : Bool) (x : Stream) (s : State), halted s = false ∧ mgmtReady q tag 0x39 s = true ∧ s.repl.streams = [x] ∧ x.body.streamId = n ∧ s.repl.conns = [] ∧ x.body.target = true) ∧
    (∃ (streamId port : Nat) (x : Stream) (s : State), halted s = false ∧ streamId? streamId s = some x ∧ x.body.target = false ∧ x.mine = true ∧ x.st ≠ .broken ∧ port < 4 ∧ bit x.body.ports port = true ∧ s.repl.conns = [] ∧ x.tried = [] ∧ getF (F.fabLinkStatUp port) s = 1 ∧ running .toe s = true) ∧
    (∃ (conn : Nat) (f : Frame) (nonce : List Byte) (x : Stream) (s : State), halted s = false ∧ nonce.length = 16 ∧ s.fab.conns.any (fun c => c.id == conn && c.kind == .repl) = true ∧ s.repl.conns = [] ∧ f.magic = frameMagic ∧ f.version = 1 ∧ f.dir = 0 ∧ f.fseq = 0 ∧ 32 ≤ f.payload.length ∧ f.payload.length % 16 = 0 ∧ s.repl.streams.find? (fun x => x.body.streamId == f.streamId && x.body.target) = some x ∧ (helloNs f.payload).map (·.1) = x.body.ns.map (·.1) ∧ (helloNs f.payload).all (fun p => (nsOf p.1 s).isSome) = true ∧ x.st = .active ∧ macOk x.mac (zeros 32) 1 f = true) ∧
    (∃ (conn : Nat) (f : Frame) (r : ReplConn) (x : Stream) (s : State), halted s = false ∧ s.repl.conns.find? (fun r => r.conn == conn && !r.up) = some r ∧ streamOf r.slot s = some x ∧ x.body.target = false ∧ f.magic = frameMagic ∧ f.version = 1 ∧ f.streamId = x.body.streamId ∧ f.dir = 1 ∧ f.fseq = 0 ∧ f.payload.length = 20 + 4 * x.body.ns.length ∧ fieldAt f.payload 16 4 = 0 ∧ macOk x.mac (zeros 32) 2 f = true) ∧
    (∃ (conn : Nat) (f : Frame) (r : ReplConn) (x : Stream) (s : State), halted s = false ∧ frameOk conn 0x30 f.dir f r x s = true ∧ f.payload = [] ∧ f.ref = 0 ∧ f.dir < 2) ∧
    (∃ (conn : Nat) (s : State), halted s = false ∧ s.repl.conns.any (fun r => r.conn == conn && r.up && decide (1000000000 ≤ s.now - r.lastTx)) = true) ∧
    (∃ (conn : Nat) (f : Frame) (r : ReplConn) (x : Stream) (s : State), halted s = false ∧ frameOk conn 0x31 f.dir f r x s = true ∧ f.payload.length = 4 ∧ f.ref = 0 ∧ f.dir < 2) ∧
    (∃ (conn : Nat) (s : State), halted s = false ∧ s.repl.conns.any (fun r => r.conn == conn && decide (10000000000 ≤ s.now - r.lastRx)) = true) ∧
    (∃ (h : Nat) (x : Stream) (s : State), halted s = false ∧ s.repl.streams = [x] ∧ x.acks.any (fun a => a.2.1 == h && decide (1000 * x.body.graceUs ≤ s.now - a.2.2)) = true) ∧
    (∃ (x : Stream) (s : State), streamOf x.slot s = some x ∧ x.body.target = false ∧ x.body.sync = true ∧ x.st = .active ∧ x.body.strict = false ∧ x.mine = true ∧ x.base = [] ∧ x.body.ns = []) ∧
    (∃ (i : Nat) (x : Stream) (s : State), halted s = false ∧ streamId? i s = some x ∧ x.st = .fractured ∧ x.mine = true) ∧
    (∃ (x : Stream) (s : State), streamOf x.slot s = some x ∧ x.body.sync = true ∧ x.body.target = false ∧ x.cut = none ∧ x.st = .fractured ∧ connsUp x.slot s ≠ [] ∧ jrnlRoom s = true ∧ (takeCut (x.body.ns.map (·.1)) 0 0xFFFF 0 true false false none s).1.all (fun p => p.2 != 0) = true) :=
  ⟨⟨1, 7, 0, 16, { streamId := 5, target := false, sync := false, fpFirst := false, strict := false, compress := false, ports := 1, remotePort := 4420, graceUs := 100, period := 0, firstCut := 0, addrs := [9], wrapSlot := 0, macKey := [], xferKey := [], ns := [(1, 1)] }, setF (F.tlLinkStatUp 0) 1 { State.reset with mgmt.cmds := [{ q := 1, tag := 7, opcode := 0x38, fence := false, dataLen := 0, started := false, reject := none, unposted := false }], hqe.ns := [{ nsid := 1, group := 1, tenant := 0, nsze := 1000, lbaf := 1, cmpMode := 0, cmpLevel := 0, grouping := 0, domain := 0, layout := 0, key := 0, nextKey := 0, nguid := 7, resv := noResv, mixed := false, oldPct := 0, attrGen := 0, format := none, deleting := none, cloneOf := 0, protect := false }], hqe.groups := [{ id := 1, mine := true, change := false }] }, by decide⟩,
   ⟨1, 7, 0, { streamId := 5, target := true, sync := false, fpFirst := false, strict := false, compress := false, ports := 1, remotePort := 4420, graceUs := 100, period := 0, firstCut := 0, addrs := [9], wrapSlot := 0, macKey := [], xferKey := [], ns := [(1, 1)] }, setF (F.tlLinkStatUp 0) 1 { State.reset with mgmt.cmds := [{ q := 1, tag := 7, opcode := 0x38, fence := false, dataLen := 0, started := false, reject := none, unposted := false }], hqe.ns := [{ nsid := 1, group := 1, tenant := 0, nsze := 1000, lbaf := 1, cmpMode := 0, cmpLevel := 0, grouping := 0, domain := 0, layout := 0, key := 0, nextKey := 0, nguid := 7, resv := noResv, mixed := false, oldPct := 0, attrGen := 0, format := none, deleting := none, cloneOf := 0, protect := false }], hqe.groups := [{ id := 1, mine := true, change := false }] }, by decide⟩,
   ⟨1, 7, 5, true, true, { State.reset with mgmt.cmds := [{ q := 1, tag := 7, opcode := 0x39, fence := false, dataLen := 0, started := false, reject := none, unposted := false }], hqe.ns := [{ nsid := 1, group := 1, tenant := 0, nsze := 1000, lbaf := 1, cmpMode := 0, cmpLevel := 0, grouping := 0, domain := 0, layout := 0, key := 0, nextKey := 0, nguid := 7, resv := noResv, mixed := false, oldPct := 0, attrGen := 0, format := none, deleting := none, cloneOf := 0, protect := false }], hqe.groups := [{ id := 1, mine := true, change := false }] }, by decide⟩,
   ⟨1, 7, 5, true, { slot := 0, body := { streamId := 5, target := true, sync := false, fpFirst := false, strict := false, compress := false, ports := 1, remotePort := 4420, graceUs := 100, period := 0, firstCut := 0, addrs := [9], wrapSlot := 0, macKey := [], xferKey := [], ns := [(1, 1)] }, mine := true, st := .active, mac := [1], xfer := [2], base := [], baseAt := 0, cut := none, sending := false, fpq := [], batches := [], nData := 0, nDup := 0, nUnmap := 0, rcut := none, synced := [], skipped := 0, changed := [], sent := 0, saved := 0, lastCut := 0, acks := [], tried := [], authBad := 0 }, { State.reset with mgmt.cmds := [{ q := 1, tag := 7, opcode := 0x39, fence := false, dataLen := 0, started := false, reject := none, unposted := false }], hqe.ns := [{ nsid := 1, group := 1, tenant := 0, nsze := 1000, lbaf := 1, cmpMode := 0, cmpLevel := 0, grouping := 0, domain := 0, layout := 0, key := 0, nextKey := 0, nguid := 7, resv := noResv, mixed := false, oldPct := 0, attrGen := 0, format := none, deleting := none, cloneOf := 0, protect := false }], hqe.groups := [{ id := 1, mine := true, change := false }], repl.streams := [{ slot := 0, body := { streamId := 5, target := true, sync := false, fpFirst := false, strict := false, compress := false, ports := 1, remotePort := 4420, graceUs := 100, period := 0, firstCut := 0, addrs := [9], wrapSlot := 0, macKey := [], xferKey := [], ns := [(1, 1)] }, mine := true, st := .active, mac := [1], xfer := [2], base := [], baseAt := 0, cut := none, sending := false, fpq := [], batches := [], nData := 0, nDup := 0, nUnmap := 0, rcut := none, synced := [], skipped := 0, changed := [], sent := 0, saved := 0, lastCut := 0, acks := [], tried := [], authBad := 0 }] }, by decide⟩,
   ⟨5, 0, { slot := 0, body := { streamId := 5, target := false, sync := false, fpFirst := false, strict := false, compress := false, ports := 1, remotePort := 4420, graceUs := 100, period := 0, firstCut := 0, addrs := [9], wrapSlot := 0, macKey := [], xferKey := [], ns := [(1, 1)] }, mine := true, st := .active, mac := [1], xfer := [2], base := [], baseAt := 0, cut := none, sending := false, fpq := [], batches := [], nData := 0, nDup := 0, nUnmap := 0, rcut := none, synced := [], skipped := 0, changed := [], sent := 0, saved := 0, lastCut := 0, acks := [], tried := [], authBad := 0 }, setState .toe 2 <| setF (F.fabLinkStatUp 0) 1 { State.reset with repl.streams := [{ slot := 0, body := { streamId := 5, target := false, sync := false, fpFirst := false, strict := false, compress := false, ports := 1, remotePort := 4420, graceUs := 100, period := 0, firstCut := 0, addrs := [9], wrapSlot := 0, macKey := [], xferKey := [], ns := [(1, 1)] }, mine := true, st := .active, mac := [1], xfer := [2], base := [], baseAt := 0, cut := none, sending := false, fpq := [], batches := [], nData := 0, nDup := 0, nUnmap := 0, rcut := none, synced := [], skipped := 0, changed := [], sent := 0, saved := 0, lastCut := 0, acks := [], tried := [], authBad := 0 }] }, by decide⟩,
   ⟨8, { magic := 0x46524B48, version := 1, dir := 0, fua := false, flush := false, last := true, streamId := 5, fseq := 0, ref := 0, payload := [0, 0, 0, 0, 0, 0, 0, 0, 0, 0, 0, 0, 0, 0, 0, 0, 1, 0, 0, 0, 0, 0, 0, 0, 0, 0, 0, 0, 0, 0, 0, 0], mac := Config.hmac256 [1] (zeros 32 ++ frameHeader 1 { magic := 0x46524B48, version := 1, dir := 0, fua := false, flush := false, last := true, streamId := 5, fseq := 0, ref := 0, payload := [0, 0, 0, 0, 0, 0, 0, 0, 0, 0, 0, 0, 0, 0, 0, 0, 1, 0, 0, 0, 0, 0, 0, 0, 0, 0, 0, 0, 0, 0, 0, 0], mac := [] } ++ [0, 0, 0, 0, 0, 0, 0, 0, 0, 0, 0, 0, 0, 0, 0, 0, 1, 0, 0, 0, 0, 0, 0, 0, 0, 0, 0, 0, 0, 0, 0, 0]) }, List.replicate 16 0, { slot := 0, body := { streamId := 5, target := true, sync := false, fpFirst := false, strict := false, compress := false, ports := 1, remotePort := 4420, graceUs := 100, period := 0, firstCut := 0, addrs := [9], wrapSlot := 0, macKey := [], xferKey := [], ns := [] }, mine := true, st := .active, mac := [1], xfer := [2], base := [], baseAt := 0, cut := none, sending := false, fpq := [], batches := [], nData := 0, nDup := 0, nUnmap := 0, rcut := none, synced := [], skipped := 0, changed := [], sent := 0, saved := 0, lastCut := 0, acks := [], tried := [], authBad := 0 }, { State.reset with fab.conns := [{ id := 8, port := 0, kind := .repl, remote := 9, rport := 4420, ready := true, hdgst := false, ddgst := false, ctl := none, qid := 0, retx := 0, unacked := 0, cnp := 0 }], repl.streams := [{ slot := 0, body := { streamId := 5, target := true, sync := false, fpFirst := false, strict := false, compress := false, ports := 1, remotePort := 4420, graceUs := 100, period := 0, firstCut := 0, addrs := [9], wrapSlot := 0, macKey := [], xferKey := [], ns := [] }, mine := true, st := .active, mac := [1], xfer := [2], base := [], baseAt := 0, cut := none, sending := false, fpq := [], batches := [], nData := 0, nDup := 0, nUnmap := 0, rcut := none, synced := [], skipped := 0, changed := [], sent := 0, saved := 0, lastCut := 0, acks := [], tried := [], authBad := 0 }] }, ⟨by decide, by decide, by decide, by decide, by decide, by decide, by decide, by decide, by decide, by decide, by decide, by decide, by decide, by decide, beq_self_eq_true _⟩⟩,
   ⟨8, { magic := 0x46524B48, version := 1, dir := 1, fua := false, flush := false, last := true, streamId := 5, fseq := 0, ref := 0, payload := List.replicate 24 0, mac := Config.hmac256 [1] (zeros 32 ++ frameHeader 2 { magic := 0x46524B48, version := 1, dir := 1, fua := false, flush := false, last := true, streamId := 5, fseq := 0, ref := 0, payload := List.replicate 24 0, mac := [] } ++ List.replicate 24 0) }, { conn := 8, slot := 0, up := false, nonce := [3], connId := 4, fpOk := [], txSeq := 0, rxSeq := 0, lastRx := 0, lastTx := 0 }, { slot := 0, body := { streamId := 5, target := false, sync := false, fpFirst := false, strict := false, compress := false, ports := 1, remotePort := 4420, graceUs := 100, period := 0, firstCut := 0, addrs := [9], wrapSlot := 0, macKey := [], xferKey := [], ns := [(1, 1)] }, mine := true, st := .active, mac := [1], xfer := [2], base := [], baseAt := 0, cut := none, sending := false, fpq := [], batches := [], nData := 0, nDup := 0, nUnmap := 0, rcut := none, synced := [], skipped := 0, changed := [], sent := 0, saved := 0, lastCut := 0, acks := [], tried := [], authBad := 0 }, { State.reset with repl.conns := [{ conn := 8, slot := 0, up := false, nonce := [3], connId := 4, fpOk := [], txSeq := 0, rxSeq := 0, lastRx := 0, lastTx := 0 }], repl.streams := [{ slot := 0, body := { streamId := 5, target := false, sync := false, fpFirst := false, strict := false, compress := false, ports := 1, remotePort := 4420, graceUs := 100, period := 0, firstCut := 0, addrs := [9], wrapSlot := 0, macKey := [], xferKey := [], ns := [(1, 1)] }, mine := true, st := .active, mac := [1], xfer := [2], base := [], baseAt := 0, cut := none, sending := false, fpq := [], batches := [], nData := 0, nDup := 0, nUnmap := 0, rcut := none, synced := [], skipped := 0, changed := [], sent := 0, saved := 0, lastCut := 0, acks := [], tried := [], authBad := 0 }] }, ⟨by decide, by decide, by decide, by decide, by decide, by decide, by decide, by decide, by decide, by decide, by decide, beq_self_eq_true _⟩⟩,
   ⟨8, { magic := 0x46524B48, version := 1, dir := 0, fua := false, flush := false, last := true, streamId := 5, fseq := 1, ref := 0, payload := [], mac := Config.hmac256 [1] ([3] ++ frameHeader 48 { magic := 0x46524B48, version := 1, dir := 0, fua := false, flush := false, last := true, streamId := 5, fseq := 1, ref := 0, payload := [], mac := [] } ++ []) }, { conn := 8, slot := 0, up := true, nonce := [3], connId := 4, fpOk := [], txSeq := 0, rxSeq := 0, lastRx := 0, lastTx := 0 }, { slot := 0, body := { streamId := 5, target := true, sync := false, fpFirst := false, strict := false, compress := false, ports := 1, remotePort := 4420, graceUs := 100, period := 0, firstCut := 0, addrs := [9], wrapSlot := 0, macKey := [], xferKey := [], ns := [(1, 1)] }, mine := true, st := .active, mac := [1], xfer := [2], base := [], baseAt := 0, cut := none, sending := false, fpq := [], batches := [], nData := 0, nDup := 0, nUnmap := 0, rcut := none, synced := [], skipped := 0, changed := [], sent := 0, saved := 0, lastCut := 0, acks := [], tried := [], authBad := 0 }, { State.reset with repl.conns := [{ conn := 8, slot := 0, up := true, nonce := [3], connId := 4, fpOk := [], txSeq := 0, rxSeq := 0, lastRx := 0, lastTx := 0 }], repl.streams := [{ slot := 0, body := { streamId := 5, target := true, sync := false, fpFirst := false, strict := false, compress := false, ports := 1, remotePort := 4420, graceUs := 100, period := 0, firstCut := 0, addrs := [9], wrapSlot := 0, macKey := [], xferKey := [], ns := [(1, 1)] }, mine := true, st := .active, mac := [1], xfer := [2], base := [], baseAt := 0, cut := none, sending := false, fpq := [], batches := [], nData := 0, nDup := 0, nUnmap := 0, rcut := none, synced := [], skipped := 0, changed := [], sent := 0, saved := 0, lastCut := 0, acks := [], tried := [], authBad := 0 }] }, ⟨by decide, (by exact Eq.trans (congrArg (_ && ·) (beq_self_eq_true _)) (by decide)), by decide, by decide, by decide⟩⟩,
   ⟨8, { State.reset with now := 1000000000, repl.conns := [{ conn := 8, slot := 0, up := true, nonce := [3], connId := 4, fpOk := [], txSeq := 0, rxSeq := 0, lastRx := 0, lastTx := 0 }] }, by decide⟩,
   ⟨8, { magic := 0x46524B48, version := 1, dir := 0, fua := false, flush := false, last := true, streamId := 5, fseq := 1, ref := 0, payload := [1, 0, 0, 0], mac := Config.hmac256 [1] ([3] ++ frameHeader 49 { magic := 0x46524B48, version := 1, dir := 0, fua := false, flush := false, last := true, streamId := 5, fseq := 1, ref := 0, payload := [1, 0, 0, 0], mac := [] } ++ [1, 0, 0, 0]) }, { conn := 8, slot := 0, up := true, nonce := [3], connId := 4, fpOk := [], txSeq := 0, rxSeq := 0, lastRx := 0, lastTx := 0 }, { slot := 0, body := { streamId := 5, target := true, sync := false, fpFirst := false, strict := false, compress := false, ports := 1, remotePort := 4420, graceUs := 100, period := 0, firstCut := 0, addrs := [9], wrapSlot := 0, macKey := [], xferKey := [], ns := [(1, 1)] }, mine := true, st := .active, mac := [1], xfer := [2], base := [], baseAt := 0, cut := none, sending := false, fpq := [], batches := [], nData := 0, nDup := 0, nUnmap := 0, rcut := none, synced := [], skipped := 0, changed := [], sent := 0, saved := 0, lastCut := 0, acks := [], tried := [], authBad := 0 }, { State.reset with repl.conns := [{ conn := 8, slot := 0, up := true, nonce := [3], connId := 4, fpOk := [], txSeq := 0, rxSeq := 0, lastRx := 0, lastTx := 0 }], repl.streams := [{ slot := 0, body := { streamId := 5, target := true, sync := false, fpFirst := false, strict := false, compress := false, ports := 1, remotePort := 4420, graceUs := 100, period := 0, firstCut := 0, addrs := [9], wrapSlot := 0, macKey := [], xferKey := [], ns := [(1, 1)] }, mine := true, st := .active, mac := [1], xfer := [2], base := [], baseAt := 0, cut := none, sending := false, fpq := [], batches := [], nData := 0, nDup := 0, nUnmap := 0, rcut := none, synced := [], skipped := 0, changed := [], sent := 0, saved := 0, lastCut := 0, acks := [], tried := [], authBad := 0 }] }, ⟨by decide, (by exact Eq.trans (congrArg (_ && ·) (beq_self_eq_true _)) (by decide)), by decide, by decide, by decide⟩⟩,
   ⟨8, { State.reset with now := 10000000000, repl.conns := [{ conn := 8, slot := 0, up := true, nonce := [3], connId := 4, fpOk := [], txSeq := 0, rxSeq := 0, lastRx := 0, lastTx := 0 }] }, by decide⟩,
   ⟨3, { slot := 0, body := { streamId := 5, target := false, sync := true, fpFirst := false, strict := false, compress := false, ports := 1, remotePort := 4420, graceUs := 100, period := 0, firstCut := 0, addrs := [9], wrapSlot := 0, macKey := [], xferKey := [], ns := [(1, 1)] }, mine := true, st := .active, mac := [1], xfer := [2], base := [], baseAt := 0, cut := none, sending := false, fpq := [], batches := [], nData := 0, nDup := 0, nUnmap := 0, rcut := none, synced := [], skipped := 0, changed := [], sent := 0, saved := 0, lastCut := 0, acks := [(1, 3, 0)], tried := [], authBad := 0 }, { State.reset with now := 100000, repl.streams := [{ slot := 0, body := { streamId := 5, target := false, sync := true, fpFirst := false, strict := false, compress := false, ports := 1, remotePort := 4420, graceUs := 100, period := 0, firstCut := 0, addrs := [9], wrapSlot := 0, macKey := [], xferKey := [], ns := [(1, 1)] }, mine := true, st := .active, mac := [1], xfer := [2], base := [], baseAt := 0, cut := none, sending := false, fpq := [], batches := [], nData := 0, nDup := 0, nUnmap := 0, rcut := none, synced := [], skipped := 0, changed := [], sent := 0, saved := 0, lastCut := 0, acks := [(1, 3, 0)], tried := [], authBad := 0 }] }, by decide⟩,
   ⟨{ slot := 0, body := { streamId := 5, target := false, sync := true, fpFirst := false, strict := false, compress := false, ports := 1, remotePort := 4420, graceUs := 100, period := 0, firstCut := 0, addrs := [9], wrapSlot := 0, macKey := [], xferKey := [], ns := [] }, mine := true, st := .active, mac := [1], xfer := [2], base := [], baseAt := 0, cut := none, sending := false, fpq := [], batches := [], nData := 0, nDup := 0, nUnmap := 0, rcut := none, synced := [], skipped := 0, changed := [], sent := 0, saved := 0, lastCut := 0, acks := [(1, 3, 0)], tried := [], authBad := 0 }, { State.reset with repl.streams := [{ slot := 0, body := { streamId := 5, target := false, sync := true, fpFirst := false, strict := false, compress := false, ports := 1, remotePort := 4420, graceUs := 100, period := 0, firstCut := 0, addrs := [9], wrapSlot := 0, macKey := [], xferKey := [], ns := [] }, mine := true, st := .active, mac := [1], xfer := [2], base := [], baseAt := 0, cut := none, sending := false, fpq := [], batches := [], nData := 0, nDup := 0, nUnmap := 0, rcut := none, synced := [], skipped := 0, changed := [], sent := 0, saved := 0, lastCut := 0, acks := [(1, 3, 0)], tried := [], authBad := 0 }] }, by decide⟩,
   ⟨5, { slot := 0, body := { streamId := 5, target := false, sync := false, fpFirst := false, strict := false, compress := false, ports := 1, remotePort := 4420, graceUs := 100, period := 0, firstCut := 0, addrs := [9], wrapSlot := 0, macKey := [], xferKey := [], ns := [(1, 1)] }, mine := true, st := .fractured, mac := [1], xfer := [2], base := [], baseAt := 0, cut := none, sending := false, fpq := [], batches := [], nData := 0, nDup := 0, nUnmap := 0, rcut := none, synced := [], skipped := 0, changed := [], sent := 0, saved := 0, lastCut := 0, acks := [], tried := [], authBad := 0 }, { State.reset with repl.streams := [{ slot := 0, body := { streamId := 5, target := false, sync := false, fpFirst := false, strict := false, compress := false, ports := 1, remotePort := 4420, graceUs := 100, period := 0, firstCut := 0, addrs := [9], wrapSlot := 0, macKey := [], xferKey := [], ns := [(1, 1)] }, mine := true, st := .fractured, mac := [1], xfer := [2], base := [], baseAt := 0, cut := none, sending := false, fpq := [], batches := [], nData := 0, nDup := 0, nUnmap := 0, rcut := none, synced := [], skipped := 0, changed := [], sent := 0, saved := 0, lastCut := 0, acks := [], tried := [], authBad := 0 }] }, by decide⟩,
   ⟨{ slot := 0, body := { streamId := 5, target := false, sync := true, fpFirst := false, strict := false, compress := false, ports := 1, remotePort := 4420, graceUs := 100, period := 0, firstCut := 0, addrs := [9], wrapSlot := 0, macKey := [], xferKey := [], ns := [(1, 1)] }, mine := true, st := .fractured, mac := [1], xfer := [2], base := [], baseAt := 0, cut := none, sending := false, fpq := [], batches := [], nData := 0, nDup := 0, nUnmap := 0, rcut := none, synced := [], skipped := 0, changed := [], sent := 0, saved := 0, lastCut := 0, acks := [], tried := [], authBad := 0 }, { State.reset with repl.conns := [{ conn := 8, slot := 0, up := true, nonce := [3], connId := 4, fpOk := [], txSeq := 0, rxSeq := 0, lastRx := 0, lastTx := 0 }], eph.reserve := [20], hqe.ns := [{ nsid := 1, group := 1, tenant := 0, nsze := 1000, lbaf := 1, cmpMode := 0, cmpLevel := 0, grouping := 0, domain := 0, layout := 0, key := 0, nextKey := 0, nguid := 7, resv := noResv, mixed := false, oldPct := 0, attrGen := 0, format := none, deleting := none, cloneOf := 0, protect := false }], repl.streams := [{ slot := 0, body := { streamId := 5, target := false, sync := true, fpFirst := false, strict := false, compress := false, ports := 1, remotePort := 4420, graceUs := 100, period := 0, firstCut := 0, addrs := [9], wrapSlot := 0, macKey := [], xferKey := [], ns := [(1, 1)] }, mine := true, st := .fractured, mac := [1], xfer := [2], base := [], baseAt := 0, cut := none, sending := false, fpq := [], batches := [], nData := 0, nDup := 0, nUnmap := 0, rcut := none, synced := [], skipped := 0, changed := [], sent := 0, saved := 0, lastCut := 0, acks := [], tried := [], authBad := 0 }] }, by decide⟩⟩

/-- Hypotheses of ReplicationTransfersLandAndCommit hold together. -/
theorem witness_ReplicationTransfersLandAndCommit :
    (∃ (conn : Nat) (f : Frame) (r : ReplConn) (x : Stream) (s : State), halted s = false ∧ frameOk conn 0x10 0 f r x s = true ∧ f.payload.length = 8) ∧
    (∃ (conn : Nat) (f : Frame) (r : ReplConn) (x : Stream) (i u n : Nat) (fp : List Byte) (s : State), halted s = false ∧ frameOk conn 0x11 0 f r x s = true ∧ f.payload.length = 48 ∧ x.rcut = some f.ref ∧ fpRecs f.payload = [(i, u, fp)] ∧ unitOk x i u 1 s = true ∧ nsAt x i = some n ∧ jrnlRoom s = true ∧ cutHeld n (fun v => v == u) s = false ∧ x.synced.contains (n, u) = false) ∧
    (∃ (conn : Nat) (f : Frame) (r : ReplConn) (x : Stream) (us : List (Nat × Nat × Option (List Byte))) (s : State), halted s = false ∧ frameOk conn 0x13 0 f r x s = true ∧ x.rcut = some f.ref ∧ unitsOn conn x f s = some us ∧ landHeld us s = false) ∧
    (∃ (conn : Nat) (f : Frame) (r : ReplConn) (x : Stream) (s : State), halted s = false ∧ frameOk conn 0x14 0 f r x s = true ∧ f.payload.length % 24 = 0 ∧ x.rcut = some f.ref ∧ (unmapRecs f.payload).all (fun e => unitOk x e.1 e.2.1 e.2.2 s) = true ∧ jrnlRoom s = true ∧ ((unmapRecs f.payload).any (fun e => cutHeld ((nsAt x e.1).getD 0) (fun u => decide (e.2.1 ≤ u ∧ u < e.2.1 + e.2.2)) s) = false)) ∧
    (∃ (conn : Nat) (f : Frame) (r : ReplConn) (x : Stream) (s : State), halted s = false ∧ frameOk conn 0x15 0 f r x s = true ∧ f.payload.length = 24 ∧ x.rcut = some f.ref ∧ jrnlRoom s = true ∧ x.body.ns.length ≤ s.eph.reserve.length ∧ s.wb.own = []) ∧
    (∃ (conn : Nat) (f : Frame) (r : ReplConn) (x : Stream) (p : Nat × Nat) (s : State), halted s = false ∧ frameOk conn 0x12 1 f r x s = true ∧ f.payload.length = 1 ∧ x.batches = [(f.ref, [p])] ∧ bit (ofBytes f.payload) 0 = true) ∧
    (∃ (conn : Nat) (f : Frame) (r : ReplConn) (x : Stream) (p : Nat × Nat) (s : State), halted s = false ∧ frameOk conn 0x12 1 f r x s = true ∧ f.payload.length = 1 ∧ x.batches = [(f.ref, [p])] ∧ bit (ofBytes f.payload) 0 = false) ∧
    (∃ (conn : Nat) (f : Frame) (r : ReplConn) (x : Stream) (es : List (Nat × Nat)) (s : State), halted s = false ∧ frameOk conn 0x16 1 f r x s = true ∧ f.payload = [] ∧ x.sending = false ∧ x.cut = some (f.ref, es)) ∧
    (∃ (conn : Nat) (f : Frame) (r : ReplConn) (x : Stream) (us : List (Nat × Nat × Option (List Byte))) (s : State), halted s = false ∧ frameOk conn 0x20 0 f r x s = true ∧ unitsOn conn x f s = some us ∧ landHeld us s = false ∧ x.rcut = none ∧ f.flush = false ∧ f.last = true) ∧
    (∃ (conn : Nat) (f : Frame) (r : ReplConn) (x : Stream) (h t : Nat) (s : State), halted s = false ∧ frameOk conn 0x21 1 f r x s = true ∧ f.payload = [] ∧ x.acks = [(f.ref, h, t)]) :=
  ⟨⟨8, { magic := 0x46524B48, version := 1, dir := 0, fua := false, flush := false, last := true, streamId := 5, fseq := 1, ref := 7, payload := List.replicate 8 0, mac := Config.hmac256 [1] ([3] ++ frameHeader 16 { magic := 0x46524B48, version := 1, dir := 0, fua := false, flush := false, last := true, streamId := 5, fseq := 1, ref := 7, payload := List.replicate 8 0, mac := [] } ++ List.replicate 8 0) }, { conn := 8, slot := 0, up := true, nonce := [3], connId := 4, fpOk := [], txSeq := 0, rxSeq := 0, lastRx := 0, lastTx := 0 }, { slot := 0, body := { streamId := 5, target := true, sync := false, fpFirst := false, strict := false, compress := false, ports := 1, remotePort := 4420, graceUs := 100, period := 0, firstCut := 0, addrs := [9], wrapSlot := 0, macKey := [], xferKey := [], ns := [(1, 1)] }, mine := true, st := .active, mac := [1], xfer := [2], base := [], baseAt := 0, cut := none, sending := false, fpq := [], batches := [], nData := 0, nDup := 0, nUnmap := 0, rcut := none, synced := [], skipped := 0, changed := [], sent := 0, saved := 0, lastCut := 0, acks := [], tried := [], authBad := 0 }, { State.reset with repl.conns := [{ conn := 8, slot := 0, up := true, nonce := [3], connId := 4, fpOk := [], txSeq := 0, rxSeq := 0, lastRx := 0, lastTx := 0 }], repl.streams := [{ slot := 0, body := { streamId := 5, target := true, sync := false, fpFirst := false, strict := false, compress := false, ports := 1, remotePort := 4420, graceUs := 100, period := 0, firstCut := 0, addrs := [9], wrapSlot := 0, macKey := [], xferKey := [], ns := [(1, 1)] }, mine := true, st := .active, mac := [1], xfer := [2], base := [], baseAt := 0, cut := none, sending := false, fpq := [], batches := [], nData := 0, nDup := 0, nUnmap := 0, rcut := none, synced := [], skipped := 0, changed := [], sent := 0, saved := 0, lastCut := 0, acks := [], tried := [], authBad := 0 }] }, ⟨by decide, (by exact Eq.trans (congrArg (_ && ·) (beq_self_eq_true _)) (by decide)), by decide⟩⟩,
   ⟨8, { magic := 0x46524B48, version := 1, dir := 0, fua := false, flush := false, last := true, streamId := 5, fseq := 1, ref := 7, payload := [0, 0, 0, 0, 0, 0, 0, 0, 3, 0, 0, 0, 0, 0, 0, 0] ++ List.replicate 32 9, mac := Config.hmac256 [1] ([3] ++ frameHeader 17 { magic := 0x46524B48, version := 1, dir := 0, fua := false, flush := false, last := true, streamId := 5, fseq := 1, ref := 7, payload := [0, 0, 0, 0, 0, 0, 0, 0, 3, 0, 0, 0, 0, 0, 0, 0] ++ List.replicate 32 9, mac := [] } ++ [0, 0, 0, 0, 0, 0, 0, 0, 3, 0, 0, 0, 0, 0, 0, 0] ++ List.replicate 32 9) }, { conn := 8, slot := 0, up := true, nonce := [3], connId := 4, fpOk := [], txSeq := 0, rxSeq := 0, lastRx := 0, lastTx := 0 }, { slot := 0, body := { streamId := 5, target := true, sync := false, fpFirst := false, strict := false, compress := false, ports := 1, remotePort := 4420, graceUs := 100, period := 0, firstCut := 0, addrs := [9], wrapSlot := 0, macKey := [], xferKey := [], ns := [(1, 1)] }, mine := true, st := .active, mac := [1], xfer := [2], base := [], baseAt := 0, cut := none, sending := false, fpq := [], batches := [], nData := 0, nDup := 0, nUnmap := 0, rcut := some 7, synced := [], skipped := 0, changed := [], sent := 0, saved := 0, lastCut := 0, acks := [], tried := [], authBad := 0 }, 0, 3, 1, List.replicate 32 9, { State.reset with repl.conns := [{ conn := 8, slot := 0, up := true, nonce := [3], connId := 4, fpOk := [], txSeq := 0, rxSeq := 0, lastRx := 0, lastTx := 0 }], repl.streams := [{ slot := 0, body := { streamId := 5, target := true, sync := false, fpFirst := false, strict := false, compress := false, ports := 1, remotePort := 4420, graceUs := 100, period := 0, firstCut := 0, addrs := [9], wrapSlot := 0, macKey := [], xferKey := [], ns := [(1, 1)] }, mine := true, st := .active, mac := [1], xfer := [2], base := [], baseAt := 0, cut := none, sending := false, fpq := [], batches := [], nData := 0, nDup := 0, nUnmap := 0, rcut := some 7, synced := [], skipped := 0, changed := [], sent := 0, saved := 0, lastCut := 0, acks := [], tried := [], authBad := 0 }], hqe.ns := [{ nsid := 1, group := 1, tenant := 0, nsze := 1000, lbaf := 1, cmpMode := 0, cmpLevel := 0, grouping := 0, domain := 0, layout := 0, key := 0, nextKey := 0, nguid := 7, resv := noResv, mixed := false, oldPct := 0, attrGen := 0, format := none, deleting := none, cloneOf := 0, protect := false }] }, ⟨by decide, (by exact Eq.trans (congrArg (_ && ·) (beq_self_eq_true _)) (by decide)), by decide, by decide, by decide, by decide, by decide, by decide, by decide, by decide⟩⟩,
   ⟨8, { magic := 0x46524B48, version := 1, dir := 0, fua := false, flush := false, last := true, streamId := 5, fseq := 1, ref := 7, payload := [0, 0, 1, 0, 1, 0, 0, 0, 3, 0, 0, 0, 0, 0, 0, 0, 0, 0, 0, 0, 0, 0, 0, 0, 0, 0, 0, 0, 0, 0, 0, 0], mac := Config.hmac256 [1] ([3] ++ frameHeader 19 { magic := 0x46524B48, version := 1, dir := 0, fua := false, flush := false, last := true, streamId := 5, fseq := 1, ref := 7, payload := [0, 0, 1, 0, 1, 0, 0, 0, 3, 0, 0, 0, 0, 0, 0, 0, 0, 0, 0, 0, 0, 0, 0, 0, 0, 0, 0, 0, 0, 0, 0, 0], mac := [] } ++ [0, 0, 1, 0, 1, 0, 0, 0, 3, 0, 0, 0, 0, 0, 0, 0, 0, 0, 0, 0, 0, 0, 0, 0, 0, 0, 0, 0, 0, 0, 0, 0]) }, { conn := 8, slot := 0, up := true, nonce := [3], connId := 4, fpOk := [], txSeq := 0, rxSeq := 0, lastRx := 0, lastTx := 0 }, { slot := 0, body := { streamId := 5, target := true, sync := false, fpFirst := false, strict := false, compress := false, ports := 1, remotePort := 4420, graceUs := 100, period := 0, firstCut := 0, addrs := [9], wrapSlot := 0, macKey := [], xferKey := [], ns := [(1, 1)] }, mine := true, st := .active, mac := [1], xfer := [2], base := [], baseAt := 0, cut := none, sending := false, fpq := [], batches := [], nData := 0, nDup := 0, nUnmap := 0, rcut := some 7, synced := [], skipped := 0, changed := [], sent := 0, saved := 0, lastCut := 0, acks := [], tried := [], authBad := 0 }, [(1, 3, none)], { State.reset with repl.conns := [{ conn := 8, slot := 0, up := true, nonce := [3], connId := 4, fpOk := [], txSeq := 0, rxSeq := 0, lastRx := 0, lastTx := 0 }], repl.streams := [{ slot := 0, body := { streamId := 5, target := true, sync := false, fpFirst := false, strict := false, compress := false, ports := 1, remotePort := 4420, graceUs := 100, period := 0, firstCut := 0, addrs := [9], wrapSlot := 0, macKey := [], xferKey := [], ns := [(1, 1)] }, mine := true, st := .active, mac := [1], xfer := [2], base := [], baseAt := 0, cut := none, sending := false, fpq := [], batches := [], nData := 0, nDup := 0, nUnmap := 0, rcut := some 7, synced := [], skipped := 0, changed := [], sent := 0, saved := 0, lastCut := 0, acks := [], tried := [], authBad := 0 }], hqe.ns := [{ nsid := 1, group := 1, tenant := 0, nsze := 1000, lbaf := 1, cmpMode := 0, cmpLevel := 0, grouping := 0, domain := 0, layout := 0, key := 0, nextKey := 0, nguid := 7, resv := noResv, mixed := false, oldPct := 0, attrGen := 0, format := none, deleting := none, cloneOf := 0, protect := false }] }, ⟨by decide, (by exact Eq.trans (congrArg (_ && ·) (beq_self_eq_true _)) (by decide)), by decide, by decide, by decide⟩⟩,
   ⟨8, { magic := 0x46524B48, version := 1, dir := 0, fua := false, flush := false, last := true, streamId := 5, fseq := 1, ref := 7, payload := [0, 0, 0, 0, 0, 0, 0, 0, 3, 0, 0, 0, 0, 0, 0, 0, 1, 0, 0, 0, 0, 0, 0, 0], mac := Config.hmac256 [1] ([3] ++ frameHeader 20 { magic := 0x46524B48, version := 1, dir := 0, fua := false, flush := false, last := true, streamId := 5, fseq := 1, ref := 7, payload := [0, 0, 0, 0, 0, 0, 0, 0, 3, 0, 0, 0, 0, 0, 0, 0, 1, 0, 0, 0, 0, 0, 0, 0], mac := [] } ++ [0, 0, 0, 0, 0, 0, 0, 0, 3, 0, 0, 0, 0, 0, 0, 0, 1, 0, 0, 0, 0, 0, 0, 0]) }, { conn := 8, slot := 0, up := true, nonce := [3], connId := 4, fpOk := [], txSeq := 0, rxSeq := 0, lastRx := 0, lastTx := 0 }, { slot := 0, body := { streamId := 5, target := true, sync := false, fpFirst := false, strict := false, compress := false, ports := 1, remotePort := 4420, graceUs := 100, period := 0, firstCut := 0, addrs := [9], wrapSlot := 0, macKey := [], xferKey := [], ns := [(1, 1)] }, mine := true, st := .active, mac := [1], xfer := [2], base := [], baseAt := 0, cut := none, sending := false, fpq := [], batches := [], nData := 0, nDup := 0, nUnmap := 0, rcut := some 7, synced := [], skipped := 0, changed := [], sent := 0, saved := 0, lastCut := 0, acks := [], tried := [], authBad := 0 }, { State.reset with repl.conns := [{ conn := 8, slot := 0, up := true, nonce := [3], connId := 4, fpOk := [], txSeq := 0, rxSeq := 0, lastRx := 0, lastTx := 0 }], repl.streams := [{ slot := 0, body := { streamId := 5, target := true, sync := false, fpFirst := false, strict := false, compress := false, ports := 1, remotePort := 4420, graceUs := 100, period := 0, firstCut := 0, addrs := [9], wrapSlot := 0, macKey := [], xferKey := [], ns := [(1, 1)] }, mine := true, st := .active, mac := [1], xfer := [2], base := [], baseAt := 0, cut := none, sending := false, fpq := [], batches := [], nData := 0, nDup := 0, nUnmap := 0, rcut := some 7, synced := [], skipped := 0, changed := [], sent := 0, saved := 0, lastCut := 0, acks := [], tried := [], authBad := 0 }], hqe.ns := [{ nsid := 1, group := 1, tenant := 0, nsze := 1000, lbaf := 1, cmpMode := 0, cmpLevel := 0, grouping := 0, domain := 0, layout := 0, key := 0, nextKey := 0, nguid := 7, resv := noResv, mixed := false, oldPct := 0, attrGen := 0, format := none, deleting := none, cloneOf := 0, protect := false }] }, ⟨by decide, (by exact Eq.trans (congrArg (_ && ·) (beq_self_eq_true _)) (by decide)), by decide, by decide, by decide, by decide, by decide⟩⟩,
   ⟨8, { magic := 0x46524B48, version := 1, dir := 0, fua := false, flush := false, last := true, streamId := 5, fseq := 1, ref := 7, payload := List.replicate 24 0, mac := Config.hmac256 [1] ([3] ++ frameHeader 21 { magic := 0x46524B48, version := 1, dir := 0, fua := false, flush := false, last := true, streamId := 5, fseq := 1, ref := 7, payload := List.replicate 24 0, mac := [] } ++ List.replicate 24 0) }, { conn := 8, slot := 0, up := true, nonce := [3], connId := 4, fpOk := [], txSeq := 0, rxSeq := 0, lastRx := 0, lastTx := 0 }, { slot := 0, body := { streamId := 5, target := true, sync := false, fpFirst := false, strict := false, compress := false, ports := 1, remotePort := 4420, graceUs := 100, period := 0, firstCut := 0, addrs := [9], wrapSlot := 0, macKey := [], xferKey := [], ns := [(1, 1)] }, mine := true, st := .active, mac := [1], xfer := [2], base := [], baseAt := 0, cut := none, sending := false, fpq := [], batches := [], nData := 0, nDup := 0, nUnmap := 0, rcut := some 7, synced := [], skipped := 0, changed := [], sent := 0, saved := 0, lastCut := 0, acks := [], tried := [], authBad := 0 }, { State.reset with repl.conns := [{ conn := 8, slot := 0, up := true, nonce := [3], connId := 4, fpOk := [], txSeq := 0, rxSeq := 0, lastRx := 0, lastTx := 0 }], repl.streams := [{ slot := 0, body := { streamId := 5, target := true, sync := false, fpFirst := false, strict := false, compress := false, ports := 1, remotePort := 4420, graceUs := 100, period := 0, firstCut := 0, addrs := [9], wrapSlot := 0, macKey := [], xferKey := [], ns := [(1, 1)] }, mine := true, st := .active, mac := [1], xfer := [2], base := [], baseAt := 0, cut := none, sending := false, fpq := [], batches := [], nData := 0, nDup := 0, nUnmap := 0, rcut := some 7, synced := [], skipped := 0, changed := [], sent := 0, saved := 0, lastCut := 0, acks := [], tried := [], authBad := 0 }], hqe.ns := [{ nsid := 1, group := 1, tenant := 0, nsze := 1000, lbaf := 1, cmpMode := 0, cmpLevel := 0, grouping := 0, domain := 0, layout := 0, key := 0, nextKey := 0, nguid := 7, resv := noResv, mixed := false, oldPct := 0, attrGen := 0, format := none, deleting := none, cloneOf := 0, protect := false }], eph.reserve := [20] }, ⟨by decide, (by exact Eq.trans (congrArg (_ && ·) (beq_self_eq_true _)) (by decide)), by decide, by decide, by decide, by decide, by decide⟩⟩,
   ⟨8, { magic := 0x46524B48, version := 1, dir := 1, fua := false, flush := false, last := true, streamId := 5, fseq := 1, ref := 7, payload := [1], mac := Config.hmac256 [1] ([3] ++ frameHeader 18 { magic := 0x46524B48, version := 1, dir := 1, fua := false, flush := false, last := true, streamId := 5, fseq := 1, ref := 7, payload := [1], mac := [] } ++ [1]) }, { conn := 8, slot := 0, up := true, nonce := [3], connId := 4, fpOk := [], txSeq := 0, rxSeq := 0, lastRx := 0, lastTx := 0 }, { slot := 0, body := { streamId := 5, target := false, sync := false, fpFirst := false, strict := false, compress := false, ports := 1, remotePort := 4420, graceUs := 100, period := 0, firstCut := 0, addrs := [9], wrapSlot := 0, macKey := [], xferKey := [], ns := [(1, 1)] }, mine := true, st := .active, mac := [1], xfer := [2], base := [], baseAt := 0, cut := some (70, [(1, 9)]), sending := true, fpq := [], batches := [(7, [(1, 3)])], nData := 0, nDup := 0, nUnmap := 0, rcut := none, synced := [], skipped := 0, changed := [], sent := 0, saved := 0, lastCut := 0, acks := [], tried := [], authBad := 0 }, (1, 3), { State.reset with repl.conns := [{ conn := 8, slot := 0, up := true, nonce := [3], connId := 4, fpOk := [], txSeq := 0, rxSeq := 0, lastRx := 0, lastTx := 0 }], repl.streams := [{ slot := 0, body := { streamId := 5, target := false, sync := false, fpFirst := false, strict := false, compress := false, ports := 1, remotePort := 4420, graceUs := 100, period := 0, firstCut := 0, addrs := [9], wrapSlot := 0, macKey := [], xferKey := [], ns := [(1, 1)] }, mine := true, st := .active, mac := [1], xfer := [2], base := [], baseAt := 0, cut := some (70, [(1, 9)]), sending := true, fpq := [], batches := [(7, [(1, 3)])], nData := 0, nDup := 0, nUnmap := 0, rcut := none, synced := [], skipped := 0, changed := [], sent := 0, saved := 0, lastCut := 0, acks := [], tried := [], authBad := 0 }] }, ⟨by decide, (by exact Eq.trans (congrArg (_ && ·) (beq_self_eq_true _)) (by decide)), by decide, by decide, by decide⟩⟩,
   ⟨8, { magic := 0x46524B48, version := 1, dir := 1, fua := false, flush := false, last := true, streamId := 5, fseq := 1, ref := 7, payload := [0], mac := Config.hmac256 [1] ([3] ++ frameHeader 18 { magic := 0x46524B48, version := 1, dir := 1, fua := false, flush := false, last := true, streamId := 5, fseq := 1, ref := 7, payload := [0], mac := [] } ++ [0]) }, { conn := 8, slot := 0, up := true, nonce := [3], connId := 4, fpOk := [], txSeq := 0, rxSeq := 0, lastRx := 0, lastTx := 0 }, { slot := 0, body := { streamId := 5, target := false, sync := false, fpFirst := false, strict := false, compress := false, ports := 1, remotePort := 4420, graceUs := 100, period := 0, firstCut := 0, addrs := [9], wrapSlot := 0, macKey := [], xferKey := [], ns := [(1, 1)] }, mine := true, st := .active, mac := [1], xfer := [2], base := [], baseAt := 0, cut := some (70, [(1, 9)]), sending := true, fpq := [], batches := [(7, [(1, 3)])], nData := 0, nDup := 0, nUnmap := 0, rcut := none, synced := [], skipped := 0, changed := [], sent := 0, saved := 0, lastCut := 0, acks := [], tried := [], authBad := 0 }, (1, 3), { State.reset with repl.conns := [{ conn := 8, slot := 0, up := true, nonce := [3], connId := 4, fpOk := [], txSeq := 0, rxSeq := 0, lastRx := 0, lastTx := 0 }], repl.streams := [{ slot := 0, body := { streamId := 5, target := false, sync := false, fpFirst := false, strict := false, compress := false, ports := 1, remotePort := 4420, graceUs := 100, period := 0, firstCut := 0, addrs := [9], wrapSlot := 0, macKey := [], xferKey := [], ns := [(1, 1)] }, mine := true, st := .active, mac := [1], xfer := [2], base := [], baseAt := 0, cut := some (70, [(1, 9)]), sending := true, fpq := [], batches := [(7, [(1, 3)])], nData := 0, nDup := 0, nUnmap := 0, rcut := none, synced := [], skipped := 0, changed := [], sent := 0, saved := 0, lastCut := 0, acks := [], tried := [], authBad := 0 }] }, ⟨by decide, (by exact Eq.trans (congrArg (_ && ·) (beq_self_eq_true _)) (by decide)), by decide, by decide, by decide⟩⟩,
   ⟨8, { magic := 0x46524B48, version := 1, dir := 1, fua := false, flush := false, last := true, streamId := 5, fseq := 1, ref := 7, payload := [], mac := Config.hmac256 [1] ([3] ++ frameHeader 22 { magic := 0x46524B48, version := 1, dir := 1, fua := false, flush := false, last := true, streamId := 5, fseq := 1, ref := 7, payload := [], mac := [] } ++ []) }, { conn := 8, slot := 0, up := true, nonce := [3], connId := 4, fpOk := [], txSeq := 0, rxSeq := 0, lastRx := 0, lastTx := 0 }, { slot := 0, body := { streamId := 5, target := false, sync := false, fpFirst := false, strict := false, compress := false, ports := 1, remotePort := 4420, graceUs := 100, period := 0, firstCut := 0, addrs := [9], wrapSlot := 0, macKey := [], xferKey := [], ns := [(1, 1)] }, mine := true, st := .active, mac := [1], xfer := [2], base := [(1, 8)], baseAt := 0, cut := some (7, [(1, 9)]), sending := false, fpq := [], batches := [], nData := 0, nDup := 0, nUnmap := 0, rcut := none, synced := [], skipped := 0, changed := [], sent := 0, saved := 0, lastCut := 0, acks := [], tried := [], authBad := 0 }, [(1, 9)], { State.reset with repl.conns := [{ conn := 8, slot := 0, up := true, nonce := [3], connId := 4, fpOk := [], txSeq := 0, rxSeq := 0, lastRx := 0, lastTx := 0 }], repl.streams := [{ slot := 0, body := { streamId := 5, target := false, sync := false, fpFirst := false, strict := false, compress := false, ports := 1, remotePort := 4420, graceUs := 100, period := 0, firstCut := 0, addrs := [9], wrapSlot := 0, macKey := [], xferKey := [], ns := [(1, 1)] }, mine := true, st := .active, mac := [1], xfer := [2], base := [(1, 8)], baseAt := 0, cut := some (7, [(1, 9)]), sending := false, fpq := [], batches := [], nData := 0, nDup := 0, nUnmap := 0, rcut := none, synced := [], skipped := 0, changed := [], sent := 0, saved := 0, lastCut := 0, acks := [], tried := [], authBad := 0 }] }, ⟨by decide, (by exact Eq.trans (congrArg (_ && ·) (beq_self_eq_true _)) (by decide)), by decide, by decide, by decide⟩⟩,
   ⟨8, { magic := 0x46524B48, version := 1, dir := 0, fua := false, flush := false, last := true, streamId := 5, fseq := 1, ref := 7, payload := [0, 0, 1, 0, 1, 0, 0, 0, 3, 0, 0, 0, 0, 0, 0, 0, 0, 0, 0, 0, 0, 0, 0, 0, 0, 0, 0, 0, 0, 0, 0, 0], mac := Config.hmac256 [1] ([3] ++ frameHeader 32 { magic := 0x46524B48, version := 1, dir := 0, fua := false, flush := false, last := true, streamId := 5, fseq := 1, ref := 7, payload := [0, 0, 1, 0, 1, 0, 0, 0, 3, 0, 0, 0, 0, 0, 0, 0, 0, 0, 0, 0, 0, 0, 0, 0, 0, 0, 0, 0, 0, 0, 0, 0], mac := [] } ++ [0, 0, 1, 0, 1, 0, 0, 0, 3, 0, 0, 0, 0, 0, 0, 0, 0, 0, 0, 0, 0, 0, 0, 0, 0, 0, 0, 0, 0, 0, 0, 0]) }, { conn := 8, slot := 0, up := true, nonce := [3], connId := 4, fpOk := [], txSeq := 0, rxSeq := 0, lastRx := 0, lastTx := 0 }, { slot := 0, body := { streamId := 5, target := true, sync := false, fpFirst := false, strict := false, compress := false, ports := 1, remotePort := 4420, graceUs := 100, period := 0, firstCut := 0, addrs := [9], wrapSlot := 0, macKey := [], xferKey := [], ns := [(1, 1)] }, mine := true, st := .active, mac := [1], xfer := [2], base := [], baseAt := 0, cut := none, sending := false, fpq := [], batches := [], nData := 0, nDup := 0, nUnmap := 0, rcut := none, synced := [], skipped := 0, changed := [], sent := 0, saved := 0, lastCut := 0, acks := [], tried := [], authBad := 0 }, [(1, 3, none)], { State.reset with repl.conns := [{ conn := 8, slot := 0, up := true, nonce := [3], connId := 4, fpOk := [], txSeq := 0, rxSeq := 0, lastRx := 0, lastTx := 0 }], repl.streams := [{ slot := 0, body := { streamId := 5, target := true, sync := false, fpFirst := false, strict := false, compress := false, ports := 1, remotePort := 4420, graceUs := 100, period := 0, firstCut := 0, addrs := [9], wrapSlot := 0, macKey := [], xferKey := [], ns := [(1, 1)] }, mine := true, st := .active, mac := [1], xfer := [2], base := [], baseAt := 0, cut := none, sending := false, fpq := [], batches := [], nData := 0, nDup := 0, nUnmap := 0, rcut := none, synced := [], skipped := 0, changed := [], sent := 0, saved := 0, lastCut := 0, acks := [], tried := [], authBad := 0 }], hqe.ns := [{ nsid := 1, group := 1, tenant := 0, nsze := 1000, lbaf := 1, cmpMode := 0, cmpLevel := 0, grouping := 0, domain := 0, layout := 0, key := 0, nextKey := 0, nguid := 7, resv := noResv, mixed := false, oldPct := 0, attrGen := 0, format := none, deleting := none, cloneOf := 0, protect := false }] }, ⟨by decide, (by exact Eq.trans (congrArg (_ && ·) (beq_self_eq_true _)) (by decide)), by decide, by decide, by decide, by decide, by decide⟩⟩,
   ⟨8, { magic := 0x46524B48, version := 1, dir := 1, fua := false, flush := false, last := true, streamId := 5, fseq := 1, ref := 7, payload := [], mac := Config.hmac256 [1] ([3] ++ frameHeader 33 { magic := 0x46524B48, version := 1, dir := 1, fua := false, flush := false, last := true, streamId := 5, fseq := 1, ref := 7, payload := [], mac := [] } ++ []) }, { conn := 8, slot := 0, up := true, nonce := [3], connId := 4, fpOk := [], txSeq := 0, rxSeq := 0, lastRx := 0, lastTx := 0 }, { slot := 0, body := { streamId := 5, target := false, sync := true, fpFirst := false, strict := false, compress := false, ports := 1, remotePort := 4420, graceUs := 100, period := 0, firstCut := 0, addrs := [9], wrapSlot := 0, macKey := [], xferKey := [], ns := [(1, 1)] }, mine := true, st := .active, mac := [1], xfer := [2], base := [], baseAt := 0, cut := none, sending := false, fpq := [], batches := [], nData := 0, nDup := 0, nUnmap := 0, rcut := none, synced := [], skipped := 0, changed := [], sent := 0, saved := 0, lastCut := 0, acks := [(7, 3, 0)], tried := [], authBad := 0 }, 3, 0, { State.reset with repl.conns := [{ conn := 8, slot := 0, up := true, nonce := [3], connId := 4, fpOk := [], txSeq := 0, rxSeq := 0, lastRx := 0, lastTx := 0 }], repl.streams := [{ slot := 0, body := { streamId := 5, target := false, sync := true, fpFirst := false, strict := false, compress := false, ports := 1, remotePort := 4420, graceUs := 100, period := 0, firstCut := 0, addrs := [9], wrapSlot := 0, macKey := [], xferKey := [], ns := [(1, 1)] }, mine := true, st := .active, mac := [1], xfer := [2], base := [], baseAt := 0, cut := none, sending := false, fpq := [], batches := [], nData := 0, nDup := 0, nUnmap := 0, rcut := none, synced := [], skipped := 0, changed := [], sent := 0, saved := 0, lastCut := 0, acks := [(7, 3, 0)], tried := [], authBad := 0 }] }, ⟨by decide, (by exact Eq.trans (congrArg (_ && ·) (beq_self_eq_true _)) (by decide)), by decide, by decide⟩⟩⟩

/-- Hypotheses of PairPacketsFillTheMirrorHalf hold together. -/
theorem witness_PairPacketsFillTheMirrorHalf :
    (∃ (link : Nat) (pkt : Pkt) (data : List Byte) (s : State), halted s = false ∧ getF (F.tlLinkStatUp link) s = 1 ∧ blockDown (.tl link) s = false ∧ s.pair.joined = true ∧ pkt.hcrcOk = true ∧ pkt.typ = 1 ∧ (pkt.ch = 0 ∨ pkt.ch = 1 ∨ pkt.ch = 5) ∧ pkt.win ≤ 7 ∧ data.length = pkt.len ∧ (tget s.pair.wins (link * 8 + pkt.win) { base := 0, size := 0 }).size ≠ 0 ∧ pkt.offset + pkt.len ≤ 4096 * (tget s.pair.wins (link * 8 + pkt.win) { base := 0, size := 0 }).size ∧ pkt.cseq = (chanOf pkt.ch s).taken + 1) ∧
    (∃ (link : Nat) (pkt : Pkt) (data : List Byte) (s : State), halted s = false ∧ getF (F.tlLinkStatUp link) s = 1 ∧ blockDown (.tl link) s = false ∧ s.pair.joined = true ∧ pkt.hcrcOk = true ∧ pkt.typ = 1 ∧ (pkt.ch = 0 ∨ pkt.ch = 1 ∨ pkt.ch = 5) ∧ pkt.win ≤ 7 ∧ data.length = pkt.len ∧ 4096 * (tget s.pair.wins (link * 8 + pkt.win) { base := 0, size := 0 }).size < pkt.offset + pkt.len) ∧
    (∃ (link : Nat) (pkt : Pkt) (msg : PeerMsg) (s : State), halted s = false ∧ getF (F.tlLinkStatUp link) s = 1 ∧ blockDown (.tl link) s = false ∧ s.pair.joined = true ∧ pkt.hcrcOk = true ∧ pkt.typ = 4 ∧ (pkt.ch = 2 ∨ pkt.ch = 3 ∨ pkt.ch = 4) ∧ pkt.cseq = (chanOf pkt.ch s).taken + 1) ∧
    (∃ (link : Nat) (pkt : Pkt) (msg : PeerMsg) (s : State), halted s = false ∧ getF (F.tlLinkStatUp link) s = 1 ∧ blockDown (.tl link) s = false ∧ pkt.hcrcOk = false ∧ pkt.typ = 4 ∧ (pkt.ch = 2 ∨ pkt.ch = 3 ∨ pkt.ch = 4)) ∧
    (∃ (link : Nat) (pkt : Pkt) (msg : PeerMsg) (s : State), halted s = false ∧ getF (F.tlLinkStatUp link) s = 1 ∧ blockDown (.tl link) s = false ∧ s.pair.joined = true ∧ pkt.hcrcOk = true ∧ pkt.typ = 4 ∧ (pkt.ch = 2 ∨ pkt.ch = 3 ∨ pkt.ch = 4) ∧ (chanOf pkt.ch s).taken + 1 < pkt.cseq) ∧
    (∃ (ch cseq credit n : Nat) (x : Sent) (s : State), halted s = false ∧ troysUp s = true ∧ s.pair.joined = true ∧ s.pair.sent = [x] ∧ x.ch = ch ∧ x.cseq ≤ cseq ∧ x.link < 2 ∧ x.what = .clause n) ∧
    (∃ (ch cseq credit : Nat) (s : State), halted s = false ∧ troysUp s = true ∧ s.pair.joined = true ∧ s.pair.sent.all (fun x => x.ch != ch || decide (cseq < x.cseq)) = true) ∧
    (∃ (link ch cseq : Nat) (s : State), halted s = false ∧ getF (F.tlLinkStatUp link) s = 1) ∧
    (∃ (link ch cseq k : Nat) (s : State), halted s = false ∧ getF (F.tlLinkStatUp link) s = 1 ∧ (k = 2 ∨ k = 3)) ∧
    (∃ (link sp w : Nat) (s : State), halted s = false ∧ getF (F.tlLinkStatUp link) s = 0 ∧ troysUp s = false ∧ blockDown (.tl link) s = false ∧ getF (F.tlLinkCtrlTxOff link) s = 0 ∧ (sp = 5 ∨ sp = 6) ∧ (w = 8 ∨ w = 16) ∧ s.pair.joined = false) ∧
    (∃ (link : Nat) (s : State), halted s = false) ∧
    (∃ (link w : Nat) (s : State), halted s = false ∧ getF (H.pwrState (.tl link)) s ≠ 2 ∧ getF (H.state (.tl link)) s ≠ 5 ∧ w < 8) ∧
    (∃ (w off v pg : Nat) (d : List Byte) (s : State), pg < 2 ^ 24 ∧ off < 2 ^ 36 - 4096 ∧ d.length ≤ 4096 ∧ (v ≠ w ∨ (pg ≠ off / 4096 ∧ (pg ≠ off / 4096 + 1 ∨ d.length ≤ 4096 - off % 4096)))) ∧
    (∃ (w off : Nat) (d : List Byte) (s : State), d.length ≤ 4096 - off % 4096) :=
  ⟨⟨0, { typ := 1, ch := 0, len := 1, win := 3, last := true, offset := 8192, cseq := 1, hcrcOk := true }, [9], setF (F.tlLinkStatUp 0) 1 { State.reset with pair.joined := true, pair.wins := [(3, { base := 0, size := 4 })] }, by decide⟩,
   ⟨0, { typ := 1, ch := 0, len := 1, win := 3, last := true, offset := 16384, cseq := 1, hcrcOk := true }, [9], setF (F.tlLinkStatUp 0) 1 { State.reset with pair.joined := true, pair.wins := [(3, { base := 0, size := 4 })] }, by decide⟩,
   ⟨0, { typ := 4, ch := 3, len := 1, win := 3, last := true, offset := 8192, cseq := 1, hcrcOk := true }, .own, setF (F.tlLinkStatUp 0) 1 { State.reset with pair.joined := true, pair.wins := [(3, { base := 0, size := 4 })] }, by decide⟩,
   ⟨0, { typ := 4, ch := 3, len := 1, win := 3, last := true, offset := 8192, cseq := 1, hcrcOk := false }, .own, setF (F.tlLinkStatUp 0) 1 { State.reset with pair.joined := true, pair.wins := [(3, { base := 0, size := 4 })] }, by decide⟩,
   ⟨0, { typ := 4, ch := 3, len := 1, win := 3, last := true, offset := 8192, cseq := 2, hcrcOk := true }, .own, setF (F.tlLinkStatUp 0) 1 { State.reset with pair.joined := true, pair.wins := [(3, { base := 0, size := 4 })] }, by decide⟩,
   ⟨1, 4, 16, 30, { ch := 1, cseq := 4, link := 0, len := 32, what := .clause 30 }, setF (F.tlLinkStatUp 0) 1 { State.reset with pair.joined := true, pair.sent := [{ ch := 1, cseq := 4, link := 0, len := 32, what := .clause 30 }] }, by decide⟩,
   ⟨1, 4, 16, setF (F.tlLinkStatUp 0) 1 { State.reset with pair.joined := true }, by decide⟩,
   ⟨0, 0, 1, setF (F.tlLinkStatUp 0) 1 State.reset, by decide⟩,
   ⟨0, 0, 1, 2, setF (F.tlLinkStatUp 0) 1 State.reset, by decide⟩,
   ⟨0, 6, 16, State.reset, by decide⟩,
   ⟨0, setF (F.tlLinkStatUp 0) 1 State.reset, by decide⟩,
   ⟨0, 3, State.reset, by decide⟩,
   ⟨0, 4096, 1, 1, [5], State.reset, by decide⟩,
   ⟨0, 4096, [5], State.reset, by decide⟩⟩

/-- Hypotheses of PairJoinsForwardsAndMovesGroups hold together. -/
theorem witness_PairJoinsForwardsAndMovesGroups :
    (∃ (r : JoinRec) (s : State), halted s = false ∧ troysUp s = true ∧ s.pair.joined = false ∧ r.pairId = get64 F.hqePairIdLoPairLo F.hqePairIdHiPairHi s ∧ r.head ≠ s.pins.headSel ∧ s.bld.peerMin ≤ r.ucodeVer ∧ r.ucodeVer ≤ s.bld.peerMax ∧ r.setVer ≤ s.bld.setVer ∧ r.cfgDigest = cfgDigest s) ∧
    (∃ (r : JoinRec) (s : State), halted s = false ∧ troysUp s = true ∧ joinCause r s ≠ 0 ∧ s.pair.joined = false ∧ inService s = false) ∧
    (∃ (r : JoinRec) (s : State), r.pairId = get64 F.hqePairIdLoPairLo F.hqePairIdHiPairHi s ∧ r.head = s.pins.headSel) ∧
    (∃ (s : State), halted s = false ∧ s.pair.resync = some false ∧ s.pair.joined = true ∧ troysUp s = true ∧ s.wb.own.any (fun p => decide (1835008 ≤ p.1)) = false ∧ s.ftu.root = none) ∧
    (∃ (s : State), halted s = false ∧ s.pair.joined = true ∧ troysUp s = true ∧ s.pair.role = .joining) ∧
    (∃ (s : State), halted s = false ∧ s.pair.joined = true ∧ troysUp s = true ∧ s.pair.role ≠ .joining ∧ s.pair.resync = some true ∧ s.pair.sent.all (fun x => x.ch != 5) = true) ∧
    (∃ (s : State), s.pair.queued = []) ∧
    (∃ (tag host : Nat) (e : Sqe) (s : State), halted s = false ∧ s.pair.joined = true ∧ troysUp s = true ∧ running .hqe s = true ∧ s.hqe.cmds = []) ∧
    (∃ (f : FwdCmd) (c : Cmd) (st : NvmeSt) (data : List Byte) (s : State), halted s = false ∧ s.pair.fwd = [f] ∧ troysUp s = true ∧ s.pair.ecl = none ∧ cmdOf f.h s = some c ∧ c.phase = .forwarded ∧ c.sqe.opc ≠ 2) ∧
    (∃ (f : FwdCmd) (c : Cmd) (data : List Byte) (s : State), halted s = false ∧ s.pair.fwd = [f] ∧ troysUp s = true ∧ s.pair.ecl = none ∧ cmdOf f.h s = some c ∧ c.phase = .forwarded ∧ c.sqe.opc = 2) ∧
    (∃ (uaddr : Nat) (s : State), halted s = false ∧ s.pair.joined = true ∧ (bandOf (uBand (resolve uaddr s)) s).any (·.mine) = true ∧ jrnlRoom s = true) ∧
    (∃ (uaddr : Nat) (s : State), halted s = false ∧ s.pair.joined = true ∧ (bandOf (uBand (resolve uaddr s)) s).any (·.mine) = true ∧ jrnlRoom s = true) ∧
    (∃ (q tag : Nat) (gs : List Nat) (s : State), halted s = false ∧ mgmtReady q tag 0x60 s = true ∧ s.pair.move = none ∧ gs ≠ [] ∧ gs.length ≤ 1024 ∧ gs.eraseDups.length = gs.length ∧ gs.all (fun g => (groupOf g s).any (·.mine)) = true ∧ getF F.mirPairStatMoveBusy s = 0 ∧ troysUp s = true ∧ peerReady s = true) ∧
    (∃ (q tag : Nat) (gs : List Nat) (s : State), halted s = false ∧ s.pair.move = some { q := q, tag := tag, groups := gs } ∧ drained gs s = true ∧ jrnlRoom s = true ∧ troysUp s = true) ∧
    (∃ (q tag : Nat) (s : State), halted s = false ∧ mgmtReady q tag 0x61 s = true ∧ troysUp s = true ∧ s.pair.joined = true ∧ modeConds 768 s = true ∧ s.pair.restore = none) :=
  ⟨⟨{ head := 1, step := 0, state := 0, owns := true, vaultImg := false, pairId := 0, ucodeVer := 0, setVer := 0, cfgDigest := cfgDigest (setF (F.tlLinkStatUp 0) 1 State.reset), fenceMax := 0 }, setF (F.tlLinkStatUp 0) 1 State.reset, ⟨by decide, by decide, by decide, by decide, by decide, by decide, by decide, by decide, rfl⟩⟩,
   ⟨{ head := 1, step := 0, state := 0, owns := true, vaultImg := false, pairId := 1, ucodeVer := 0, setVer := 0, cfgDigest := cfgDigest (State.reset), fenceMax := 0 }, setF (F.tlLinkStatUp 0) 1 State.reset, by decide⟩,
   ⟨{ head := 0, step := 0, state := 0, owns := true, vaultImg := false, pairId := 0, ucodeVer := 0, setVer := 0, cfgDigest := cfgDigest (State.reset), fenceMax := 0 }, State.reset, by decide⟩,
   ⟨setF (F.tlLinkStatUp 0) 1 { State.reset with pair.joined := true, pair.resync := some false }, by decide⟩,
   ⟨setF (F.tlLinkStatUp 0) 1 { State.reset with pair.joined := true, pair.role := .joining }, by decide⟩,
   ⟨setF (F.tlLinkStatUp 0) 1 { State.reset with pair.joined := true, pair.role := .serving, pair.resync := some true }, by decide⟩,
   ⟨State.reset, by decide⟩,
   ⟨5, 0, { cid := 9, opc := 2, fused := false, nsid := 1, slba := 0, nlb := 1, len := 0, fua := false, deac := false, ranges := [], bufs := [] }, setState .hqe 2 (setF (F.tlLinkStatUp 0) 1 { State.reset with pair.joined := true }), by decide⟩,
   ⟨{ tag := 5, h := 3 }, { h := 3, ctl := some (.hpe 0 0), qid := 1, sqe := { cid := 9, opc := 1, fused := false, nsid := 1, slba := 0, nlb := 1, len := 0, fua := false, deac := false, ranges := [], bufs := [] }, host := 0, cmp := [], phase := .forwarded, seq := 1, todo := [], need := 0, waitLand := [], waitAck := [], waitDur := [], waitCseq := 0, waitSync := [], waitRead := [], waitPart := 0, guard := false, repl := none, st := .success }, .success, [], setF (F.tlLinkStatUp 0) 1 { State.reset with pair.fwd := [{ tag := 5, h := 3 }], hqe.cmds := [{ h := 3, ctl := some (.hpe 0 0), qid := 1, sqe := { cid := 9, opc := 1, fused := false, nsid := 1, slba := 0, nlb := 1, len := 0, fua := false, deac := false, ranges := [], bufs := [] }, host := 0, cmp := [], phase := .forwarded, seq := 1, todo := [], need := 0, waitLand := [], waitAck := [], waitDur := [], waitCseq := 0, waitSync := [], waitRead := [], waitPart := 0, guard := false, repl := none, st := .success }] }, by decide⟩,
   ⟨{ tag := 5, h := 3 }, { h := 3, ctl := some (.hpe 0 0), qid := 1, sqe := { cid := 9, opc := 2, fused := false, nsid := 1, slba := 0, nlb := 1, len := 0, fua := false, deac := false, ranges := [], bufs := [] }, host := 0, cmp := [], phase := .forwarded, seq := 1, todo := [], need := 0, waitLand := [], waitAck := [], waitDur := [], waitCseq := 0, waitSync := [], waitRead := [], waitPart := 0, guard := false, repl := none, st := .success }, [], setF (F.tlLinkStatUp 0) 1 { State.reset with pair.fwd := [{ tag := 5, h := 3 }], hqe.cmds := [{ h := 3, ctl := some (.hpe 0 0), qid := 1, sqe := { cid := 9, opc := 2, fused := false, nsid := 1, slba := 0, nlb := 1, len := 0, fua := false, deac := false, ranges := [], bufs := [] }, host := 0, cmp := [], phase := .forwarded, seq := 1, todo := [], need := 0, waitLand := [], waitAck := [], waitDur := [], waitCseq := 0, waitSync := [], waitRead := [], waitPart := 0, guard := false, repl := none, st := .success }] }, by decide⟩,
   ⟨4 * 2 ^ 40, { State.reset with pair.joined := true, ftu.bands := [{ no := 4, st := .open_, d := 3, p := 1, k := 8, cls := 0, bseq := 1, live := 0, stripes := 0, cbits := 0, isMeta := false, isGc := false, reloc := false, short := false, degraded := false, mine := true, members := [(0, [1]), (1, [1]), (2, [1]), (3, [1])], fwd := 0, openCseq := 1, wrong := [] }] }, by decide⟩,
   ⟨4 * 2 ^ 40, { State.reset with pair.joined := true, ftu.bands := [{ no := 4, st := .open_, d := 3, p := 1, k := 8, cls := 0, bseq := 1, live := 0, stripes := 0, cbits := 0, isMeta := false, isGc := false, reloc := false, short := false, degraded := false, mine := true, members := [(0, [1]), (1, [1]), (2, [1]), (3, [1])], fwd := 0, openCseq := 1, wrong := [] }] }, by decide⟩,
   ⟨1, 7, [1], setF (F.tlLinkStatUp 0) 1 <| setF F.mirPairStatMirrorCurrent 1 <| setF F.mirPairStatPeerState 2 <| { State.reset with mgmt.cmds := [{ q := 1, tag := 7, opcode := 0x60, fence := false, dataLen := 0, started := false, reject := none, unposted := false }], hqe.ns := [{ nsid := 1, group := 1, tenant := 0, nsze := 1000, lbaf := 1, cmpMode := 0, cmpLevel := 0, grouping := 0, domain := 0, layout := 0, key := 0, nextKey := 0, nguid := 7, resv := noResv, mixed := false, oldPct := 0, attrGen := 0, format := none, deleting := none, cloneOf := 0, protect := false }], hqe.groups := [{ id := 1, mine := true, change := false }] }, by decide⟩,
   ⟨1, 7, [1], setF (F.tlLinkStatUp 0) 1 { State.reset with hqe.groups := [{ id := 1, mine := true, change := false }], pair.move := some { q := 1, tag := 7, groups := [1] } }, by decide⟩,
   ⟨1, 7, setF (F.tlLinkStatUp 0) 1 { State.reset with mgmt.cmds := [{ q := 1, tag := 7, opcode := 0x61, fence := false, dataLen := 0, started := false, reject := none, unposted := false }], pair.joined := true, bld.hir := some { readable := true, magic := 0, version := 1, head := 0, flags := 0, dsn := 0, board := [], ssvid := 0, ssid := 0, macBase := 0, portUse := 0, dimmGib := Config.otherDram, vaultGib := 0, crc := 0 } }, ⟨by decide, by decide, by decide, by decide, Bool.and_eq_true_iff.2 ⟨by decide, decide_eq_true (show Config.otherDram + 0 + 0 ≤ 12 * Config.otherDram by omega)⟩, by decide⟩⟩⟩

/-- Hypotheses of PairComparesBeatsAndTakesOver hold together. -/
theorem witness_PairComparesBeatsAndTakesOver :
    (∃ (s : State), halted s = false ∧ comparing s = true ∧ (min 256 (s.ftu.csnext - s.pair.nextWin) = 256 ∨ 4000 ≤ s.now - s.pair.winAt)) ∧
    (∃ (m : DigestMsg) (w : DigWin) (s : State), halted s = false ∧ comparing s = true ∧ troysUp s = true ∧ m.answer = true ∧ m.stream = s.pins.headSel ∧ s.pair.ownWins = [w] ∧ w.first = m.first ∧ w.count = m.count ∧ m.cdig = w.cdig ∧ m.mdig = w.mdig) ∧
    (∃ (m : DigestMsg) (w : DigWin) (s : State), halted s = false ∧ comparing s = true ∧ troysUp s = true ∧ m.answer = true ∧ m.stream = s.pins.headSel ∧ s.pair.ownWins = [w] ∧ w.first = m.first ∧ w.count = m.count ∧ m.cdig ≠ w.cdig) ∧
    (∃ (m : DigestMsg) (s : State), halted s = false ∧ comparing s = true ∧ troysUp s = true ∧ m.answer = false ∧ m.stream = peerHead s ∧ s.pair.peerWins = []) ∧
    (∃ (o n : Nat) (s : State), halted s = false ∧ comparing s = true ∧ troysUp s = true ∧ o ≤ 1 ∧ s.pair.arb = none) ∧
    (∃ (o n : Nat) (own peer : Bool) (s : State), halted s = false ∧ s.pair.arb = some (o, n) ∧ running .ocu s = true ∧ o = s.pins.headSel) ∧
    (∃ (o n : Nat) (own peer : Bool) (s : State), halted s = false ∧ s.pair.arb = some (o, n) ∧ running .ocu s = true ∧ o ≠ s.pins.headSel) ∧
    (∃ (n : Nat) (s : State), halted s = false ∧ comparing s = true ∧ s.pair.ownWins.any (fun w => w.first == n && !w.late && decide (100000 ≤ s.now - w.at_)) = true) ∧
    (∃ (s : State), graved s = false ∧ s.pwc.held = false ∧ getF F.hbuCtrlTxEn s = 1 ∧ blockDown .hbu s = false ∧ s.pair.hbTx.all (fun t => decide (1000 ≤ s.now - t)) = true) ∧
    (∃ (w : BitVec 64) (s : State), halted s = false ∧ blockDown .hbu s = false ∧ bits w.toNat 63 48 = crc16 (toBytes 6 (w.toNat % 2 ^ 48)) ∧ w.toNat % 256 = 0xA5 ∧ bits w.toNat 47 32 = getF F.hqePairIdLoPairLo s % 65536 ∧ bits w.toNat 12 9 ≠ 4 ∧ bits w.toNat 12 9 ≠ 5 ∧ getF F.mirPairStatPeerState s = bits w.toNat 12 9) ∧
    (∃ (w : BitVec 64) (s : State), halted s = false ∧ blockDown .hbu s = false ∧ bits w.toNat 63 48 = crc16 (toBytes 6 (w.toNat % 2 ^ 48)) ∧ w.toNat % 256 = 0xA5 ∧ bits w.toNat 47 32 = getF F.hqePairIdLoPairLo s % 65536 ∧ bits w.toNat 12 9 = 4 ∧ getF F.mirPairStatPeerState s ≠ 4) ∧
    (∃ (w : BitVec 64) (s : State), halted s = false ∧ blockDown .hbu s = false ∧ bits w.toNat 63 48 ≠ crc16 (toBytes 6 (w.toNat % 2 ^ 48))) ∧
    (∃ (s : State), halted s = false ∧ getF F.hbuStatRxOk s = 1 ∧ s.pair.hbAt.all (fun t => decide (2500 ≤ s.now - t)) = true) ∧
    (∃ (t : Nat) (s : State), halted s = false ∧ s.pair.joined = true ∧ getF F.ocuStatStreamOk s = 1 ∧ s.pair.lastDig = some t ∧ 8000 ≤ s.now - t ∧ getF F.hbuStatRxOk s = 1 ∧ getF F.hbuStatPeerState s = 2) ∧
    (∃ (s : State), halted s = false) ∧
    (∃ (c : Nat) (s : State), getF F.mirCtrlEclEn s = 1 ∧ s.pair.joined = true ∧ s.pair.ecl = none ∧ getF F.mirPairStatSevered s = 0 ∧ s.pwc.inputOk = true ∧ s.pwc.dumping = false ∧ getF F.mirPairStatMirrorCurrent s = 1 ∧ s.hqe.groups.any (fun g => !g.mine) = true ∧ s.pins.headSel % 2 = 0) ∧
    (∃ (e : Eclipse) (s : State), halted s = false ∧ s.pair.ecl = some e ∧ e.stagger = true ∧ e.fenced = false ∧ 4000 ≤ s.now - e.at_) ∧
    (∃ (m v : Nat) (c : Cas) (s : State), halted s = false ∧ s.mods.cas = [c] ∧ c.m = m ∧ c.done = false ∧ getF (F.mptLinkStatUp m) s = 1 ∧ v = c.compare) ∧
    (∃ (m v : Nat) (c : Cas) (s : State), halted s = false ∧ s.mods.cas = [c] ∧ c.m = m ∧ c.done = false ∧ getF (F.mptLinkStatUp m) s = 1 ∧ v ≠ c.compare ∧ c.tried.contains v = false ∧ s.pair.ecl = none) ∧
    (∃ (m : Nat) (s : State), halted s = false ∧ s.mods.cas.any (fun c => c.m == m && !c.done && decide (6000 ≤ s.now - c.at_)) = true ∧ getF (F.mptLinkStatUp m) s = 1) ∧
    (∃ (e : Eclipse) (s : State), halted s = false ∧ s.pair.ecl = some e ∧ e.fenced = true ∧ s.mods.cas = []) ∧
    (∃ (e : Eclipse) (c : Cas) (s : State), halted s = false ∧ s.pair.ecl = some e ∧ e.fenced = true ∧ s.mods.cas = [c] ∧ c.done = true ∧ c.won = false ∧ getF (F.mptFenceResResult c.m) s = 2) :=
  ⟨⟨setF F.ocuCtrlCmpEn 1 <| setState .ocu 2 (setF (F.tlLinkStatUp 0) 1 { State.reset with pair.joined := true, now := 4000 }), by decide⟩,
   ⟨{ answer := true, stream := 0, count := 1, first := 3, cdig := [4], mdig := [5], time := 0 }, { first := 3, count := 1, cdig := [4], mdig := [5], at_ := 0, late := false }, setF F.ocuCtrlCmpEn 1 <| setState .ocu 2 (setF (F.tlLinkStatUp 0) 1 { State.reset with pair.joined := true, pair.ownWins := [{ first := 3, count := 1, cdig := [4], mdig := [5], at_ := 0, late := false }] }), by decide⟩,
   ⟨{ answer := true, stream := 0, count := 1, first := 3, cdig := [6], mdig := [5], time := 0 }, { first := 3, count := 1, cdig := [4], mdig := [5], at_ := 0, late := false }, setF F.ocuCtrlCmpEn 1 <| setState .ocu 2 (setF (F.tlLinkStatUp 0) 1 { State.reset with pair.joined := true, pair.ownWins := [{ first := 3, count := 1, cdig := [4], mdig := [5], at_ := 0, late := false }] }), by decide⟩,
   ⟨{ answer := false, stream := 1, count := 1, first := 3, cdig := [4], mdig := [5], time := 0 }, setF F.ocuCtrlCmpEn 1 <| setState .ocu 2 (setF (F.tlLinkStatUp 0) 1 { State.reset with pair.joined := true }), by decide⟩,
   ⟨1, 3, setF F.ocuCtrlCmpEn 1 <| setState .ocu 2 (setF (F.tlLinkStatUp 0) 1 { State.reset with pair.joined := true }), by decide⟩,
   ⟨0, 3, true, true, setState .ocu 2 ({ State.reset with pair.arb := some (0, 3) }), by decide⟩,
   ⟨1, 3, true, true, setState .ocu 2 ({ State.reset with pair.arb := some (1, 3) }), by decide⟩,
   ⟨3, setF F.ocuCtrlCmpEn 1 <| setState .ocu 2 (setF (F.tlLinkStatUp 0) 1 { State.reset with pair.joined := true, now := 100000, pair.ownWins := [{ first := 3, count := 1, cdig := [4], mdig := [5], at_ := 0, late := false }] }), by decide⟩,
   ⟨setF F.hbuCtrlTxEn 1 { State.reset with pwc.held := false }, by decide⟩,
   ⟨BitVec.ofNat 64 (hbWordOf 2 State.reset), setF F.mirPairStatPeerState 2 State.reset, by decide⟩,
   ⟨BitVec.ofNat 64 (hbWordOf 4 State.reset), State.reset, by decide⟩,
   ⟨0, State.reset, by decide⟩,
   ⟨setF F.hbuStatRxOk 1 { State.reset with now := 2500, pair.hbAt := some 0 }, by decide⟩,
   ⟨0, setF F.ocuStatStreamOk 1 <| setF F.hbuStatRxOk 1 <| setF F.hbuStatPeerState 2 { State.reset with now := 8000, pair.joined := true, pair.lastDig := some 0 }, by decide⟩,
   ⟨State.reset, by decide⟩,
   ⟨1, setF F.mirCtrlEclEn 1 <| setF F.mirPairStatMirrorCurrent 1 { State.reset with pair.joined := true, hqe.groups := [{ id := 1, mine := false, change := false }] }, by decide⟩,
   ⟨{ cause := 5, at_ := 0, fenced := false, stagger := true }, { State.reset with now := 4000, pair.ecl := some { cause := 5, at_ := 0, fenced := false, stagger := true } }, by decide⟩,
   ⟨2, 7, { m := 2, compare := 7, swap := 8, tried := [8], at_ := 0, done := false, won := false }, setF (F.mptLinkStatUp 2) 1 { State.reset with mods.cas := [{ m := 2, compare := 7, swap := 8, tried := [8], at_ := 0, done := false, won := false }] }, by decide⟩,
   ⟨2, 9, { m := 2, compare := 7, swap := 8, tried := [8], at_ := 0, done := false, won := false }, setF (F.mptLinkStatUp 2) 1 { State.reset with mods.cas := [{ m := 2, compare := 7, swap := 8, tried := [8], at_ := 0, done := false, won := false }] }, by decide⟩,
   ⟨2, setF (F.mptLinkStatUp 2) 1 { State.reset with now := 6000, mods.cas := [{ m := 2, compare := 7, swap := 8, tried := [8], at_ := 0, done := false, won := false }] }, by decide⟩,
   ⟨{ cause := 5, at_ := 0, fenced := true, stagger := false }, { State.reset with pair.ecl := some { cause := 5, at_ := 0, fenced := true, stagger := false } }, by decide⟩,
   ⟨{ cause := 5, at_ := 0, fenced := true, stagger := false }, { m := 2, compare := 7, swap := 8, tried := [8], at_ := 0, done := true, won := false }, setF (F.mptFenceResResult 2) 2 { State.reset with pair.ecl := some { cause := 5, at_ := 0, fenced := true, stagger := false }, mods.cas := [{ m := 2, compare := 7, swap := 8, tried := [8], at_ := 0, done := true, won := false }] }, by decide⟩⟩

/-- Hypotheses of ErrorsAreReportedAndIncidentsClosed hold together. -/
theorem witness_ErrorsAreReportedAndIncidentsClosed :
    (∃ (b : Block) (n lane : Nat) (s : State), s.pwc.held = false ∧ graved s = false ∧ (errClass? b n).isSome = true ∧ laneErr b n lane = false ∧ b ≠ .stg) ∧
    (∃ (b : Block) (n lane : Nat) (s : State), s.pwc.held = false ∧ graved s = true ∧ (errClass? b n).isSome = true ∧ laneErr b n lane = false) ∧
    (∃ (b : Block) (n : Nat) (s : State), errClass? b n = some 0 ∧ b ≠ .dge ∧ errCls b n s < 2 ∧ bit (getF (H.errMask b) s) n = true) ∧
    (∃ (b : Block) (n : Nat) (s : State), (errClass? b n).isSome = true ∧ b ≠ .dge ∧ errCls b n s < 2 ∧ bit (getF (H.errMask b) s) n = false) ∧
    (∃ (b : Block) (n : Nat) (s : State), (errClass? b n).isSome = true ∧ b ≠ .dge ∧ 2 ≤ errCls b n s ∧ graved s = false ∧ s.fco.incs = []) ∧
    (∃ (b : Block) (n : Nat) (i : Incident) (s : State), (errClass? b n).isSome = true ∧ b ≠ .dge ∧ 2 ≤ errCls b n s ∧ graved s = false ∧ s.fco.incs = [i] ∧ i.scope = .engine b) ∧
    (∃ (i : Incident) (s : State), halted s = false ∧ s.fco.incs = [i] ∧ i.cls < 4 ∧ i.scope = .engine .ftu ∧ getF (H.state .ftu) s ≠ 5 ∧ i.source ≠ latchBit .stg) ∧
    (∃ (b : Block) (l : Nat) (i : Incident) (s : State), halted s = false ∧ s.fco.incs = [i] ∧ i.cls < 4 ∧ i.scope = .lane b l ∧ i.source ≠ latchBit .stg) ∧
    (∃ (c : Nat) (s : State), s.pwc.held = false ∧ isLane .cpc c = true ∧ lanePowered .cpc c s = true) :=
  ⟨⟨.ftu, 1, 0xFF, { State.reset with pwc.held := false }, by decide⟩,
   ⟨.ftu, 1, 0xFF, { State.reset with pwc.held := false, fco.grave := some { cause := 1, source := 0, incident := 1, time := 0 } }, by decide⟩,
   ⟨.mge, 3, setF (H.errMask .mge) 8 State.reset, by decide⟩,
   ⟨.mge, 3, State.reset, by decide⟩,
   ⟨.ftu, 12, State.reset, by decide⟩,
   ⟨.ftu, 12, { slot := 0, number := 5, cls := 2, source := 21, blk := some .ftu, lane := 0xFF, inst := 0, scope := .engine .ftu, subs := 1, openedAt := 0, handler := 31 }, { State.reset with fco.incs := [{ slot := 0, number := 5, cls := 2, source := 21, blk := some .ftu, lane := 0xFF, inst := 0, scope := .engine .ftu, subs := 1, openedAt := 0, handler := 31 }] }, by decide⟩,
   ⟨{ slot := 0, number := 5, cls := 2, source := 21, blk := some .ftu, lane := 0xFF, inst := 0, scope := .engine .ftu, subs := 1, openedAt := 0, handler := 31 }, { State.reset with fco.incs := [{ slot := 0, number := 5, cls := 2, source := 21, blk := some .ftu, lane := 0xFF, inst := 0, scope := .engine .ftu, subs := 1, openedAt := 0, handler := 31 }] }, by decide⟩,
   ⟨.cmp, 3, { slot := 0, number := 5, cls := 2, source := 21, blk := some .ftu, lane := 0xFF, inst := 0, scope := .lane .cmp 3, subs := 1, openedAt := 0, handler := 31 }, { State.reset with fco.incs := [{ slot := 0, number := 5, cls := 2, source := 21, blk := some .ftu, lane := 0xFF, inst := 0, scope := .lane .cmp 3, subs := 1, openedAt := 0, handler := 31 }] }, by decide⟩,
   ⟨0, { State.reset with pwc.held := false }, by decide⟩⟩

/-- Hypotheses of ClassFourEntersTheGraveState hold together. -/
theorem witness_ClassFourEntersTheGraveState :
    ∃ (b : Block) (n lane : Nat) (s : State), errClass? b n = some 4 ∧ graved s = false ∧ s.fco.incs.all (fun i => decide (i.cls < 4)) = true :=
  ⟨.ocu, E.ocuSelfCheck, 0xFF, State.reset, by decide⟩

/-- Hypotheses of RecordsAreNumberedAndNeverOverwritten hold together. -/
theorem witness_RecordsAreNumberedAndNeverOverwritten :
    (∃ (r : Rec) (s : State), getF F.evrCtrlRecEn s = 1 ∧ getF F.evrStatFull s = 0 ∧ s.evr.recs.length < 65535 ∧ getF F.evrDroppedDropped s = 0) ∧
    (∃ (r : Rec) (s : State), getF F.evrCtrlRecEn s = 1 ∧ getF F.evrStatFull s = 0 ∧ 65535 ≤ s.evr.recs.length) ∧
    (∃ (r : Rec) (s : State), getF F.evrStatFull s = 1) :=
  ⟨⟨{ code := 0x10, cls := 0, inj := false, sub := false, raised := false, noTai := false, source := 0, seq := 3, time := 0, inst := 0, lane := 0, inc := 0, p1 := 0, p2 := 0 }, setF F.evrCtrlRecEn 1 State.reset, by decide⟩,
   ⟨{ code := 0x10, cls := 0, inj := false, sub := false, raised := false, noTai := false, source := 0, seq := 3, time := 0, inst := 0, lane := 0, inc := 0, p1 := 0, p2 := 0 }, setF F.evrCtrlRecEn 1 { State.reset with evr.recs := List.replicate 65535 { code := 0x10, cls := 0, inj := false, sub := false, raised := false, noTai := false, source := 0, seq := 3, time := 0, inst := 0, lane := 0, inc := 0, p1 := 0, p2 := 0 } }, ⟨by decide, by decide, Nat.le_of_eq (List.length_replicate).symm⟩⟩,
   ⟨{ code := 0x10, cls := 0, inj := false, sub := false, raised := false, noTai := false, source := 0, seq := 3, time := 0, inst := 0, lane := 0, inc := 0, p1 := 0, p2 := 0 }, setF F.evrStatFull 1 State.reset, by decide⟩⟩

/-- Hypotheses of EventRecordIsReadReleasedAndArmed hold together. -/
theorem witness_EventRecordIsReadReleasedAndArmed :
    (∃ (c : Nat) (s : State), (pendOf c s).1 ≠ 0 ∧ 1000000000 ≤ s.now - (pendOf c s).2) ∧
    (∃ (q tag n len seq : Nat) (rel : Bool) (r : Rec) (rs : List Rec) (s : State), halted s = false ∧ mgmtReady q tag 0x70 s = true ∧ s.evr.recs = r :: rs ∧ len ≠ 0 ∧ n ≠ 0 ∧ n ≤ len / 32) ∧
    (∃ (q tag seq n len : Nat) (rel : Bool) (s : State), halted s = false ∧ mgmtReady q tag 0x70 s = true ∧ len ≠ 0 ∧ n ≠ 0 ∧ n ≤ len / 32 ∧ s.evr.recs.all (fun r => r.seq != seq) = true ∧ seq ≠ getF F.evrNextNext s) ∧
    (∃ (n : Nat) (s : State), getF (H.pwrState .evr) s ≠ 2 ∧ getF (H.state .evr) s ≠ 5) ∧
    (∃ (n : Nat) (s : State), getF (H.pwrState .evr) s ≠ 2 ∧ getF (H.state .evr) s ≠ 5) ∧
    (∃ (s : State), s.evr.recs.length < 65535) ∧
    (∃ (s : State), halted s = false ∧ getF (H.pwrState .fco) s ≠ 2 ∧ getF (H.state .fco) s ≠ 5) ∧
    (∃ (t : Nat) (s : State), halted s = false ∧ getF (H.pwrState .fco) s ≠ 2 ∧ getF (H.state .fco) s ≠ 5 ∧ s.fco.armAt = some t ∧ s.now - t ≤ 1000000 ∧ getF F.fcoInjCtlInjEn s = 0) ∧
    (∃ (s : State), halted s = false ∧ getF (H.pwrState .fco) s ≠ 2 ∧ getF (H.state .fco) s ≠ 5) ∧
    (∃ (t : Nat) (s : State), halted s = false ∧ s.fco.armAt = some t ∧ 1000000 < s.now - t) ∧
    (∃ (v : Nat) (s : State), s.pwc.held = false ∧ 1000000 ≤ s.now ∧ getF (H.pwrState .evr) s ≠ 2 ∧ getF (H.state .evr) s ≠ 5) ∧
    (∃ (v : Nat) (s : State), s.pwc.held = false ∧ 1000000 ≤ s.now ∧ getF (H.pwrState .evr) s ≠ 2 ∧ getF (H.state .evr) s ≠ 5) ∧
    (∃ (a v : Nat) (s : State), s.pwc.held = false ∧ 1000000 ≤ s.now ∧ a % 4 = 0 ∧ (a = 0x2040 ∨ a = 0x2044 ∨ a % 0x1000 = 0x10 ∨ a % 0x1000 = 0x20 ∨ a % 0x1000 = 0x3C)) ∧
    (∃ (a v : Nat) (s : State), a ≠ 0x305C ∧ a ≠ 0x3080 ∧ a ≠ 0x2040 ∧ a ≠ 0x2044 ∧ a % 0x1000 ≠ 0x10 ∧ a % 0x1000 ≠ 0x20 ∧ a % 0x1000 ≠ 0x3C) :=
  ⟨⟨0x10, { State.reset with now := 1000000000, evr.buckets := [(0x10, { tok := 0, at_ := 0, pending := 2, since := 0 })] }, by decide⟩,
   ⟨1, 7, 1, 32, 0, true, { code := 0x10, cls := 0, inj := false, sub := false, raised := false, noTai := false, source := 0, seq := 3, time := 0, inst := 0, lane := 0, inc := 0, p1 := 0, p2 := 0 }, [], { State.reset with mgmt.cmds := [{ q := 1, tag := 7, opcode := 0x70, fence := false, dataLen := 0, started := false, reject := none, unposted := false }], evr.recs := [{ code := 0x10, cls := 0, inj := false, sub := false, raised := false, noTai := false, source := 0, seq := 3, time := 0, inst := 0, lane := 0, inc := 0, p1 := 0, p2 := 0 }] }, by decide⟩,
   ⟨1, 7, 9, 1, 32, true, { State.reset with mgmt.cmds := [{ q := 1, tag := 7, opcode := 0x70, fence := false, dataLen := 0, started := false, reject := none, unposted := false }] }, by decide⟩,
   ⟨4, State.reset, by decide⟩,
   ⟨4, State.reset, by decide⟩,
   ⟨State.reset, by decide⟩,
   ⟨State.reset, by decide⟩,
   ⟨0, { State.reset with now := 1000000, fco.armAt := some 0 }, by decide⟩,
   ⟨State.reset, by decide⟩,
   ⟨0, { State.reset with now := 1000001, fco.armAt := some 0 }, by decide⟩,
   ⟨4, { State.reset with now := 1000000, pwc.held := false }, by decide⟩,
   ⟨4, { State.reset with now := 1000000, pwc.held := false }, by decide⟩,
   ⟨0x2040, 4, { State.reset with now := 1000000, pwc.held := false }, by decide⟩,
   ⟨0x100, 4, State.reset, by decide⟩⟩

/-- Hypotheses of ResetsKeepWhatTheirDomainHolds hold together. -/
theorem witness_ResetsKeepWhatTheirDomainHolds :
    (∃ (s : State), s.pwc.held = true) ∧
    (∃ (s : State), s.pwc.held = false ∧ s.pwc.dumping = false) ∧
    (∃ (s : State), halted s = false ∧ getF (H.pwrState .pwc) s ≠ 2 ∧ getF (H.state .pwc) s ≠ 5) ∧
    (∃ (k : Nat) (s : State), halted s = false ∧ getF (H.pwrState .pwc) s ≠ 2 ∧ getF (H.state .pwc) s ≠ 5 ∧ k ≠ 0x57A2) ∧
    (∃ (s : State), s.pwc.held = false ∧ s.pwc.dumping = false ∧ graved s = false ∧ getF F.stgWbStatReady s = 1) ∧
    (∃ (s : State), (s.pwc.held = true ∨ s.pwc.dumping = true ∨ graved s = true)) ∧
    (∃ (b : Bool) (ms : Nat) (s : State), s.pwc.dumping = true ∧ dumpWhole s = false ∧ s.pwc.inputOk = true) ∧
    (∃ (b : Bool) (ms : Nat) (s : State), s.pwc.dumping = true ∧ dumpWhole s = true ∧ s.pwc.inputOk = true) ∧
    (∃ (ms : Nat) (s : State), s.pwc.dumping = true ∧ s.pwc.inputOk = false) ∧
    (∃ (ms : Nat) (s : State), s.pwc.dumping = true ∧ s.pwc.inputOk = false ∧ graved s = false) :=
  ⟨⟨{ State.reset with pwc.held := true }, by decide⟩,
   ⟨{ State.reset with pwc.held := false }, by decide⟩,
   ⟨State.reset, by decide⟩,
   ⟨1, State.reset, by decide⟩,
   ⟨setF F.stgWbStatReady 1 { State.reset with pwc.held := false }, by decide⟩,
   ⟨{ State.reset with pwc.held := true }, by decide⟩,
   ⟨true, 4, { State.reset with pwc.dumping := true, pwc.inputOk := true }, by decide⟩,
   ⟨true, 4, setF F.stgWbStatReady 1 { State.reset with pwc.dumping := true, pwc.inputOk := true }, by decide⟩,
   ⟨4, { State.reset with pwc.dumping := true, pwc.inputOk := false }, by decide⟩,
   ⟨4, { State.reset with pwc.dumping := true, pwc.inputOk := false }, by decide⟩⟩

/-- Hypotheses of StartUpReachesService hold together. -/
theorem witness_StartUpReachesService :
    (∃ (f : Nat) (h : Hir) (s : State), halted s = false ∧ getF F.bldStatStage s = 0 ∧ running .cpc s = true) ∧
    (∃ (f : Nat) (h : Hir) (s : State), halted s = false ∧ getF F.bldStatStage s = 1 ∧ s.bld.fwSt ≠ 5 ∧ s.bld.fwSt ≠ 6 ∧ passes 1 (slotImage 1 s) s = true ∧ f ≠ 1 ∧ h.readable = false) ∧
    (∃ (f : Nat) (h : Hir) (s : State), halted s = false ∧ getF F.bldStatStage s = 1 ∧ s.bld.fwSt ≠ 5 ∧ s.bld.fwSt ≠ 6 ∧ passes 1 (slotImage 1 s) s = true ∧ f ≠ 1 ∧ h.readable = true ∧ h.magic = 0x49484B48 ∧ h.version = 1 ∧ crcAt (hirBytes h) 256 = true ∧ h.head = s.pins.headSel ∧ h.dsn = s.bld.dsn ∧ h.flags % 2 = 1) ∧
    (∃ (f : Nat) (h : Hir) (s : State), halted s = false ∧ getF F.bldStatStage s = 2 ∧ installDue s = false) ∧
    (∃ (f : Nat) (h : Hir) (s : State), halted s = false ∧ getF F.bldStatStage s = 3 ∧ f ≠ 5) ∧
    (∃ (h : Hir) (s : State), halted s = false ∧ getF F.bldStatStage s = 3) ∧
    (∃ (h : Hir) (s : State), halted s = false ∧ getF F.bldStatStage s = 4) ∧
    (∃ (f : Nat) (h : Hir) (s : State), halted s = false ∧ getF F.bldStatStage s = 4 ∧ f ≠ 6 ∧ s.bld.dumpOpen = false) ∧
    (∃ (f : Nat) (h : Hir) (s : State), halted s = false ∧ getF F.bldStatStage s = 5) ∧
    (∃ (f : Nat) (h : Hir) (s : State), halted s = false ∧ getF F.bldStatStage s = 6) ∧
    (∃ (f : Nat) (h : Hir) (s : State), halted s = false ∧ getF F.bldStatStage s = 7 ∧ getF F.bldStatRole s ≠ 0 ∧ (getF F.bldStatRole s ≠ 3 ∨ (s.pair.joined = true ∧ troysUp s = true))) ∧
    (∃ (f : Nat) (h : Hir) (s : State), halted s = false ∧ getF F.bldStatStage s = 8 ∧ getF F.stgWbStatReady s = 1) ∧
    (∃ (w : Bool) (s : State), halted s = false ∧ getF F.bldStatStage s = 7 ∧ getF F.bldStatRole s = 0 ∧ getF F.mirJoinCause s = 0 ∧ fenceAbove true s = true) ∧
    (∃ (w : Bool) (s : State), halted s = false ∧ getF F.bldStatStage s = 7 ∧ getF F.bldStatRole s = 0 ∧ getF F.mirJoinCause s = 0 ∧ fenceAbove true s = false ∧ troysUp s = true ∧ s.pair.joined = true ∧ getF F.hbuStatRxOk s = 1 ∧ getF F.hbuStatPeerState s = 2) ∧
    (∃ (w : Bool) (s : State), halted s = false ∧ getF F.bldStatStage s = 7 ∧ getF F.bldStatRole s = 0 ∧ getF F.mirJoinCause s = 0 ∧ fenceAbove true s = false ∧ troysUp s = false ∧ getF F.hbuStatRxOk s = 0 ∧ waited s = true ∧ s.hqe.groups.all (·.mine) = true) ∧
    (∃ (i : ImageHdr) (s : State), halted s = false ∧ getF F.bldStatStage s = 8 ∧ getF F.stgWbStatReady s = 0 ∧ sourceOf s = some (2, i) ∧ s.bld.adopt = false) ∧
    (∃ (s : State), halted s = false ∧ getF F.bldStatStage s = 8 ∧ getF F.stgWbStatReady s = 0 ∧ sourceOf s = none ∧ s.pair.joined = true ∧ troysUp s = true) ∧
    (∃ (s : State), halted s = false ∧ getF F.bldStatStage s = 8 ∧ getF F.stgWbStatReady s = 0 ∧ sourceOf s = none ∧ s.pair.joined = false) :=
  ⟨⟨0, { readable := false, magic := 0, version := 0, head := 0, flags := 0, dsn := 0, board := [], ssvid := 0, ssid := 0, macBase := 0, portUse := 0, dimmGib := 0, vaultGib := 0, crc := 0 }, setState .cpc 2 State.reset, by decide⟩,
   ⟨0, { readable := false, magic := 0, version := 0, head := 0, flags := 0, dsn := 0, board := [], ssvid := 0, ssid := 0, macBase := 0, portUse := 0, dimmGib := 0, vaultGib := 0, crc := 0 }, setF F.bldStatStage 1 State.reset, by decide⟩,
   ⟨0, { readable := true, magic := 0x49484B48, version := 1, head := 0, flags := 1, dsn := State.reset.bld.dsn, board := [], ssvid := 0, ssid := 0, macBase := 0, portUse := 15, dimmGib := 64, vaultGib := 64, crc := crc32c ((hirBytes { readable := true, magic := 0x49484B48, version := 1, head := 0, flags := 1, dsn := State.reset.bld.dsn, board := [], ssvid := 0, ssid := 0, macBase := 0, portUse := 15, dimmGib := 64, vaultGib := 64, crc := 0 }).take 252) }, setF F.bldStatStage 1 State.reset, ⟨by decide, by decide, by decide, by decide, by decide, by decide, by decide, by decide, by decide, by decide +kernel, by decide, by decide, by decide⟩⟩,
   ⟨0, { readable := false, magic := 0, version := 0, head := 0, flags := 0, dsn := 0, board := [], ssvid := 0, ssid := 0, macBase := 0, portUse := 0, dimmGib := 0, vaultGib := 0, crc := 0 }, setF F.bldStatStage 2 State.reset, by decide⟩,
   ⟨0, { readable := false, magic := 0, version := 0, head := 0, flags := 0, dsn := 0, board := [], ssvid := 0, ssid := 0, macBase := 0, portUse := 0, dimmGib := 0, vaultGib := 0, crc := 0 }, setF F.bldStatStage 3 State.reset, by decide⟩,
   ⟨{ readable := false, magic := 0, version := 0, head := 0, flags := 0, dsn := 0, board := [], ssvid := 0, ssid := 0, macBase := 0, portUse := 0, dimmGib := 0, vaultGib := 0, crc := 0 }, setF F.bldStatStage 3 State.reset, by decide⟩,
   ⟨{ readable := false, magic := 0, version := 0, head := 0, flags := 0, dsn := 0, board := [], ssvid := 0, ssid := 0, macBase := 0, portUse := 0, dimmGib := 0, vaultGib := 0, crc := 0 }, setF F.bldStatStage 4 State.reset, by decide⟩,
   ⟨0, { readable := false, magic := 0, version := 0, head := 0, flags := 0, dsn := 0, board := [], ssvid := 0, ssid := 0, macBase := 0, portUse := 0, dimmGib := 0, vaultGib := 0, crc := 0 }, setF F.bldStatStage 4 State.reset, by decide⟩,
   ⟨0, { readable := false, magic := 0, version := 0, head := 0, flags := 0, dsn := 0, board := [], ssvid := 0, ssid := 0, macBase := 0, portUse := 0, dimmGib := 0, vaultGib := 0, crc := 0 }, setF F.bldStatStage 5 State.reset, by decide⟩,
   ⟨0, { readable := false, magic := 0, version := 0, head := 0, flags := 0, dsn := 0, board := [], ssvid := 0, ssid := 0, macBase := 0, portUse := 0, dimmGib := 0, vaultGib := 0, crc := 0 }, setF F.bldStatStage 6 State.reset, by decide⟩,
   ⟨0, { readable := false, magic := 0, version := 0, head := 0, flags := 0, dsn := 0, board := [], ssvid := 0, ssid := 0, macBase := 0, portUse := 0, dimmGib := 0, vaultGib := 0, crc := 0 }, setF F.bldStatStage 7 <| setF F.bldStatRole 2 State.reset, by decide⟩,
   ⟨0, { readable := false, magic := 0, version := 0, head := 0, flags := 0, dsn := 0, board := [], ssvid := 0, ssid := 0, macBase := 0, portUse := 0, dimmGib := 0, vaultGib := 0, crc := 0 }, setF F.bldStatStage 8 <| setF F.stgWbStatReady 1 State.reset, by decide⟩,
   ⟨true, setF F.bldStatStage 7 <| setF (F.mptModStatAdmitted 2) 1 <| setF (F.mptFenceGen 2) 5 <| setF (F.mptFenceHolder 2) 1 { State.reset with mods.mir := [(2, { magic := 0, version := 1, major := 1, serial := 7, holdup := false, softRead := true, i3c := true, luns := 1, planes := 1, blocksPerLun := 8, pusPerBlock := 1, sysBlocks := 0, puBytes := 65536, ratedErases := 1000, wear := 0, relocThr := 100, retrySteps := 4, tProgMax := 10, tEraseMax := 20, crcOk := true, words := [] })] }, by decide⟩,
   ⟨true, setF F.bldStatStage 7 <| setF (F.tlLinkStatUp 0) 1 <| setF F.hbuStatRxOk 1 <| setF F.hbuStatPeerState 2 { State.reset with pair.joined := true }, by decide⟩,
   ⟨true, setF F.bldStatStage 7 { State.reset with now := 100000000000 }, by decide⟩,
   ⟨{ head := 0, slot := 0, gen := 3, mirrorLive := false, grave := false, retained := false, time := 0, nextCseq := 0, nextSeq := 9, peerCseq := 0, fence := [], ok := true }, setF F.bldStatStage 8 { State.reset with bld.vault := [{ head := 0, slot := 0, gen := 3, mirrorLive := false, grave := false, retained := false, time := 0, nextCseq := 0, nextSeq := 9, peerCseq := 0, fence := [], ok := true }] }, by decide⟩,
   ⟨setF F.bldStatStage 8 <| setF (F.tlLinkStatUp 0) 1 { State.reset with pair.joined := true }, by decide⟩,
   ⟨setF F.bldStatStage 8 State.reset, by decide⟩⟩

/-- Hypotheses of PowerLanesAndTemperatureAreManaged hold together. -/
theorem witness_PowerLanesAndTemperatureAreManaged :
    (∃ (r : Nat) (s : State), s.pwc.held = false ∧ r < 7 ∧ s.pwc.inputOk = true ∧ s.pwc.dumping = false) ∧
    (∃ (n : Nat) (s : State), s.pwc.held = false ∧ n < 2) ∧
    (∃ (n : Nat) (s : State), s.pwc.held = false ∧ 2 ≤ n ∧ n < 11) ∧
    (∃ (m : Nat) (s : State), halted s = false ∧ getF (H.pwrState .cry) s ≠ 2 ∧ getF (H.state .cry) s ≠ 5 ∧ m % 65536 ≠ 0) ∧
    (∃ (s : State), halted s = false ∧ getF (H.pwrState .cry) s ≠ 2 ∧ getF (H.state .cry) s ≠ 5 ∧ getF (H.en .cry) s = 1) ∧
    (∃ (b : Block) (l : Nat) (s : State), halted s = false ∧ isLane b l = true ∧ b ≠ .cpc ∧ b ≠ .fiu ∧ b ≠ .dge ∧ getF F.pwcCtrlAutoEn s = 1 ∧ getF (H.pwrAuto b) s = 1 ∧ laneReady b l s = true) ∧
    (∃ (s : State), halted s = false ∧ s.pwc.toState = none ∧ getF F.pwcStatHstate s < stateAim s) ∧
    (∃ (s : State), halted s = false ∧ s.pwc.toState = none ∧ stateAim s < getF F.pwcStatHstate s) ∧
    (∃ (h t : Nat) (s : State), halted s = false ∧ s.pwc.toState = some (h, t) ∧ t ≤ s.now) ∧
    (∃ (s : State), halted s = false ∧ getF (H.pwrState .pwc) s ≠ 2 ∧ getF (H.state .pwc) s ≠ 5) ∧
    (∃ (s : State), halted s = false ∧ s.pwc.stopping = true ∧ getF F.pwcStatShutDone s = 0 ∧ cmdsLeft s = false ∧ s.wb.own = [] ∧ s.wb.units = [] ∧ s.par.stripes = [] ∧ s.ftu.pages.any (fun p => p.dirty || p.writing) = false ∧ running .ftu s = true) ∧
    (∃ (ts : List Nat) (k : Nat) (s : State), s.pwc.held = false ∧ ts.length = 16 ∧ 100000 ≤ s.now - s.pwc.sensedAt ∧ getF F.pwcTempLevel s = 0 ∧ hottest ts s.pwc.failed = some k) ∧
    (∃ (ts : List Nat) (n k : Nat) (s : State), s.pwc.held = false ∧ ts.length = 16 ∧ 100000 ≤ s.now - s.pwc.sensedAt ∧ getF F.pwcTempLevel s = 0 ∧ s.pwc.failed = [] ∧ n < 16 ∧ hottest ts [n] = some k) ∧
    (∃ (q : Int) (n c : Nat), 8 ≤ n) ∧
    (∃ (t : Nat) (s : State), halted s = false ∧ getF F.pwcTempLevel s = 2 ∧ s.pwc.cool2 = some t ∧ 10000000 ≤ s.now - t ∧ s.pwc.failed.length ≤ 8) ∧
    (∃ (t : Nat) (s : State), halted s = false ∧ getF F.pwcTempLevel s = 1 ∧ s.pwc.cool1 = some t ∧ 10000000 ≤ s.now - t) :=
  ⟨⟨2, { State.reset with pwc.held := false, pwc.inputOk := true }, by decide⟩,
   ⟨1, { State.reset with pwc.held := false }, by decide⟩,
   ⟨6, { State.reset with pwc.held := false }, by decide⟩,
   ⟨3, State.reset, by decide⟩,
   ⟨flagF (H.en .cry) true State.reset, by decide⟩,
   ⟨.cmp, 3, setF F.pwcCtrlAutoEn 1 <| setF (H.pwrAuto .cmp) 1 State.reset, by decide⟩,
   ⟨loadF F.pwcLimitCap 1 State.reset, by decide⟩,
   ⟨setF F.pwcStatHstate 1 State.reset, by decide⟩,
   ⟨1, 0, { State.reset with pwc.toState := some (1, 0) }, by decide⟩,
   ⟨State.reset, by decide⟩,
   ⟨setState .ftu 2 ({ State.reset with pwc.stopping := true }), by decide⟩,
   ⟨List.replicate 16 100, 0, { State.reset with now := 100000, pwc.held := false }, by decide⟩,
   ⟨List.replicate 16 100, 3, 0, { State.reset with now := 100000, pwc.held := false }, by decide⟩,
   ⟨5, 9, 0, by decide⟩,
   ⟨0, setF F.pwcTempLevel 2 { State.reset with now := 10000000, pwc.cool2 := some 0 }, by decide⟩,
   ⟨0, setF F.pwcTempLevel 1 { State.reset with now := 10000000, pwc.cool1 := some 0 }, by decide⟩⟩

/-- Hypotheses of FirmwareAndSettingsAreUpdated hold together. -/
theorem witness_FirmwareAndSettingsAreUpdated :
    (∃ (q tag id pcrc : Nat) (r : Bool) (data : List Byte) (s : State), halted s = false ∧ mgmtReady q tag 0x50 s = true ∧ planeDown .media s = false ∧ s.bld.fwSt = 0 ∧ s.bld.stage = none ∧ r = false) ∧
    (∃ (q tag id n pcrc : Nat) (r : Bool) (data : List Byte) (s : State), halted s = false ∧ mgmtReady q tag 0x50 s = true ∧ planeDown .media s = false ∧ s.bld.fwSt = 0 ∧ s.bld.stage = none ∧ n ≠ 0) ∧
    (∃ (q tag n : Nat) (t : FwStage) (data : List Byte) (s : State), halted s = false ∧ mgmtReady q tag 0x50 s = true ∧ planeDown .media s = false ∧ s.bld.fwSt < 3 ∧ s.bld.stage = some t ∧ n < pieceCount t ∧ data.length = pieceLen t n ∧ tget? t.pieces n = none) ∧
    (∃ (q tag : Nat) (t : FwStage) (s : State), halted s = false ∧ mgmtReady q tag 0x51 s = true ∧ s.bld.fwSt < 5 ∧ s.bld.stage = some t ∧ missing t = []) ∧
    (∃ (q tag id : Nat) (a b : Bool) (s : State), halted s = false ∧ mgmtReady q tag 0x51 s = true ∧ s.bld.fwSt < 5 ∧ s.bld.stage = none) ∧
    (∃ (q tag : Nat) (s : State), halted s = false ∧ mgmtReady q tag 0x51 s = true ∧ s.bld.fwSt ≤ 3) ∧
    (∃ (q tag : Nat) (s : State), halted s = false ∧ mgmtReady q tag 0x51 s = true ∧ 3 < s.bld.fwSt) ∧
    (∃ (s : State), halted s = false ∧ getF F.bldStatStage s = 2 ∧ afterWarm s = true ∧ s.bld.fwSt = 6) ∧
    (∃ (t : FwStage) (s : State), halted s = false ∧ getF F.bldStatStage s = 2 ∧ afterWarm s = true ∧ (s.bld.fwSt = 3 ∨ s.bld.fwSt = 4) ∧ s.bld.stage = some t) ∧
    (∃ (i : FwImage) (s : State), s.bld.fwSt = 3 ∧ i.kind = 2 ∧ passes 2 (slotImage 2 s) s = true) ∧
    (∃ (s : State), stagedKind s ≠ 0) ∧
    (∃ (s : State), halted s = false ∧ s.bld.fwSt = 5 ∧ inService s = true) ∧
    (∃ (w : Nat) (s : State), halted s = false ∧ s.bld.fwSt = 5 ∧ s.bld.wdogAt = some w ∧ w ≤ s.now) ∧
    (∃ (s : State), halted s = false ∧ getF (H.pwrState .bld) s ≠ 2 ∧ getF (H.state .bld) s ≠ 5 ∧ s.bld.fwSt = 5) ∧
    (∃ (k : Nat) (s : State), halted s = false ∧ getF (H.pwrState .bld) s ≠ 2 ∧ getF (H.state .bld) s ≠ 5 ∧ k ≠ 0x0FA1) ∧
    (∃ (q tag : Nat) (b : Settings) (s : State), halted s = false ∧ mgmtReady q tag 0x52 s = true ∧ s.bld.fwSt < 5 ∧ settingsWhole b = true ∧ b.setVer = s.bld.setVer ∧ b.items.all itemOk = true) ∧
    (∃ (b : Settings) (s : State), setGen s.bld.setA ≤ setGen s.bld.setB) :=
  ⟨⟨1, 7, 5, 0, false, [], { State.reset with mgmt.cmds := [{ q := 1, tag := 7, opcode := 0x50, fence := false, dataLen := 0, started := false, reject := none, unposted := false }] }, by decide⟩,
   ⟨1, 7, 5, 1, 0, false, [], { State.reset with mgmt.cmds := [{ q := 1, tag := 7, opcode := 0x50, fence := false, dataLen := 0, started := false, reject := none, unposted := false }] }, by decide⟩,
   ⟨1, 7, 0, { img := { kind := 2, keyId := 0, version := 1, peerMin := 0, peerMax := 9, counter := 1, setVer := 1, setMin := 1, id := 5, bytes := [], ok := true }, total := 4, pieces := [] }, [1, 2, 3, 4], { State.reset with mgmt.cmds := [{ q := 1, tag := 7, opcode := 0x50, fence := false, dataLen := 0, started := false, reject := none, unposted := false }], bld.stage := some { img := { kind := 2, keyId := 0, version := 1, peerMin := 0, peerMax := 9, counter := 1, setVer := 1, setMin := 1, id := 5, bytes := [], ok := true }, total := 4, pieces := [] }, bld.fwSt := 1 }, by decide⟩,
   ⟨1, 7, { img := { kind := 2, keyId := 0, version := 1, peerMin := 0, peerMax := 9, counter := 1, setVer := 1, setMin := 1, id := 5, bytes := [], ok := true }, total := 4, pieces := [(0, [1, 2, 3, 4])] }, { State.reset with mgmt.cmds := [{ q := 1, tag := 7, opcode := 0x51, fence := false, dataLen := 0, started := false, reject := none, unposted := false }], bld.stage := some { img := { kind := 2, keyId := 0, version := 1, peerMin := 0, peerMax := 9, counter := 1, setVer := 1, setMin := 1, id := 5, bytes := [], ok := true }, total := 4, pieces := [(0, [1, 2, 3, 4])] }, bld.fwSt := 2 }, by decide⟩,
   ⟨1, 7, 5, false, false, { State.reset with mgmt.cmds := [{ q := 1, tag := 7, opcode := 0x51, fence := false, dataLen := 0, started := false, reject := none, unposted := false }] }, by decide⟩,
   ⟨1, 7, { State.reset with mgmt.cmds := [{ q := 1, tag := 7, opcode := 0x51, fence := false, dataLen := 0, started := false, reject := none, unposted := false }] }, by decide⟩,
   ⟨1, 7, { State.reset with mgmt.cmds := [{ q := 1, tag := 7, opcode := 0x51, fence := false, dataLen := 0, started := false, reject := none, unposted := false }], bld.fwSt := 4 }, by decide⟩,
   ⟨setF F.pwcStatLastReset 2 <| setF F.bldStatStage 2 { State.reset with bld.fwSt := 6 }, by decide⟩,
   ⟨{ img := { kind := 2, keyId := 0, version := 1, peerMin := 0, peerMax := 9, counter := 1, setVer := 1, setMin := 1, id := 5, bytes := [], ok := true }, total := 4, pieces := [(0, [1, 2, 3, 4])] }, setF F.pwcStatLastReset 2 <| setF F.bldStatStage 2 { State.reset with bld.fwSt := 3, bld.stage := some { img := { kind := 2, keyId := 0, version := 1, peerMin := 0, peerMax := 9, counter := 1, setVer := 1, setMin := 1, id := 5, bytes := [], ok := true }, total := 4, pieces := [(0, [1, 2, 3, 4])] } }, by decide⟩,
   ⟨{ kind := 2, keyId := 0, version := 1, peerMin := 0, peerMax := 9, counter := 1, setVer := 1, setMin := 1, id := 5, bytes := [], ok := true }, { State.reset with bld.fwSt := 3 }, by decide⟩,
   ⟨{ State.reset with bld.stage := some { img := { kind := 2, keyId := 0, version := 1, peerMin := 0, peerMax := 9, counter := 1, setVer := 1, setMin := 1, id := 5, bytes := [], ok := true }, total := 4, pieces := [(0, [1, 2, 3, 4])] } }, by decide⟩,
   ⟨setF F.bldStatStage 9 { State.reset with bld.fwSt := 5, bld.stage := some { img := { kind := 2, keyId := 0, version := 1, peerMin := 0, peerMax := 9, counter := 1, setVer := 1, setMin := 1, id := 5, bytes := [], ok := true }, total := 4, pieces := [(0, [1, 2, 3, 4])] } }, by decide⟩,
   ⟨0, { State.reset with bld.fwSt := 5, bld.wdogAt := some 0 }, by decide⟩,
   ⟨{ State.reset with bld.fwSt := 5 }, by decide⟩,
   ⟨1, State.reset, by decide⟩,
   ⟨1, 7, { magic := 0x54534B48, setVer := State.reset.bld.setVer, gen := 0, length := 64, items := [], crcOk := true }, { State.reset with mgmt.cmds := [{ q := 1, tag := 7, opcode := 0x52, fence := false, dataLen := 0, started := false, reject := none, unposted := false }] }, by decide⟩,
   ⟨{ magic := 0x54534B48, setVer := 1, gen := 0, length := 64, items := [], crcOk := true }, State.reset, by decide⟩⟩

/-- Hypotheses of StepRunsTheCommandInFront hold together. -/
theorem witness_StepRunsTheCommandInFront :
    ∃ (s : State), s.pending = [] :=
  ⟨State.reset, by decide⟩

/-- Hypotheses of GraveStateIsLeftOnlyByPowerCycling hold together. -/
theorem witness_GraveStateIsLeftOnlyByPowerCycling :
    (∃ (s : State), graved s = true ∧ s.pending.head? ≠ some .powerCycle) ∧
    (∃ (s : State), s.pending.head? = some .powerCycle) :=
  ⟨⟨{ State.reset with fco.grave := some { cause := 1, source := 0, incident := 1, time := 0 } }, by decide⟩,
   ⟨{ State.reset with pending := [.powerCycle] }, by decide⟩⟩

end Sys2Proof.Tests
end

section
/-! SUPPORT. A command outside a halt, shared by every command's theorem. -/

namespace Sys2Proof.Machine

/-- A command outside a halt answers the state its meaning gives. -/
theorem live_of_not_halted {s : State} (hs : halted s = false) (t : State) : live s t = .next t := by
  simp [live, hs]

end Sys2Proof.Machine
end

section
/-! The I/O commands on a namespace owned here (R22–R30, R205–R215). -/

namespace Sys2Proof.Machine

/-- A check that `a` asks for and `b` passes does not stop the command. -/
theorem and_not_of_not_or {a b : Bool} (h : (!a || b) = true) : (a && !b) = false := by
  cases a
  · rfl
  · simpa using h

/-- An I/O command that no check stops runs its own part on its namespace. -/
theorem ioRun_of_ioClear {h opc : Nat} {n : Need} {c : Cmd} {x : Namespace} {s : State}
    (hc : ioClear h opc n c x s = true) (f : Cmd → Namespace → State → State) : ioRun h opc n f s = f c x s := by
  simp only [ioClear, Bool.and_eq_true, beq_iff_eq, Bool.not_eq_true', Option.isNone_iff_eq_none, decide_eq_true_eq,
    and_assoc] at hc
  obtain ⟨hready, hsan, hfail, hns, hdel, hten, hfmt, hgrp, hown, hlen, hrange, hresv, hprot, hkey, hcap⟩ := hc
  have hrange' : (n.range && decide (x.nsze < c.sqe.slba + c.sqe.nlb)) = false := by
    simpa only [← decide_not, Nat.not_le] using and_not_of_not_or hrange
  unfold ioRun
  simp only [hready, hsan, hfail, hns, hdel, hten, hfmt, hgrp, hown, cmdChecks, Nat.not_lt.mpr hlen, hrange', hresv, hprot,
    and_not_of_not_or hkey, hcap, Option.any_none, Option.isSome_none, Bool.or_false, Bool.not_true, Bool.false_eq_true,
    decide_false, if_false]

theorem exec_write_clear {h : Nat} {c : Cmd} {x : Namespace} {d : List Byte} {s : State} (hs : halted s = false)
    (hc : ioClear h 0x01 { range := true, resv := some true, cap := true, key := true } c x s = true)
    (hbufs : bufsOk c = true) (hlen : c.sqe.len = byteLen c s) (hd : d.length = c.sqe.len)
    (hfree : (unitsIn (byteStart c s) (byteLen c s)).length ≤ freeSlots s)
    (hland : landingIn x.nsid (unitsIn (byteStart c s) (byteLen c s)) s = false)
    (hcut : cutHeld x.nsid (unitsIn (byteStart c s) (byteLen c s)).contains s = false) :
    exec (.write h d) s = .next (settle h (fetchData c (takeRange c x (byteStart c s) d
      (c.sqe.fua || c.ctl.any fun k => !(ctlOf k s).wce) (syncBegin h x.nsid (begin_ h s))))) := by
  change execWrite h d s = _
  rw [execWrite, live_of_not_halted hs, ioRun_of_ioClear hc]
  simp [hbufs, ← hlen, hd, Nat.not_lt.mpr (hlen ▸ hfree), hlen ▸ hland, hlen ▸ hcut]

theorem exec_read_clear {h : Nat} {c : Cmd} {x : Namespace} {s : State} (hs : halted s = false)
    (hc : ioClear h 0x02 { range := true, resv := some false, cap := false, key := false } c x s = true) :
    exec (.read h) s = .next (settle h (startReads c (begin_ h s))) := by
  change execRead h s = _
  rw [execRead, live_of_not_halted hs, ioRun_of_ioClear hc]

theorem exec_compare_clear {h : Nat} {c : Cmd} {x : Namespace} {d : List Byte} {s : State} (hs : halted s = false)
    (hc : ioClear h 0x05 { range := true, resv := some false, cap := false, key := false } c x s = true)
    (hbufs : bufsOk c = true) (hlen : c.sqe.len = byteLen c s) (hd : d.length = c.sqe.len) :
    exec (.compare h d) s = .next (settle h (startReads { c with cmp := d } (fetchData { c with cmp := d }
      (modCmd h (fun c => { c with cmp := d }) (begin_ h s))))) := by
  change execCompare h d s = _
  rw [execCompare, live_of_not_halted hs, ioRun_of_ioClear hc]
  simp [hbufs, ← hlen, hd]

theorem exec_writeZeroes_clear {h : Nat} {c : Cmd} {x : Namespace} {s : State} (hs : halted s = false)
    (hc : ioClear h 0x08 { range := true, resv := some true, cap := false, key := true } c x s = true)
    (hadmit : s.ftu.admitStop = false) (hblock : s.par.blocked.contains x.layout = false) :
    exec (.writeZeroes h) s = .next (unmapCmd c x [(byteStart c s, byteLen c s)] s) := by
  change execWriteZeroes h s = _
  rw [execWriteZeroes, live_of_not_halted hs, ioRun_of_ioClear hc, hadmit, hblock]
  rfl

theorem exec_datasetManagement_clear {h : Nat} {c : Cmd} {x : Namespace} {s : State} (hs : halted s = false)
    (hc : ioClear h 0x09 { range := false, resv := some true, cap := false, key := false } c x s = true)
    (hranges : c.sqe.ranges.length ≤ 256) (hdeac : c.sqe.deac = false) :
    exec (.datasetManagement h) s = .next (endCmd h .success s) := by
  change execDatasetManagement h s = _
  rw [execDatasetManagement, live_of_not_halted hs, ioRun_of_ioClear hc, if_neg (Nat.not_lt.mpr hranges), hdeac]
  rfl

theorem exec_verify_clear {h : Nat} {c : Cmd} {x : Namespace} {s : State} (hs : halted s = false)
    (hc : ioClear h 0x0C { range := true, resv := some false, cap := false, key := false } c x s = true) :
    exec (.verify h) s = .next (settle h (startReads c (begin_ h s))) := by
  change execVerify h s = _
  rw [execVerify, live_of_not_halted hs, ioRun_of_ioClear hc]

theorem ioReady_of_ioClear {h opc : Nat} {n : Need} {c : Cmd} {x : Namespace} {s : State}
    (hc : ioClear h opc n c x s = true) : ioReady h opc s = some c := by
  simp only [ioClear, Bool.and_eq_true, beq_iff_eq] at hc
  simp only [hc]

theorem exec_flush_clear {h : Nat} {c : Cmd} {x : Namespace} {s : State} (hs : halted s = false)
    (hc : ioClear h 0x00 { range := false, resv := some true, cap := false, key := false } c x s = true)
    (hone : c.sqe.nsid ≠ 0xFFFFFFFF) :
    exec (.flush h) s = .next (durCheck (syncSend h (flushNs c x.nsid (syncBegin h x.nsid (begin_ h s))))) := by
  change execFlush h s = _
  rw [execFlush, live_of_not_halted hs, ioReady_of_ioClear hc]
  simp only [if_neg hone, ioRun_of_ioClear hc]

/-- Settles O22: each command passes its checks (`ioRun_of_ioClear`) and then does its own part. -/
theorem ioCommandsRunOnTheirNamespace : Obligations.IoCommandsRunOnTheirNamespace :=
  ⟨fun _ _ _ _ _ => exec_write_clear, fun _ _ _ _ => exec_read_clear, fun _ _ _ _ _ => exec_compare_clear,
   fun _ _ _ _ => exec_writeZeroes_clear, fun _ _ _ _ => exec_datasetManagement_clear,
   fun _ _ _ _ => exec_verify_clear, fun _ _ _ _ => exec_flush_clear⟩

end Sys2Proof.Machine
end

section
/-! Slots of the write buffer and the start of destage (R22, R251–R263). -/

namespace Sys2Proof.Machine

/-! Slots. -/

theorem tget?_tmod_self {α : Type} (t : Tbl α) (k : Nat) (f : α → α) : tget? (tmod t k f) k = (tget? t k).map f := by
  induction t with
  | nil => rfl
  | cons p r ih =>
    obtain ⟨j, v⟩ := p
    simp only [tmod, List.map_cons] at ih ⊢
    by_cases hj : j = k
    · simp [hj, tget?]
    · simpa [hj, tget?] using ih

@[simp] theorem modSlot_wb (n : Nat) (f : Slot → Slot) (s : State) :
    (modSlot n f s).wb = { s.wb with own := tmod s.wb.own n f } := by
  unfold modSlot
  dsimp only
  split <;> simp

/-- The presence filter's counters are all that `filterAdd` writes (R256). -/
theorem filterAdd_own (nsid unit : Nat) (s : State) : (filterAdd nsid unit s).wb.own = s.wb.own :=
  forEach_keep (·.wb.own) _ _ s fun _ _ => rfl

/-- A landed and acknowledged slot whose unit has no former slot is Filled at this instant (R251). -/
theorem fillSlot_filled {n : Nat} {x : Slot} {s : State} (hx : tget? s.wb.own n = some x) (hst : x.st = .landing)
    (hland : x.landed = true) (hack : x.acked = true) (hrep : x.replaced = false)
    (hno : s.wb.own.find? (fun p => p.1 != n && indexed x.nsid x.unit p) = none) :
    tget? (fillSlot n s).wb.own n = some { x with st := .filled, shadow := false, acked := true, filledAt := s.now } := by
  unfold fillSlot
  simp [hx, hst, hland, hack, hrep, hno, filterAdd_own, tget?_tmod_self]

theorem exec_mirrorAck_landed {n : Nat} {x : Slot} {s : State} (hs : halted s = false) (hx : tget? s.wb.own n = some x)
    (hst : x.st = .landing) (hland : x.landed = true) (hack : x.acked = false) :
    exec (.mirrorAck n) s = .next (settle x.cmd (modCmd x.cmd (fun c => { c with waitAck := c.waitAck.filter (· != n) })
      (fillSlot n (modSlot n (fun y => { y with acked := true }) s)))) := by
  change execMirrorAck n s = _
  rw [execMirrorAck, live_of_not_halted hs, hx]
  simp [hst, hland, hack]

theorem tget?_freeSlot_self (n : Nat) (s : State) : tget? (freeSlot n s).wb.own n = none := by
  have herase : (mirrorOut (.desc n) { s with wb.own := terase s.wb.own n, hqe.wbHold := false }).wb.own =
      terase s.wb.own n := by simp
  unfold freeSlot
  dsimp only
  split <;> simp only [herase, tget?_terase_self]

theorem exec_slotReleaseAck_releasing {n : Nat} {x : Slot} {s : State} (hs : halted s = false)
    (hx : tget? s.wb.own n = some x) (hst : x.st = .releasing) : exec (.slotReleaseAck n) s = .next (freeSlot n s) := by
  change execSlotReleaseAck n s = _
  rw [execSlotReleaseAck, live_of_not_halted hs, hx]
  simp only [if_pos hst]

/-! Destage. -/

theorem exec_destageStart_whole {n : Nat} {x : Slot} {s : State} (hs : halted s = false)
    (hx : tget? s.wb.own n = some x) (hrun : running .ftu s = true) (htxn : s.txn.holding = none)
    (hready : ready (n, x) = true) (hdue : due x s = true) (hfirst : firstInLine x s = true)
    (hroom : s.wb.units.length < 8192) (hmask : x.mask = 0xFF) :
    exec (.destageStart n) s = .next { modSlot n (fun y => { y with st := .destaging }) s with
      wb.units := s.wb.units ++ [slotUnit n x .fingerprint s], wb.nextU := s.wb.nextU + 1 } := by
  change execDestageStart n s = _
  rw [execDestageStart, live_of_not_halted hs, hx]
  simp [hrun, htxn, hready, hdue, hfirst, hroom, hmask, slotUnit]

theorem exec_fingerprintDone_running {u : Nat} {d : DestUnit} {s : State} (hs : halted s = false)
    (hu : unitOf u s = some d) (hst : d.stage = .fingerprint) (hrun : running .dge s = true)
    (hen : getF F.dgeCtrlUnitEn s = 1) (hlane : (List.range 16).any (fun l => laneUsable .dge l s) = true) :
    let t := count .dge 0x01 1 (wakeLane .dge (List.range 16) s)
    exec (.fingerprintDone u) s = .next (dgeRun (if allZero d.data
      then count .dge 0x02 1 (modUnit u (fun d => { d with zero := true, stage := .clause }) t)
      else modUnit u (fun e => { e with
        fp := ((nsOf d.nsid t).bind fun x => domKey x.domain t).elim [] fun k => Config.hmac256 k d.data,
        stage := .search }) t)) := by
  change execFingerprintDone u s = _
  rw [execFingerprintDone, live_of_not_halted hs, hu]
  simp only [hst, hrun, onF, hen, hlane]
  cases allZero d.data <;> rfl

theorem exec_filterRebuild_few {s : State} (hs : halted s = false) (hsat : filterSat s ≤ 1024) :
    exec .filterRebuild s = .next s := by
  change execFilterRebuild s = _
  rw [execFilterRebuild, live_of_not_halted hs, if_pos hsat]

theorem exec_filterRebuild_many {s : State} (hs : halted s = false) (hsat : 1024 < filterSat s) :
    exec .filterRebuild s = .next (forEach (s.wb.own.filter fun p => indexed p.2.nsid p.2.unit p && readable p.2)
      (fun p t => filterAdd p.2.nsid p.2.unit t) { s with wb.filter := [] }) := by
  change execFilterRebuild s = _
  rw [execFilterRebuild, live_of_not_halted hs, if_neg (Nat.not_le.mpr hsat)]

/-- Settles O26: `fillSlot_filled` says what a slot becomes, each other clause is one command's. -/
theorem slotsFillAndEnterDestage : Obligations.SlotsFillAndEnterDestage :=
  ⟨fun _ _ _ => exec_mirrorAck_landed, fun _ _ _ => fillSlot_filled,
   fun _ _ _ hs hx hst => ⟨exec_slotReleaseAck_releasing hs hx hst, tget?_freeSlot_self _ _⟩,
   fun _ _ _ => exec_destageStart_whole, fun _ _ _ => exec_fingerprintDone_running,
   fun _ => exec_filterRebuild_few, fun _ => exec_filterRebuild_many⟩

end Sys2Proof.Machine
end

section
/-! The fingerprint index: decisions, tier 1, scrub, banks, refill and merges (R264–R291). -/

namespace Sys2Proof.Machine

/-! Decision and tier 1. -/

theorem exec_indexDecision_domOff {u n dom : Nat} {d : DestUnit} {k : List Byte} {s : State} (hs : halted s = false)
    (hu : unitOf u s = some d) (hst : d.stage = .search) (hsrc : d.src = .gc n false)
    (hdom : dom = (nsOf d.nsid s).elim 0 (·.domain)) (hkey : domKey dom s = some k) (hoff : domOn dom s = false) :
    exec (.indexDecision u) s = .next (count .fiu 0x08 1 (modUnit u (fun d => { d with stage := .compress }) s)) := by
  change execIndexDecision u s = _
  rw [execIndexDecision, live_of_not_halted hs, hu]
  simp [hst, hsrc, ← hdom, hkey, searchable, hoff, decideUnique]

theorem exec_tier1InsertDone_room {i k : Nat} {e : TagEntry} {s : State} (hs : halted s = false)
    (hins : s.fiu.ins.find? (fun p => p.2.fptIdx == i) = some (k, e)) (hup : bankUp (k % 16) s = true)
    (hfpt : (tget? s.fiu.fpt i).isSome = true) (hroom : (segOf k s).length < 128) :
    exec (.tier1InsertDone i) s = .next (count .fiu 0x06 1 (modFpt i (fun e => { e with indexed := true })
      (putSeg k (sortIn e (segOf k s)) { s with fiu.ins := s.fiu.ins.filter fun p => p.2.fptIdx != i }))) := by
  have hsome : (tget? s.fiu.fpt i).isNone = false := by simpa using hfpt
  have hseg : ∀ l, segOf k { s with fiu.ins := l } = segOf k s := fun _ => rfl
  change execTier1InsertDone i s = _
  rw [execTier1InsertDone, live_of_not_halted hs, hins]
  simp only [hup, hsome, hseg, if_neg (Nat.not_le.mpr hroom), Bool.not_true, Bool.false_eq_true, if_false]

theorem exec_tier1RemovalDone {i : Nat} {e : FptEntry} {s : State} (hs : halted s = false)
    (hrem : s.fiu.rem.contains i = true) (he : tget? s.fiu.fpt i = some e) :
    let t := putSeg (fpSeg e.fp) ((segOf (fpSeg e.fp) s).filter fun x => x.fptIdx != i)
      { s with fiu.rem := s.fiu.rem.filter (· != i) }
    exec (.tier1RemovalDone i) s = .next (if e.st = .dead then { t with fiu.fpt := terase s.fiu.fpt i }
      else modFpt i (fun e => { e with indexed := false }) t) := by
  change execTier1RemovalDone i s = _
  rw [execTier1RemovalDone, live_of_not_halted hs, hrem]
  simp only [he]
  rfl

/-! Scrub and banks. -/

theorem exec_scrubSegment_agree {k : Nat} {s : State} (hs : halted s = false) (hrun : running .fiu s = true)
    (hen : getF F.fiuScrubScrubEn s = 1) (hk : k = s.fiu.scrubSeg) (hins : s.fiu.ins = []) (hrem : s.fiu.rem = [])
    (hagree : segOf k s = tget s.fiu.dcopy k []) : exec (.scrubSegment k false false) s = .next (scrubNext s) := by
  change execScrubSegment k false false s = _
  rw [execScrubSegment, live_of_not_halted hs]
  simp [hrun, onF, hen, ← hk, hins, hrem, hagree]

theorem exec_scrubSegment_sramBad {k : Nat} {d : Bool} {s : State} (hs : halted s = false) (hrun : running .fiu s = true)
    (hen : getF F.fiuScrubScrubEn s = 1) (hk : k = s.fiu.scrubSeg) (hins : s.fiu.ins = []) (hrem : s.fiu.rem = [])
    (hup : bankUp (k % 16) s = true) :
    exec (.scrubSegment k true d) s = .next (raise .fiu E.fiuBankParity (k % 16) (scrubNext s)) := by
  change execScrubSegment k true d s = _
  rw [execScrubSegment, live_of_not_halted hs]
  simp [hrun, onF, hen, ← hk, hins, hrem, hup]

/-- A window vector changes no register field, so an interrupt leaves every field but its own INT_STAT word (R57, R63). -/
theorem getF_setInt_ne {b : Block} {n : Nat} {f : Fld} (s : State) (h : fkey f ≠ fkey (H.intStat b)) :
    getF f (setInt b n s) = getF f s := by
  unfold setInt withWin
  dsimp only
  split <;> simp only [getF_emit, getF_setF_ne _ _ h]

theorem bit_bset_self (w n : Nat) : bit (bset w n) n = true := by
  simp [bit, bset]

theorem bit_bclr_self (w n : Nat) : bit (bclr w n) n = false := by
  unfold bit bclr
  split
  · next hset =>
    have hflip := Nat.testBit_two_pow_add_eq (w - 2 ^ n) n
    rw [Nat.add_sub_cancel' (Nat.ge_two_pow_of_testBit hset), hset] at hflip
    simpa using hflip.symm
  · next hclear => simpa using hclear

theorem bit_ftrunc {f : Fld} {n : Nat} (v : Nat) (h : n ≤ f.hi - f.lo) : bit (ftrunc f v) n = bit v n := by
  simp [bit, ftrunc, Nat.testBit_mod_two_pow, Nat.lt_succ_of_le h]

/-- The bank holds the DRAM copy's entries and answers searches, before its interrupt (R274). -/
def reloaded (b : Nat) (s : State) : State :=
  setF F.fiuBankStatReady (bset (getF F.fiuBankStatReady s) b)
    (setF F.fiuBankStatLoading (bclr (getF F.fiuBankStatLoading s) b)
      { s with fiu.tier1 :=
          tmerge (s.fiu.tier1.filter fun p => !(p.1 % 16 == b)) (s.fiu.dcopy.filter fun p => p.1 % 16 == b) })

theorem exec_bankReloadDone_loading {b : Nat} {s : State} (hs : halted s = false) (hb : b < 16)
    (hload : bit (getF F.fiuBankStatLoading s) b = true) (hlane : laneReady .fiu b s = true) :
    exec (.bankReloadDone b) s = .next (setInt .fiu I.fiuBankReady (reloaded b s)) := by
  have hready : ∀ (v : Nat) (u : State),
      getF F.fiuBankStatReady (setF F.fiuBankStatLoading v u) = getF F.fiuBankStatReady u :=
    fun v u => getF_setF_ne v u (by decide)
  change execBankReloadDone b s = _
  rw [execBankReloadDone, live_of_not_halted hs]
  simp only [hload, hlane, hready, decide_eq_false (Nat.not_le.mpr hb), Bool.not_true, Bool.or_false, Bool.false_eq_true,
    if_false]
  rfl

theorem bit_ready_reloaded {b : Nat} (s : State) (hb : b < 16) : bit (getF F.fiuBankStatReady (reloaded b s)) b = true := by
  rw [reloaded, getF_setF_self _ _ rfl, bit_ftrunc _ (Nat.le_of_lt_succ hb), bit_bset_self]

theorem bit_loading_reloaded {b : Nat} (s : State) (hb : b < 16) : bit (getF F.fiuBankStatLoading (reloaded b s)) b = false := by
  rw [reloaded, getF_setF_ne _ _ (by decide), getF_setF_self _ _ rfl, bit_ftrunc _ (Nat.le_of_lt_succ hb), bit_bclr_self]

theorem reloaded_tier1 (b : Nat) (s : State) : (reloaded b s).fiu.tier1 =
    tmerge (s.fiu.tier1.filter fun p => !(p.1 % 16 == b)) (s.fiu.dcopy.filter fun p => p.1 % 16 == b) := by
  simp [reloaded]

/-- BANK_READY's interrupt leaves what the reload wrote (R274). -/
theorem exec_bankReloadDone_fields {b : Nat} {s : State} (hs : halted s = false) (hb : b < 16)
    (hload : bit (getF F.fiuBankStatLoading s) b = true) (hlane : laneReady .fiu b s = true) :
    ∃ t, exec (.bankReloadDone b) s = .next t ∧ bit (getF F.fiuBankStatReady t) b = true ∧
      bit (getF F.fiuBankStatLoading t) b = false ∧
      t.fiu.tier1 = tmerge (s.fiu.tier1.filter fun p => !(p.1 % 16 == b)) (s.fiu.dcopy.filter fun p => p.1 % 16 == b) := by
  refine ⟨_, exec_bankReloadDone_loading hs hb hload hlane, ?_, ?_, ?_⟩
  · rw [getF_setInt_ne _ (by decide), bit_ready_reloaded s hb]
  · rw [getF_setInt_ne _ (by decide), bit_loading_reloaded s hb]
  · rw [← reloaded_tier1 b s]
    simp

theorem exec_bankPower {m : Nat} {s : State} (hs : halted s = false) :
    exec (.bankPower m) s = .next (regWrite .fiu (fun s => forEach (List.range 16)
      (fun b t => if bit m b && !bit (getF F.fiuBankEnBankOn s) b then bankReset b t
                  else if !bit m b && bit (getF F.fiuBankEnBankOn s) b then bankOff b t else t) (setF F.fiuBankEnBankOn m s)) s) :=
  live_of_not_halted hs _

/-! Refill and merges. -/

theorem exec_fptRefill_running {n : Nat} {s : State} (hs : halted s = false) (href : s.fiu.refill = some n)
    (hrun : running .fiu s = true) :
    let t := forEach s.fiu.log refillOne s
    exec .fptRefill s = .next (setInt .fiu I.fiuRefillDone (setF F.fptRefillActive 0 { t with fiu.refill := none })) := by
  change execFptRefill s = _
  rw [execFptRefill, live_of_not_halted hs, href, hrun]
  rfl

theorem exec_bgdMerge_equal {n i k old : Nat} {s : State} (hs : halted s = false) (hold : old = mapGet 0 n i s)
    (hrun : running .fiu s = true) (hbg : bgOk s = true) (hen : getF F.fiuCtrlBgdEn s = 1) (hwin : winOpen 2 s = true)
    (hband : uBand old ≠ 0) (hne : old ≠ k) (hroom : jrnlRoom s = true) (hsut : tget? s.fiu.sut old = none)
    (hback : backOf old s = some (n, i)) (hlive : liveUnit k s = true) (hlog : (logOf old s).isSome = true)
    (heq : logOf old s = logOf k s) :
    let t := clause (mkClause cMerge 0 n i old k) s
    exec (.bgdMerge n i k) s = .next (if mapGet 0 n i t = k then count .fiu 0x09 1 t else t) := by
  have hsome : (logOf k s).isNone = false := by simpa [← heq] using hlog
  change execBgdMerge n i k s = _
  rw [execBgdMerge, live_of_not_halted hs]
  simp [← hold, hrun, hbg, onF, hen, hwin, hband, hne, hroom, hsut, hback, hlive, heq, hsome]

/-- Settles O27: one command a clause; `reloaded` names the state that a bank's reload leaves. -/
theorem indexDecidesAndKeepsItsTiers : Obligations.IndexDecidesAndKeepsItsTiers :=
  ⟨fun _ _ _ _ _ _ => exec_indexDecision_domOff, fun _ _ _ _ => exec_tier1InsertDone_room,
   fun _ _ _ => exec_tier1RemovalDone, fun _ _ => exec_scrubSegment_agree, fun _ _ _ => exec_scrubSegment_sramBad,
   fun _ _ => exec_bankReloadDone_fields, fun _ _ => exec_bankPower, fun _ _ => exec_fptRefill_running,
   fun _ _ _ _ _ => exec_bgdMerge_equal⟩

end Sys2Proof.Machine
end

section
/-! Stored units: compression, encryption, clauses, decryption, expansion and bulk jobs (R26, R27, R299–R338). -/

namespace Sys2Proof.Machine

/-! Compression and groups. -/

theorem exec_compressDone_off {u : Nat} {d : DestUnit} {x : Namespace} {s : State} (hs : halted s = false)
    (hu : unitOf u s = some d) (hst : d.stage = .compress) (hrun : running .cmp s = true)
    (hns : nsOf d.nsid s = some x) (hmode : x.cmpMode = 0) :
    exec (.compressDone u) s = .next (storeSingle u 0 0 (modUnit u (fun d => { d with
      gen := x.attrGen, cls := x.layout, key := if d.key = 0 then x.key else d.key }) s)) := by
  change execCompressDone u s = _
  rw [execCompressDone, live_of_not_halted hs, hu]
  simp [hst, hrun, hns, hmode]

theorem exec_groupWaitExpiry_running {g : Nat} {s : State} (hs : halted s = false) (hrun : running .cmp s = true) :
    exec (.groupWaitExpiry g) s = .next (closeGroup g s) := by
  change execGroupWaitExpiry g s = _
  rw [execGroupWaitExpiry, live_of_not_halted hs, if_pos hrun]

/-! Encryption. -/

theorem modAll_congr {α : Type} {p : α → Bool} {f g : α → α} (h : ∀ x, p x = true → f x = g x) (l : List α) :
    modAll p f l = modAll p g l :=
  List.map_congr_left fun x _ => ite_congr rfl (h x) fun _ => rfl

/-- Waking a lane counts in PWC's page and takes the lane off the gated list; the pipeline and the store counter stay. -/
theorem wakeLane_frame (b : Block) (ls : List Nat) (s : State) :
    (wakeLane b ls s).cmp = s.cmp ∧ (wakeLane b ls s).wb = s.wb := by
  unfold wakeLane
  split
  · exact ⟨rfl, rfl⟩
  · split <;> simp

theorem exec_encryptDone_lone {u : Nat} {d : DestUnit} {k : List Byte} {s : State} (hs : halted s = false)
    (hu : unitOf u s = some d) (hst : d.stage = .encrypt) (hgrp : d.grp = none) (hbody : d.body ≠ [])
    (hrun : running .cry s = true) (hen : getF F.cryCtrlXtsEn s = 1)
    (hlane : (List.range 16).any (fun l => laneUsable .cry l s) = true) (hkey : dataKey d.key s = some k) :
    let w := s.cmp.storeCtr % 2 ^ 63 + s.pins.headSel % 2 * 2 ^ 63
    let b := sealUnit d.mode 1 d.key k w d.body d.data
    let t := count .cry 0x01 1 { wakeLane .cry (List.range 16) s with cmp.storeCtr := (s.cmp.storeCtr + 1) % 2 ^ 63 }
    exec (.encryptDone u) s = .next (packAll { t with
      wb.units := modAll (fun e => e.id == u) (fun e => { e with stage := .pack, body := b }) s.wb.units }) := by
  obtain ⟨hcmp, hwb⟩ := wakeLane_frame .cry (List.range 16) s
  have hseal : ∀ b l,
      modAll (fun e : DestUnit => e.id == u) (fun e => { e with stage := .pack, body := if e.id = u then b else [] }) l =
        modAll (fun e => e.id == u) (fun e => { e with stage := .pack, body := b }) l :=
    fun b l => modAll_congr (fun e he => by rw [if_pos (beq_iff_eq.mp he)]) l
  change execEncryptDone u s = _
  rw [execEncryptDone, live_of_not_halted hs, hu]
  simp [hst, hgrp, hbody, hrun, onF, hen, hlane, hkey, hcmp, hwb, plainOf, hseal, Nat.mul_comm]

/-! Clauses. -/

theorem exec_clauseApply_zero {u n : Nat} {d : DestUnit} {s : State} (hs : halted s = false) (hu : unitOf u s = some d)
    (hsrc : d.src = .slot n) (hst : d.stage = .clause) (hrun : running .ftu s = true) (hen : getF F.ftuCtrlMapEn s = 1)
    (hzero : d.zero = true) (hdup : d.dup = none) (hsup : superseded d n s = false) (hroom : jrnlRoom s = true)
    (hmca : s.ftu.csnext ≤ mcaLow s + 4096) :
    exec (.clauseApply u) s =
      .next (durCheck (releaseAfter n s.ftu.csnext (destaged u 0x03 (unmapRun d.nsid d.unit 1 d.seq s)))) := by
  change execClauseApply u s = _
  rw [execClauseApply, live_of_not_halted hs, hu]
  simp [hsrc, hst, hrun, onF, hen, hzero, hdup, hsup, hroom, Nat.not_lt.mpr hmca]

theorem exec_clauseApply_unique {u n : Nat} {d : DestUnit} {s : State} (hs : halted s = false) (hu : unitOf u s = some d)
    (hsrc : d.src = .slot n) (hst : d.stage = .clause) (hrun : running .ftu s = true) (hen : getF F.ftuCtrlMapEn s = 1)
    (hzero : d.zero = false) (hdup : d.dup = none) (hacc : unitAccepted d.uaddr s = true)
    (hsup : superseded d n s = false) (hroom : jrnlRoom s = true) (hmca : s.ftu.csnext ≤ mcaLow s + 4096) :
    exec (.clauseApply u) s = .next (durCheck (releaseAfter n s.ftu.csnext (dropUnit u (count .stg 0x01 1
      (goLive d (clause (mkClause cMapSet 0 d.nsid d.unit d.uaddr d.seq) s)))))) := by
  change execClauseApply u s = _
  rw [execClauseApply, live_of_not_halted hs, hu]
  simp [hsrc, hst, hrun, onF, hen, hzero, hdup, hacc, hsup, hroom, Nat.not_lt.mpr hmca]

/-! Decryption and expansion. -/

theorem exec_decryptDone_badHeader {r : Nat} {b : List Byte} {x : UnitRead} {s : State} (hs : halted s = false)
    (hr : uRead r s = some x) (hst : x.stage = .decrypt) (hbody : x.body = []) (hrun : running .cry s = true)
    (hen : getF F.cryCtrlXtsEn s = 1) (hlane : (List.range 16).any (fun l => laneUsable .cry l s) = true)
    (hlen : b.length = uLen x.uaddr * 16) (hhead : headerOk b = false) :
    exec (.decryptDone r b) s = .next (readReject x (note .cmp E.cmpUnitFormat 0xFF s)) := by
  change execDecryptDone r b s = _
  rw [execDecryptDone, live_of_not_halted hs, hr]
  simp only [hst, hbody, hrun, onF, hen, hlane, hlen, hhead, List.isEmpty_nil, if_true]
  simp

theorem exec_decryptDone_noKey {r h : Nat} {b : List Byte} {x : UnitRead} {s : State} (hs : halted s = false)
    (hr : uRead r s = some x) (hst : x.stage = .decrypt) (hfor : x.for_ = .host h) (hbody : x.body = [])
    (hrun : running .cry s = true) (hen : getF F.cryCtrlXtsEn s = 1)
    (hlane : (List.range 16).any (fun l => laneUsable .cry l s) = true)
    (hlen : b.length = uLen x.uaddr * 16) (hhead : headerOk b = true) (hkey : dataKey (hdKey b) s = none) :
    exec (.decryptDone r b) s = .next (readFail x (note .cry E.cryKeyMissing 0xFF s)) := by
  change execDecryptDone r b s = _
  rw [execDecryptDone, live_of_not_halted hs, hr]
  simp only [hst, hfor, hbody, hrun, onF, hen, hlane, hlen, hhead, hkey, List.isEmpty_nil, if_true]
  simp

theorem exec_expandDone_running {r : Nat} {x : UnitRead} {s : State} (hs : halted s = false) (hr : uRead r s = some x)
    (hst : x.stage = .expand) (hrun : running .cmp s = true) (hen : getF F.cmpCtrlExpEn s = 1)
    (hlane : (List.range 32).any (fun l => laneUsable .cmp (0x80 + l) s) = true) :
    let t := count .cmp 0x06 1 (wakeLane .cmp ((List.range 32).map (0x80 + ·)) s)
    exec (.expandDone r) s = .next (match expand (hdMode x.body) (hdMembers x.body * 4096) (payloadOf x.body) with
      | .streamErr => readReject x (note .cmp E.cmpStreamErr 0xFF t)
      | .overrun => readReject x (note .cmp E.cmpExpandOverrun 0xFF t)
      | .short => readReject x (note .cmp E.cmpExpandShort 0xFF t)
      | .ok o => if crc32c o = plainCrc x.body then readPlain x o t else readReject x (note .cmp E.cmpCrcMismatch 0xFF t)) := by
  change execExpandDone r s = _
  rw [execExpandDone, live_of_not_halted hs, hr]
  simp only [hst, hrun, onF, hen, hlane]
  cases expand (hdMode x.body) (hdMembers x.body * 4096) (payloadOf x.body) with
  | ok o => by_cases hcrc : crc32c o = plainCrc x.body <;> simp [hcrc]
  | _ => rfl

/-! Bulk jobs. -/

theorem exec_bulkCompressJob_fits {j : BulkJob} {s : State} (hs : halted s = false) (hok : bulkOk s = true)
    (hin : j.input.length ≤ 2 ^ 20) (hchain : j.chain.length ≤ 256) :
    let r := bulkRun j.mode j.level ((j.input.length + 4095) / 4096) j.input j.chain.sum 0 []
    let t := count .cmp 0x07 ((r.1 + 4095) / 4096) s
    exec (.bulkCompressJob j) s = .next (if r.1 = j.input.length ∧ 8 ≤ r.2.2
      then emit (.bulkRecord j.id 0 r.1 (r.2.1.length + 8)) (emit (.bulkData j.id (r.2.1 ++ zeros 8)) t)
      else emit (.bulkRecord j.id 1 r.1 r.2.1.length) (emit (.bulkData j.id r.2.1) (note .cmp E.cmpChainExhausted 0xFF t))) := by
  change execBulkCompressJob j s = _
  rw [execBulkCompressJob, live_of_not_halted hs]
  simp only [hok, decide_eq_false (Nat.not_lt.mpr hin), decide_eq_false (Nat.not_lt.mpr hchain), Bool.not_true,
    Bool.or_false, Bool.false_eq_true, if_false, Bool.and_eq_true, decide_eq_true_eq]

/-- A job without input writes the end mark alone: no segment is encoded and the 8 bytes of the chain hold it. -/
theorem exec_bulkCompressJob_empty {j : BulkJob} {s : State} (hs : halted s = false) (hok : bulkOk s = true)
    (hin : j.input = []) (hchain : j.chain = [8]) : exec (.bulkCompressJob j) s =
      .next (emit (.bulkRecord j.id 0 0 8) (emit (.bulkData j.id (zeros 8)) (count .cmp 0x07 0 s))) := by
  have hfits := exec_bulkCompressJob_fits (j := j) hs hok (by simp [hin]) (by simp [hchain])
  simpa [hin, hchain, bulkRun] using hfits

theorem exec_bulkExpandJob_done {j : BulkJob} {s : State} (hs : halted s = false) (hok : bulkOk s = true)
    (hen : getF F.cmpCtrlExpEn s = 1) (hdone : (bulkExpand j.limit (j.input.length + 1) j.input [] 0 0).1 = 0) :
    let r := bulkExpand j.limit (j.input.length + 1) j.input [] 0 0
    exec (.bulkExpandJob j) s =
      .next (emit (.bulkRecord j.id 0 r.2.2.1 r.2.1.length) (emit (.bulkData j.id r.2.1) (count .cmp 0x07 r.2.2.2 s))) := by
  change execBulkExpandJob j s = _
  rw [execBulkExpandJob, live_of_not_halted hs]
  simp only [hok, onF, hen, hdone]
  rfl

/-- Settles O28: one command a clause. -/
theorem unitsAreEncodedSealedAndOpened : Obligations.UnitsAreEncodedSealedAndOpened :=
  ⟨fun _ _ _ _ => exec_compressDone_off, fun _ _ => exec_groupWaitExpiry_running, fun _ _ _ _ => exec_encryptDone_lone,
   fun _ _ _ _ => exec_clauseApply_zero, fun _ _ _ _ => exec_clauseApply_unique,
   fun _ _ _ _ => exec_decryptDone_badHeader, fun _ _ _ _ _ => exec_decryptDone_noKey, fun _ _ _ => exec_expandDone_running,
   fun _ _ => exec_bulkCompressJob_empty, fun _ _ => exec_bulkCompressJob_fits, fun _ _ => exec_bulkExpandJob_done⟩

end Sys2Proof.Machine
end

section
/-! SUPPORT. Register fields after the shared operations: interrupts, copies of the shadowed fields, and fields at
reset. -/

namespace Sys2Proof.Machine

/-- A command that changes nothing answers its own state, halted or not. -/
theorem live_self (s : State) : live s s = .next s := by
  simp [live]

theorem onF_eq_true {f : Fld} {s : State} (h : getF f s = 1) : onF f s = true := by
  simp [onF, h]

theorem onF_eq_false {f : Fld} {s : State} (h : getF f s = 0) : onF f s = false := by
  simp [onF, h]

@[simp] theorem fkey_commitSeq (b : Block) (pg : Nat) : fkey (H.commitSeq b pg) = (H.page b pg + 0xC) * 32 + 16 := rfl
@[simp] theorem fkey_intStat (b : Block) : fkey (H.intStat b) = (base b + 0x20) * 32 := rfl
@[simp] theorem fkey_en (b : Block) : fkey (H.en b) = (base b + 8) * 32 := rfl
@[simp] theorem fkey_run (b : Block) : fkey (H.run b) = (base b + 0xC) * 32 := rfl
@[simp] theorem fkey_rstBusy (b : Block) : fkey (H.rstBusy b) = (base b + 0xC) * 32 + 1 := rfl
@[simp] theorem fkey_state (b : Block) : fkey (H.state b) = (base b + 0xC) * 32 + 12 := rfl

/-- The window vector that an update may send takes no register (R63). -/
theorem withWin_regs (w : Nat) (f : State → State) (s : State) : (withWin w f s).regs = (f s).regs := by
  unfold withWin
  dsimp only
  split <;> rfl

/-- A field's update under a window vector changes the register file and the output log alone (R63). -/
theorem withWin_setF_eq (w : Nat) (f : Fld) (v : State → Nat) (s : State) :
    withWin w (fun t => setF f (v t) t) s = { s with
      regs := (withWin w (fun t => setF f (v t) t) s).regs, out := (withWin w (fun t => setF f (v t) t) s).out } := by
  unfold withWin
  dsimp only
  split
  · rw [setF_eq]
    rfl
  · rw [setF_eq]

theorem setInt_eq (b : Block) (n : Nat) (s : State) :
    setInt b n s = { s with regs := (setInt b n s).regs, out := (setInt b n s).out } :=
  withWin_setF_eq _ _ _ s

theorem setInt_regs (b : Block) (n : Nat) (s : State) :
    (setInt b n s).regs = (setF (H.intStat b) (bset (getF (H.intStat b) s) n) s).regs :=
  withWin_regs _ _ s

/-- The interrupt's bit reads 1 (R57). -/
theorem bit_intStat_setInt {n : Nat} (b : Block) (s : State) (hn : n ≤ 31) :
    bit (getF (H.intStat b) (setInt b n s)) n = true := by
  rw [getF_of_regs (setInt_regs b n s), getF_setF_self _ _ rfl, bit_ftrunc _ hn, bit_bset_self]

/-- A replaced stretch leaves the reads of every other key. -/
theorem tget_treplace_outside {α : Type} {t u : Tbl α} {lo hi k : Nat} (d : α) (h : ¬(lo ≤ k ∧ k < hi)) :
    tget (treplace t lo hi u) k d = tget t k d := by
  rw [tget, tget?_treplace, if_neg h, tget]

theorem tget_treplace_inside {α : Type} {t u : Tbl α} {lo hi k : Nat} (d : α) (hlo : lo ≤ k) (hhi : k < hi) :
    tget (treplace t lo hi u) k d = tget u k d := by
  rw [tget, tget?_treplace, if_pos ⟨hlo, hhi⟩, tget]

end Sys2Proof.Machine
end

section
/-! Shadow values: COMMIT, DISCARD and COMMIT_APPLY (R64–R71). -/

namespace Sys2Proof.Machine

/-! The capture. -/

theorem commitBusy_of_none {b : Block} {pg : Nat} {s : State} (h : capOf b pg s = none) : commitBusy b pg s = false := by
  simp [commitBusy, h]

theorem exec_commit_untransacted {b : Block} {pg : Nat} {s : State} (hs : halted s = false) (hb : exists_ b = true)
    (hpg : pg < pages b) (hcap : capOf b pg s = none) (htxn : getF (H.txn b pg) s = 0) :
    exec (.commit b pg) s = .next (capture b pg 0 s) := by
  change execCommit b pg s = _
  rw [execCommit, live_of_not_halted hs]
  simp [when_, hb, hpg, commitBusy_of_none hcap, onF_eq_false htxn]

theorem exec_commit_busy {b : Block} {pg : Nat} {s : State} (h : (capOf b pg s).isSome = true) :
    exec (.commit b pg) s = .next s := by
  change execCommit b pg s = _
  have hbusy : commitBusy b pg s = true := h
  simp [execCommit, when_, hbusy, live_self]

theorem exec_commit_transacted {b : Block} {pg n : Nat} {s : State} (hs : halted s = false) (hb : exists_ b = true)
    (hpg : pg < pages b) (hcap : capOf b pg s = none) (htxn : getF (H.txn b pg) s = 1) (hid : getF (H.txnId b pg) s = n) :
    exec (.commit b pg) s = .next (if n = 0 then s else capture b pg n s) := by
  change execCommit b pg s = _
  rw [execCommit, live_of_not_halted hs]
  by_cases hn : n = 0
  · simp [when_, onF_eq_true htxn, hid, hn]
  · simp [when_, hb, hpg, commitBusy_of_none hcap, onF_eq_true htxn, hid, hn]

/-! DISCARD. -/

theorem exec_discard_captured {b : Block} {pg : Nat} {c : Capture} {s : State} (hs : halted s = false)
    (hcap : capOf b pg s = some c) : exec (.discard b pg) s =
      .next { s with regs.shd := treplace s.regs.shd (pageLo b pg) (pageHi b pg) c.vals } := by
  change execDiscard b pg s = _
  rw [execDiscard, live_of_not_halted hs, hcap]

theorem exec_discard_uncaptured {b : Block} {pg : Nat} {s : State} (hs : halted s = false)
    (hcap : capOf b pg s = none) : exec (.discard b pg) s = .next (restorePage b pg s) := by
  change execDiscard b pg s = _
  rw [execDiscard, live_of_not_halted hs, hcap]
  rfl

/-- A page given back its active values shows them (R61, R68). -/
theorem peekF_restorePage_inside {b : Block} {pg : Nat} {f : Fld} (s : State) (hf : f.sh = true)
    (hlo : pageLo b pg ≤ fkey f) (hhi : fkey f < pageHi b pg) : peekF f (restorePage b pg s) = getF f s := by
  simp [peekF, getF, restorePage, hf, tget_treplace_inside _ hlo hhi]

theorem peekF_restorePage_outside {b : Block} {pg : Nat} {f : Fld} (s : State)
    (h : ¬(pageLo b pg ≤ fkey f ∧ fkey f < pageHi b pg)) : peekF f (restorePage b pg s) = peekF f s := by
  cases hf : f.sh
  · simp [peekF, restorePage, hf]
  · simp [peekF, restorePage, hf, tget_treplace_outside _ h]

/-! COMMIT_APPLY. -/

theorem capOf_page {b : Block} {pg : Nat} {c : Capture} {s : State} (h : capOf b pg s = some c) :
    c.blk = b ∧ c.pg = pg := by
  simpa using List.find?_some h

/-- The captured values stand as the active ones of their page. -/
def activated (c : Capture) (s : State) : State :=
  { s with regs.act := treplace s.regs.act (pageLo c.blk c.pg) (pageHi c.blk c.pg) c.vals }

/-- The apply of a page without fields behind an index register activates its values and counts (R64, R65). -/
theorem applyCap_unindexed {c : Capture} {s : State} (hidx : indexedFields c.blk c.pg c.index = [])
    (hi : indexOf c.blk c.pg s = c.index) :
    applyCap c s = incF (H.commitSeq c.blk c.pg) (dropCap c.blk c.pg (activated c s)) := by
  have hstore : storeIndexed c s = s := by simp [storeIndexed, hidx, forEach]
  simp [applyCap, hstore, hi, activated]

theorem getF_activated_inside {c : Capture} {f : Fld} (s : State) (hf : f.sh = true)
    (hlo : pageLo c.blk c.pg ≤ fkey f) (hhi : fkey f < pageHi c.blk c.pg) :
    getF f (activated c s) = tget c.vals (fkey f) f.reset := by
  simp [getF, activated, hf, tget_treplace_inside _ hlo hhi]

/-- An activation takes no unshadowed field. -/
theorem getF_activated_unshadowed {c : Capture} {f : Fld} (s : State) (hf : f.sh = false) :
    getF f (activated c s) = getF f s := by
  simp [getF, activated, hf]

theorem getF_activated_outside {c : Capture} {f : Fld} (s : State)
    (h : ¬(pageLo c.blk c.pg ≤ fkey f ∧ fkey f < pageHi c.blk c.pg)) : getF f (activated c s) = getF f s := by
  cases hf : f.sh
  · exact getF_activated_unshadowed s hf
  · simp [getF, activated, hf, tget_treplace_outside _ h]

/-- The state that the apply of a commit leaves when nothing refuses it. -/
def committed (c : Capture) (s : State) : State :=
  setInt c.blk 1 (incF (H.commitSeq c.blk c.pg) (dropCap c.blk c.pg (activated c s)))

theorem exec_commitApply_committed {b : Block} {pg : Nat} {c : Capture} {s : State} (hs : halted s = false)
    (hcap : capOf b pg s = some c) (htxn : c.txn = 0) (hok : commitRefused c s = none)
    (hidx : indexedFields b pg c.index = []) (hi : indexOf b pg s = c.index) (heph : ¬(b = .eph ∧ pg = 1)) :
    exec (.commitApply b pg) s = .next (committed c s) := by
  obtain ⟨rfl, rfl⟩ := capOf_page hcap
  change execCommitApply c.blk c.pg s = _
  rw [execCommitApply, live_of_not_halted hs, hcap]
  simp only [htxn, if_true, commitOne, hok, applyCap_unindexed hidx hi]
  rw [if_neg (by simpa using heph)]
  rfl

theorem committed_eq (c : Capture) (s : State) :
    committed c s = { s with regs := (committed c s).regs, out := (committed c s).out } := by
  unfold committed
  rw [setInt_eq, incF, setF_eq]
  rfl

theorem capOf_committed (c : Capture) (s : State) : capOf c.blk c.pg (committed c s) = none := by
  have hcaps : (committed c s).regs.caps = s.regs.caps.filter fun d => !(d.blk == c.blk && d.pg == c.pg) := by
    rw [committed, setInt_regs]
    rfl
  rw [capOf, hcaps, List.find?_eq_none]
  intro d hd
  simpa [imp_iff_not_or] using (List.mem_filter.mp hd).2

/-- COMMIT_SEQ lies in its own page. -/
theorem commitSeq_in_page (b : Block) (pg : Nat) :
    pageLo b pg ≤ fkey (H.commitSeq b pg) ∧ fkey (H.commitSeq b pg) < pageHi b pg := by
  simp only [fkey_commitSeq, pageLo, pageHi]
  omega

theorem commitSeq_ne_intStat (a b : Block) (pg : Nat) : fkey (H.commitSeq a pg) ≠ fkey (H.intStat b) := by
  simp only [fkey_commitSeq, fkey_intStat]
  omega

theorem getF_commitSeq_committed (c : Capture) (s : State) :
    getF (H.commitSeq c.blk c.pg) (committed c s) = (getF (H.commitSeq c.blk c.pg) s + 1) % 65536 := by
  rw [committed, getF_setInt_ne _ (commitSeq_ne_intStat _ _ _), incF, getF_setF_self _ _ rfl]
  change (getF (H.commitSeq c.blk c.pg) (activated c s) + 1) % 65536 = _
  rw [getF_activated_unshadowed s rfl]

/-- A shadowed field reads as the activation leaves it: the sequence count and the interrupt are unshadowed. -/
theorem getF_committed_shadowed {c : Capture} {f : Fld} (s : State) (hf : f.sh = true) :
    getF f (committed c s) = getF f (activated c s) := by
  simp only [getF, hf, if_true, committed, setInt_regs]
  rfl

/-- A field that is neither COMMIT_SEQ nor INT_STAT reads as the activation leaves it. -/
theorem getF_committed_ne {c : Capture} {f : Fld} (s : State) (hint : fkey f ≠ fkey (H.intStat c.blk))
    (hseq : fkey f ≠ fkey (H.commitSeq c.blk c.pg)) : getF f (committed c s) = getF f (activated c s) := by
  rw [committed, getF_setInt_ne _ hint, incF, getF_setF_ne _ _ hseq]
  rfl

theorem getF_committed_outside {c : Capture} {f : Fld} (s : State)
    (hout : ¬(pageLo c.blk c.pg ≤ fkey f ∧ fkey f < pageHi c.blk c.pg)) (hint : fkey f ≠ fkey (H.intStat c.blk)) :
    getF f (committed c s) = getF f s := by
  have hseq : fkey f ≠ fkey (H.commitSeq c.blk c.pg) := fun h => hout (h ▸ commitSeq_in_page c.blk c.pg)
  rw [getF_committed_ne s hint hseq, getF_activated_outside s hout]

/-- The apply as its fields show it (R64–R66). -/
theorem exec_commitApply_fields {b : Block} {pg : Nat} {c : Capture} {s : State} (hs : halted s = false)
    (hcap : capOf b pg s = some c) (htxn : c.txn = 0) (hok : commitRefused c s = none)
    (hidx : indexedFields b pg c.index = []) (hi : indexOf b pg s = c.index) (heph : ¬(b = .eph ∧ pg = 1)) :
    ∃ t, exec (.commitApply b pg) s = .next t ∧ capOf b pg t = none ∧
      getF (H.commitSeq b pg) t = (getF (H.commitSeq b pg) s + 1) % 65536 ∧ bit (getF (H.intStat b) t) 1 = true ∧
      (∀ f, f.sh = true → pageLo b pg ≤ fkey f → fkey f < pageHi b pg → getF f t = tget c.vals (fkey f) f.reset) ∧
      (∀ f, ¬(pageLo b pg ≤ fkey f ∧ fkey f < pageHi b pg) → fkey f ≠ fkey (H.intStat b) → getF f t = getF f s) ∧
      t = { s with regs := t.regs, out := t.out } := by
  refine ⟨_, exec_commitApply_committed hs hcap htxn hok hidx hi heph, ?_⟩
  obtain ⟨rfl, rfl⟩ := capOf_page hcap
  exact ⟨capOf_committed c s, getF_commitSeq_committed c s, bit_intStat_setInt _ _ (by decide),
    fun f hf hlo hhi => (getF_committed_shadowed s hf).trans (getF_activated_inside s hf hlo hhi),
    fun f => getF_committed_outside s, committed_eq c s⟩

/-- Settles O3: `restorePage` is what a DISCARD leaves without a capture, `committed` what an apply leaves. -/
theorem shadowValuesAreCapturedAndApplied : Obligations.ShadowValuesAreCapturedAndApplied :=
  ⟨fun _ _ _ => exec_commit_untransacted, fun _ _ _ => exec_commit_busy, fun _ _ _ _ => exec_commit_transacted,
   fun _ _ _ _ => exec_discard_captured,
   fun _ _ s hs hcap => ⟨_, exec_discard_uncaptured hs hcap, fun _ => peekF_restorePage_inside s,
     fun _ => peekF_restorePage_outside s, rfl⟩,
   fun _ _ _ _ => exec_commitApply_fields⟩

end Sys2Proof.Machine
end

section
/-! The management queues: completions, enables, doorbells and fetches (R60, R78–R88, R698). -/

namespace Sys2Proof.Machine

/-! Completion. -/

/-- Fields at different bit positions are different fields. -/
theorem fkey_ne_of_lo {f g : Fld} (hf : f.lo < 32) (hg : g.lo < 32) (h : f.lo ≠ g.lo) : fkey f ≠ fkey g := by
  simp only [fkey]
  omega

theorem fkey_ne_mqStatIdle {f : Fld} (q : Nat) (h : f.lo < 32 ∧ f.lo ≠ 16) : fkey f ≠ fkey (F.mqStatIdle q) :=
  fkey_ne_of_lo h.1 (show 16 < 32 by decide) h.2

/-- The control blocks of a queue and tag leave the blocks in progress. -/
def ctlDone (q tag : Nat) (s : State) : State :=
  mqIdle q { s with mgmt.cmds := s.mgmt.cmds.filter fun c => !(c.q == q && c.tag == tag) }

/-- The tail after a posted entry: the last entry wraps to 0 and inverts PHASE (R83). -/
def tailNext (q : Nat) (s : State) : MgmtQ :=
  if (mqOf q s).cqTail = getF (F.mqCfgCqSize q) s then ⟨0, !(mqOf q s).phase⟩ else ⟨(mqOf q s).cqTail + 1, (mqOf q s).phase⟩

/-- IDLE is the only field that the end of a control block writes (R78). -/
theorem getF_ctlDone_ne {q tag : Nat} {f : Fld} (s : State) (h : f.lo < 32 ∧ f.lo ≠ 16) :
    getF f (ctlDone q tag s) = getF f s :=
  getF_flagF_ne _ _ (fkey_ne_mqStatIdle q h)

theorem ctlDone_mgmt (q tag : Nat) (s : State) : (ctlDone q tag s).mgmt =
    { s.mgmt with cmds := s.mgmt.cmds.filter fun c => !(c.q == q && c.tag == tag) } := by
  simp [ctlDone]

theorem ctlDone_out (q tag : Nat) (s : State) : (ctlDone q tag s).out = s.out := by
  simp [ctlDone]

theorem mqOf_ctlDone (q tag : Nat) (s : State) : mqOf q (ctlDone q tag s) = mqOf q s := by
  simp [mqOf, ctlDone_mgmt]

theorem mgmtPost1_posted {q tag st r : Nat} {c : MgmtCmd} {s : State}
    (hc : s.mgmt.cmds.find? (fun c => c.q == q && c.tag == tag) = some c) (hu : c.unposted = false)
    (hen : getF (F.mqCfgCqEn q) s = 1) : mgmtPost1 q tag st r s =
      emit (.mgeMsix (getF (F.mqCfgVector q) s)) (emit (.mgmtCpl q tag st (getF (F.mqStatSqHead q) s) r (mqOf q s).phase)
        { ctlDone q tag s with mgmt.queues := tset (ctlDone q tag s).mgmt.queues q (tailNext q s) }) := by
  have hdone : mqIdle q { s with mgmt.cmds := s.mgmt.cmds.filter fun c => !(c.q == q && c.tag == tag) } = ctlDone q tag s := rfl
  have hqueues : ∀ (f : Fld) (x : Tbl MgmtQ), getF f { ctlDone q tag s with mgmt.queues := x } = getF f (ctlDone q tag s) :=
    fun _ _ => rfl
  have hcqEn : getF (F.mqCfgCqEn q) (ctlDone q tag s) = 1 :=
    (getF_ctlDone_ne s (by simp [F.mqCfgCqEn])).trans hen
  have hsize : getF (F.mqCfgCqSize q) (ctlDone q tag s) = getF (F.mqCfgCqSize q) s :=
    getF_ctlDone_ne s (by simp [F.mqCfgCqSize])
  have hvector : getF (F.mqCfgVector q) (ctlDone q tag s) = getF (F.mqCfgVector q) s :=
    getF_ctlDone_ne s (by simp [F.mqCfgVector])
  have hhead : getF (F.mqStatSqHead q) (ctlDone q tag s) = getF (F.mqStatSqHead q) s :=
    getF_ctlDone_ne s (by simp [F.mqStatSqHead])
  unfold mgmtPost1
  rw [hc]
  simp only [hu, hdone, hqueues, onF_eq_true hcqEn, hsize, hvector, hhead, mqOf_ctlDone, Bool.false_eq_true, if_false, if_true]
  by_cases hlast : (mqOf q s).cqTail = getF (F.mqCfgCqSize q) s <;> simp [tailNext, hlast]

/-- A posted completion as its queue and the output log show it (R83, R86). -/
theorem mgmtPost1_posted_parts {q tag st r : Nat} {c : MgmtCmd} {s : State}
    (hc : s.mgmt.cmds.find? (fun c => c.q == q && c.tag == tag) = some c) (hu : c.unposted = false)
    (hen : getF (F.mqCfgCqEn q) s = 1) :
    let t := mgmtPost1 q tag st r s
    t.mgmt.cmds = s.mgmt.cmds.filter (fun c => !(c.q == q && c.tag == tag)) ∧
    t.out = .mgeMsix (getF (F.mqCfgVector q) s) :: .mgmtCpl q tag st (getF (F.mqStatSqHead q) s) r (mqOf q s).phase :: s.out ∧
    mqOf q t = tailNext q s := by
  simp only [mgmtPost1_posted hc hu hen, emit_mgmt, emit_out, ctlDone_mgmt, ctlDone_out, mqOf, tget_tset_self, and_self]

theorem mgmtPost1_disabled {q tag st r : Nat} {c : MgmtCmd} {s : State}
    (hc : s.mgmt.cmds.find? (fun c => c.q == q && c.tag == tag) = some c) (hu : c.unposted = false)
    (hen : getF (F.mqCfgCqEn q) s = 0) : mgmtPost1 q tag st r s =
      evrEvent (mkRec 0x0200 0 12 0 0xFF 0 (tag + 65536 * q) c.opcode) (ctlDone q tag s) := by
  have hcqEn : getF (F.mqCfgCqEn q) (ctlDone q tag s) = 0 :=
    (getF_ctlDone_ne s (by simp [F.mqCfgCqEn])).trans hen
  unfold mgmtPost1
  rw [hc]
  simp only [hu, Bool.false_eq_true, if_false]
  exact if_neg (Bool.eq_false_iff.mp (onF_eq_false hcqEn))

/-- Settles O9: `ctlDone` ends the control block, `tailNext` is where the queue's tail moves. -/
theorem managementCompletionTakesTheTailEntry : Obligations.ManagementCompletionTakesTheTailEntry :=
  ⟨fun _ _ _ _ _ _ => mgmtPost1_posted_parts, fun _ _ _ _ _ _ => mgmtPost1_disabled⟩

/-! Enables and doorbells. -/

/-- A write of an MGE register with a command of its own, while MGE takes it, does what it says (R60). -/
theorem mgeWrite_of_on {s : State} (h : mgeOff s = false) (f : State → State) : mgeWrite f s = f s := by
  simp [mgeWrite, h]

section
variable {q n : Nat} {s : State} (hs : halted s = false) (hon : mgeOff s = false)
include hs hon

theorem exec_mqSqEnable_fit (hen : getF (F.mqCfgSqEn q) s = 0) (hbase : getF (F.mqSqBaseLoAddr q) s % 0x1000 = 0)
    (hsize : getF (F.mqCfgSqSize q) s ≠ 0) : exec (.mqSqEnable q true) s =
      .next (setF (F.mqStatSqHead q) 0 (setF (F.mqSqTailTail q) 0 (setF (F.mqCfgSqEn q) 1 s))) := by
  change execMqSqEnable q true s = _
  rw [execMqSqEnable, live_of_not_halted hs, mgeWrite_of_on hon]
  simp [onF_eq_false hen, hbase, hsize]

theorem exec_mqSqEnable_unfit (hen : getF (F.mqCfgSqEn q) s = 0)
    (hbad : getF (F.mqSqBaseLoAddr q) s % 0x1000 ≠ 0 ∨ getF (F.mqCfgSqSize q) s = 0) :
    exec (.mqSqEnable q true) s = .next (setF (F.mqStatErr q) 1 s) := by
  change execMqSqEnable q true s = _
  rw [execMqSqEnable, live_of_not_halted hs, mgeWrite_of_on hon]
  simp [onF_eq_false hen, hbad]

theorem exec_mqCqEnable_fit (hen : getF (F.mqCfgCqEn q) s = 0) (hbase : getF (F.mqCqBaseLoAddr q) s % 0x1000 = 0)
    (hsize : getF (F.mqCfgCqSize q) s ≠ 0) (hvec : 8 ≤ getF (F.mqCfgVector q) s) : exec (.mqCqEnable q true) s =
      .next (setF (F.mqCqHeadHead q) 0 (setF (F.mqCfgCqEn q) 1
        { s with mgmt.queues := tset s.mgmt.queues q { cqTail := 0, phase := true } })) := by
  change execMqCqEnable q true s = _
  rw [execMqCqEnable, live_of_not_halted hs, mgeWrite_of_on hon]
  simp [onF_eq_false hen, hbase, hsize, Nat.not_lt.mpr hvec]

theorem exec_mqCqEnable_off : exec (.mqCqEnable q false) s = .next (mqErrClear q (setF (F.mqCfgCqEn q) 0 s)) := by
  change execMqCqEnable q false s = _
  rw [execMqCqEnable, live_of_not_halted hs, mgeWrite_of_on hon]
  rfl

theorem exec_mqSqDoorbell_enabled (hen : getF (F.mqCfgSqEn q) s = 1) : exec (.mqSqDoorbell q n) s =
    .next (if n ≤ getF (F.mqCfgSqSize q) s then setF (F.mqSqTailTail q) n s else setF (F.mqStatDbErr q) 1 s) := by
  change execMqSqDoorbell q n s = _
  rw [execMqSqDoorbell, live_of_not_halted hs, mgeWrite_of_on hon, onF_eq_true hen]
  by_cases hn : n ≤ getF (F.mqCfgSqSize q) s <;> simp [hn, Nat.lt_of_not_le]

theorem exec_mqCqDoorbell_enabled (hen : getF (F.mqCfgCqEn q) s = 1) : exec (.mqCqDoorbell q n) s =
    .next (if n ≤ getF (F.mqCfgCqSize q) s then setF (F.mqCqHeadHead q) n s else setF (F.mqStatDbErr q) 1 s) := by
  change execMqCqDoorbell q n s = _
  rw [execMqCqDoorbell, live_of_not_halted hs, mgeWrite_of_on hon, onF_eq_true hen]
  by_cases hn : n ≤ getF (F.mqCfgCqSize q) s <;> simp [hn, Nat.lt_of_not_le]

end

/-- Settles O6: one command a clause, past the checks of R60. -/
theorem managementQueuesEnableAndRing : Obligations.ManagementQueuesEnableAndRing :=
  ⟨fun _ _ => exec_mqSqEnable_fit, fun _ _ => exec_mqSqEnable_unfit, fun _ _ => exec_mqCqEnable_fit,
   fun _ _ => exec_mqCqEnable_off, fun _ _ _ => exec_mqSqDoorbell_enabled, fun _ _ _ => exec_mqCqDoorbell_enabled⟩

/-! Fetch. -/

/-- The head of a submission queue after a fetch: the last entry wraps to 0 (R80). -/
def headNext (q : Nat) (s : State) : Nat :=
  if getF (F.mqStatSqHead q) s = getF (F.mqCfgSqSize q) s then 0 else getF (F.mqStatSqHead q) s + 1

/-- The control block of a descriptor waits: the head has advanced and IDLE is 0 (R78, R80). -/
def fetched (q : Nat) (d : MgmtDesc) (e : Bool) (s : State) : State :=
  let t := setF (F.mqStatSqHead q) (headNext q s) s
  setF (F.mqStatIdle q) 0 { t with
    mgmt.cmds := t.mgmt.cmds ++ [⟨q, d.tag, d.opcode, d.fence, d.dataLen, false, descReject d e, false⟩] }

theorem exec_mqFetch_descriptor {q : Nat} {d : MgmtDesc} {e : Bool} {s : State} (hs : halted s = false)
    (hok : mqFetchable q s = true) (hst : descReject d e ≠ some stBusError) :
    exec (.mqFetch q (some d) e) s = .next (mgmtRejects q (fetched q d e s)) := by
  change execMqFetch q (some d) e s = _
  rw [execMqFetch, live_of_not_halted hs, hok]
  simp only [when_, if_true, if_neg hst]
  rfl

theorem fetched_cmds (q : Nat) (d : MgmtDesc) (e : Bool) (s : State) : (fetched q d e s).mgmt.cmds =
    s.mgmt.cmds ++ [⟨q, d.tag, d.opcode, d.fence, d.dataLen, false, descReject d e, false⟩] := by
  simp [fetched]

theorem getF_sqHead_fetched (q : Nat) (d : MgmtDesc) (e : Bool) (s : State) :
    getF (F.mqStatSqHead q) (fetched q d e s) = headNext q s % 4096 := by
  rw [fetched, getF_setF_ne _ _ (fkey_ne_mqStatIdle q (by simp [F.mqStatSqHead]))]
  exact getF_setF_self _ s rfl

theorem getF_idle_fetched (q : Nat) (d : MgmtDesc) (e : Bool) (s : State) :
    getF (F.mqStatIdle q) (fetched q d e s) = 0 :=
  getF_setF_self 0 _ rfl

theorem exec_mqFetch_busError {q : Nat} {e : Bool} {s : State} (hs : halted s = false)
    (hok : mqFetchable q s = true) : exec (.mqFetch q none e) s = .next (setF (F.mqStatErr q) 1 s) := by
  change execMqFetch q none e s = _
  rw [execMqFetch, live_of_not_halted hs, hok]
  rfl

theorem exec_nop_ready {q tag : Nat} {s : State} (hs : halted s = false) (hready : mgmtReady q tag 0 s = true) :
    exec (.nop q tag) s = .next (mgmtPost q tag stSuccess 0 (mgmtBegin q tag s)) := by
  change execNop q tag s = _
  rw [execNop, live_of_not_halted hs, mgmtRun, when_, if_pos hready]

/-- Settles O8: `fetched` is the state in which the descriptor's checks are answered. -/
theorem managementFetchChecksItsDescriptor : Obligations.ManagementFetchChecksItsDescriptor :=
  ⟨fun q d e s hs hok hst => ⟨fetched q d e s, exec_mqFetch_descriptor hs hok hst, fetched_cmds q d e s,
     getF_sqHead_fetched q d e s, getF_idle_fetched q d e s⟩,
   fun _ _ _ => exec_mqFetch_busError, fun _ _ _ => exec_nop_ready⟩

end Sys2Proof.Machine
end

section
/-! Register writes by address (R9, R51–R59, R613). -/

namespace Sys2Proof.Machine

theorem exec_registerWrite_word {a v : Nat} {s : State} (hheld : s.pwc.held = false) (ha : a % 4 = 0) :
    exec (.registerWrite a 4 v) s = .next (regWord a (v % 2 ^ 32) s) := by
  change execRegisterWrite a 4 v s = _
  simp [execRegisterWrite, hheld, ha]

theorem exec_registerWrite_double {a v : Nat} {s : State} (hheld : s.pwc.held = false) (ha : a % 8 = 0) :
    exec (.registerWrite a 8 v) s =
      .next (regWord (a + 4) (v / 2 ^ 32 % 2 ^ 32) (regWord a (v % 2 ^ 32) s)) := by
  change execRegisterWrite a 8 v s = _
  simp [execRegisterWrite, hheld, ha]

theorem exec_registerWrite_unaligned {a n v : Nat} {s : State} (hheld : s.pwc.held = false)
    (h4 : ¬(n = 4 ∧ a % 4 = 0)) (h8 : ¬(n = 8 ∧ a % 8 = 0)) :
    exec (.registerWrite a n v) s = .next (fcoNotice s) := by
  change execRegisterWrite a n v s = _
  simp only [execRegisterWrite, hheld, Bool.and_eq_true, decide_eq_true_eq, if_neg h4, if_neg h8, Bool.false_eq_true, if_false]

theorem exec_registerWrite_absent {a v : Nat} {s : State} (hheld : s.pwc.held = false) (ha : a % 4 = 0)
    (habs : blockAt a = none) : exec (.registerWrite a 4 v) s = .next s := by
  rw [exec_registerWrite_word hheld ha, regWord, habs]

/-! The header words of page 0. -/

theorem base_add_mod {b : Block} {off : Nat} (ho : off < 0x40) : (base b + off) % 0x1000 = off := by
  have hbase := base_mod b
  omega

theorem regWord_header {b : Block} {off v : Nat} (s : State) (hb : exists_ b = true) (ho : off < 0x40) :
    regWord (base b + off) v s = headerStarts b 0 off v (writeHeader b 0 off v s) := by
  simp only [regWord, writeWord, blockAt_base hb (Nat.lt_trans ho (by decide)), base_add_mod ho, if_pos ho]

/-- A whole-word write of a header word of an existing block. -/
theorem exec_registerWrite_header {b : Block} {off v : Nat} {s : State} (hb : exists_ b = true)
    (hheld : s.pwc.held = false) (hv : v < 2 ^ 32) (ho : off < 0x40) (h4 : off % 4 = 0) :
    exec (.registerWrite (base b + off) 4 v) s = .next (headerStarts b 0 off v (writeHeader b 0 off v s)) := by
  have halign : (base b + off) % 4 = 0 := by
    have hbase := base_mod b
    omega
  rw [exec_registerWrite_word hheld halign, Nat.mod_eq_of_lt hv, regWord_header s hb ho]

theorem exec_registerWrite_spare {b : Block} {v : Nat} {s : State} (hb : exists_ b = true)
    (hheld : s.pwc.held = false) (hv : v < 2 ^ 32) :
    exec (.registerWrite (base b + 0x3C) 4 v) s = .next (setF (H.spare b) v s) := by
  rw [exec_registerWrite_header hb hheld hv (by decide) (by decide)]
  rfl

/-- ERR_STAT after a write of ones (R9, R57). -/
def errStatCleared (b : Block) (v : Nat) (s : State) : State :=
  withWin (windowOf b) (fun t => setF (H.errStat b) (bclrMask (getF (H.errStat b) t) v) t) s

theorem exec_registerWrite_errStat {b : Block} {v : Nat} {s : State} (hb : exists_ b = true)
    (hheld : s.pwc.held = false) (hv : v < 2 ^ 32) :
    exec (.registerWrite (base b + 0x10) 4 v) s = .next (errStatCleared b v s) := by
  rw [exec_registerWrite_header hb hheld hv (by decide) (by decide)]
  rfl

theorem getF_errStatCleared (b : Block) (v : Nat) (s : State) :
    getF (H.errStat b) (errStatCleared b v s) = bclrMask (getF (H.errStat b) s) v % 2 ^ 32 := by
  rw [errStatCleared, getF_of_regs (withWin_regs _ _ s)]
  exact getF_setF_self _ s rfl

/-- ERR_INJECT is no stored word: its write does what INJ starts, in every state of the head (R59, R616). -/
theorem writeHeader_errInject (b : Block) (v : Nat) (s : State) : writeHeader b 0 0x1C v s = s := by
  simp [writeHeader]

/-- A command that answers a next state does the same as a write's start. -/
theorem next_thenDo {f : State → Res} {s t : State} (h : f s = .next t) : .next (thenDo f s) = f s := by
  simp [thenDo, h]

theorem exec_registerWrite_errInject {b : Block} {v : Nat} {s : State} (hb : exists_ b = true)
    (hheld : s.pwc.held = false) (hv : v < 2 ^ 32) (hinj : bit v 8 = true) :
    exec (.registerWrite (base b + 0x1C) 4 v) s = exec (.errInjectWrite b (bits v 4 0) (bits v 16 9)) s := by
  rw [exec_registerWrite_header hb hheld hv (by decide) (by decide), writeHeader_errInject]
  have hstart : headerStarts b 0 0x1C v s = thenDo (execErrInjectWrite b (bits v 4 0) (bits v 16 9)) s := by
    simp [headerStarts, hinj]
  rw [hstart]
  exact next_thenDo rfl

/-! EVR_RELEASE. -/

/-- EVR_RELEASE stores nothing: it is write-only and has a command of its own (R9, R613). -/
theorem writeBlockWord_evrRelease {v : Nat} {s : State} (hpwr : getF (H.pwrState .evr) s ≠ 2)
    (hst : getF (H.state .evr) s ≠ 5) : writeBlockWord .evr 0 0x80 v s = s := by
  have hrow : (rowsOf .evr 0).filter (rowAt 0x80) = [⟨0x80, 1, 4, 31, 0, .wo, 0, false⟩] := by decide
  simp [writeBlockWord, hpwr, hst, hrow, forEach, writeField, ownRow, afterWrite]

theorem exec_registerWrite_evrRelease {v : Nat} {s : State} (hheld : s.pwc.held = false) (hgrave : graved s = false)
    (hpwr : getF (H.pwrState .evr) s ≠ 2) (hst : getF (H.state .evr) s ≠ 5) (hv : v < 2 ^ 32) :
    exec (.registerWrite 0x3080 4 v) s = exec (.evrRelease v) s := by
  have hat : blockAt 0x3080 = some (.evr, 0) := by decide
  have hword : writeWord 0x3080 v s = s := by
    simp [writeWord, hat, hgrave, writeBlockWord_evrRelease hpwr hst]
  have hstart : regWord 0x3080 v s = thenDo (execEvrRelease v) s := by
    simp [regWord, hat, hword, hpwr, hst, blockStarts]
  rw [exec_registerWrite_word hheld (by decide), Nat.mod_eq_of_lt hv, hstart]
  exact next_thenDo rfl

/-- Settles O1: header words go through `exec_registerWrite_header`, EVR_RELEASE through its page. -/
theorem registerWriteReachesItsWord : Obligations.RegisterWriteReachesItsWord :=
  ⟨fun _ _ _ => exec_registerWrite_spare,
   fun b v s hb hheld hv => ⟨_, exec_registerWrite_errStat hb hheld hv, getF_errStatCleared b v s, withWin_setF_eq _ _ _ s⟩,
   fun _ _ _ => exec_registerWrite_double, fun _ _ _ => exec_registerWrite_errInject,
   fun _ _ => exec_registerWrite_evrRelease, fun _ _ _ => exec_registerWrite_absent,
   fun _ _ _ _ => exec_registerWrite_unaligned⟩

end Sys2Proof.Machine
end

section
/-! Block enables and the soft reset (R56, R57, R596, R608, R694). -/

namespace Sys2Proof.Machine

/-! EN. -/

/-- EN takes no effect where it is read-only (R56). -/
theorem enWrite_readOnly {b : Block} (on : Bool) (s : State) (h : planeOf b = .control ∨ planeOf b = .memory) :
    enWrite b on s = s := by
  unfold enWrite
  rcases h with h | h <;> rw [h]

/-- EN set on a block outside reset and fault runs it (R56). -/
theorem enWrite_run {b : Block} {s : State} (hc : planeOf b ≠ .control) (hm : planeOf b ≠ .memory)
    (hw : ∀ w, b ≠ .wsp w) (hdown : blockDown b s = false) :
    enWrite b true s = setState b 2 (flagF (H.en b) true s) := by
  have hkeep : getF (H.state b) (flagF (H.en b) true s) = getF (H.state b) s := getF_flagF_ne _ s (by simp; omega)
  have hdown' : blockDown b (flagF (H.en b) true s) = false := by simpa [blockDown, hkeep] using hdown
  unfold enWrite
  split
  · exact absurd ‹_› hm
  · exact absurd ‹_› hc
  · exact absurd rfl (hw _)
  · simp [hdown']

theorem setState_eq (b : Block) (v : Nat) (s : State) : setState b v s = { s with regs := (setState b v s).regs } := by
  rw [setState, flagF, setF_eq, setF_eq (H.state b)]

theorem getF_state_setState (b : Block) (v : Nat) (s : State) : getF (H.state b) (setState b v s) = v % 16 := by
  rw [setState, getF_flagF_ne _ _ (by simp), getF_setF_self _ _ rfl]
  rfl

/-- STATE and RUN are all that a change of state writes. -/
theorem getF_setState_ne {b : Block} {f : Fld} (v : Nat) (s : State) (hst : fkey f ≠ fkey (H.state b))
    (hrun : fkey f ≠ fkey (H.run b)) : getF f (setState b v s) = getF f s := by
  rw [setState, getF_flagF_ne _ _ hrun, getF_setF_ne _ _ hst]

theorem exec_blockEnableWrite_run {b : Block} {mc : Bool} {s : State} (hs : halted s = false)
    (hc : planeOf b ≠ .control) (hm : planeOf b ≠ .memory) (hw : ∀ w, b ≠ .wsp w) (hdown : blockDown b s = false) :
    ∃ t, exec (.blockEnableWrite b none true mc) s = .next t ∧ getF (H.en b) t = 1 ∧ getF (H.state b) t = 2 ∧
      t = { s with regs := t.regs } := by
  refine ⟨setState b 2 (flagF (H.en b) true s), ?_, ?_, getF_state_setState b 2 _, ?_⟩
  · change execBlockEnableWrite b none true mc s = _
    rw [execBlockEnableWrite, live_of_not_halted hs]
    exact congrArg _ (enWrite_run hc hm hw hdown)
  · rw [getF_setState_ne _ _ (by simp; omega) (by simp), getF_flagF_self _ _ rfl]
    rfl
  · rw [setState_eq, flagF, setF_eq]

theorem exec_blockEnableWrite_readOnly {b : Block} {on mc : Bool} {s : State}
    (h : planeOf b = .control ∨ planeOf b = .memory) : exec (.blockEnableWrite b none on mc) s = .next s := by
  change execBlockEnableWrite b none on mc s = _
  simp only [execBlockEnableWrite, enWrite_readOnly on s h, live_self]

/-! The block-specific enables. -/

/-- A fabric port has no service enable: PTP_EN is a policy (R694). -/
theorem enableOf_fab_ne_service (p n : Nat) (f : Fld) : enableOf (.fab p) n ≠ some (f, .service) := by
  unfold enableOf
  split <;> simp_all

theorem exec_blockEnableWrite_service {b : Block} {n : Nat} {f : Fld} {on mc : Bool} {s : State} (hs : halted s = false)
    (hen : enableOf b n = some (f, .service)) (hpwr : getF (H.pwrState b) s ≠ 2) (hst : getF (H.state b) s ≠ 5) :
    exec (.blockEnableWrite b (some n) on mc) s = .next (flagF f on s) := by
  change execBlockEnableWrite b (some n) on mc s = _
  rw [execBlockEnableWrite, live_of_not_halted hs]
  simp only [hen, hpwr, hst, decide_false, Bool.or_self, Bool.false_eq_true, if_false]
  cases b with
  | fab p => exact absurd hen (enableOf_fab_ne_service p n f)
  | _ => rfl

theorem exec_blockEnableWrite_mainRoad {b : Block} {n : Nat} {f : Fld} {mc : Bool} {s : State} (hs : halted s = false)
    (hen : enableOf b n = some (f, .mainRoad)) (hpwr : getF (H.pwrState b) s ≠ 2) (hst : getF (H.state b) s ≠ 5) :
    exec (.blockEnableWrite b (some n) true mc) s = .next (if mc then setF f 1 s else s) := by
  change execBlockEnableWrite b (some n) true mc s = _
  rw [execBlockEnableWrite, live_of_not_halted hs]
  simp only [hen, hpwr, hst, decide_false, Bool.or_self, Bool.false_eq_true, if_false]
  cases mc <;> rfl

/-- Settles O4: EN by plane, the enables of R694 by group. -/
theorem enablesSwitchTheirBlock : Obligations.EnablesSwitchTheirBlock :=
  ⟨fun _ _ _ => exec_blockEnableWrite_run, fun _ _ _ _ => exec_blockEnableWrite_readOnly,
   fun _ _ _ _ _ _ => exec_blockEnableWrite_service, fun _ _ _ _ _ => exec_blockEnableWrite_mainRoad⟩

/-! SOFT_RESET. -/

theorem exec_softReset_honoured {b : Block} {s : State} (hs : halted s = false) (h : srstHonoured b = true) :
    exec (.softReset b) s =
      .next (evrEvent (mkRec 0x0010 0 (latchBit b) (inst b) 0xFF 0 (blockCode b) 0) (blockReset b s)) := by
  change execSoftReset b s = _
  rw [execSoftReset, live_of_not_halted hs, when_, if_pos h]

theorem exec_softReset_ignored {b : Block} {s : State} (h : srstHonoured b = false) :
    exec (.softReset b) s = .next s := by
  change execSoftReset b s = _
  simp [execSoftReset, when_, h, live_self]

/-! SOFT_RESET_DONE. -/

/-- An enable lies behind its page's header. -/
theorem enableOf_behind_header {b : Block} {n : Nat} {f : Fld} {g : EnGroup} (h : enableOf b n = some (f, g)) :
    (base b + 0x40) * 32 ≤ fkey f := by
  unfold enableOf at h
  split at h <;> simp only [Option.some.injEq, Prod.mk.injEq, reduceCtorEq] at h <;> obtain ⟨rfl, -⟩ := h
  -- PTP_EN of every fabric port; the other enables are single words
  case h_29 p => simp [fkey, base, F.fabPtpPtpEn]
  all_goals decide

/-- Setting the main-road enables again leaves the header (R694). -/
theorem getF_reEnable_header {b : Block} {f : Fld} (s : State) (hf : fkey f < (base b + 0x40) * 32) :
    getF f (reEnable b s) = getF f s := by
  refine forEach_keep (getF f) _ _ s fun n t => ?_
  split
  · next e hen =>
    have hne : fkey f ≠ fkey e := Nat.ne_of_lt (Nat.lt_of_lt_of_le hf (enableOf_behind_header hen))
    split
    · exact getF_setF_ne _ t hne
    · rfl
  · rfl

/-- The block out of reset (R57, R596). -/
def outOfReset (b : Block) (s : State) : State :=
  setInt b 3 (reEnable b (setF (H.rstBusy b) 0 (setState b (if onF (H.en b) s then 2 else 4) s)))

/-- Held commands resume when no plane is in reset any more (R600). -/
def holdEnded (s : State) : State :=
  if [Plane.host, .reduction, .media, .pair].any (fun p => planeDown p s) then s else { s with hqe.planeHold := false }

theorem holdEnded_regs (s : State) : (holdEnded s).regs = s.regs := by
  unfold holdEnded
  split <;> rfl

theorem exec_softResetDone_reset {b : Block} {s : State} (hs : halted s = false) (hst : getF (H.state b) s = 5) :
    exec (.softResetDone b) s = .next (holdEnded (outOfReset b s)) := by
  change execSoftResetDone b s = _
  rw [execSoftResetDone, live_of_not_halted hs, when_, if_pos (by simp [hst])]
  rfl

theorem getF_state_outOfReset (b : Block) (s : State) :
    getF (H.state b) (outOfReset b s) = if onF (H.en b) s then 2 else 4 := by
  rw [outOfReset, getF_setInt_ne _ (by simp; omega), getF_reEnable_header _ (by simp; omega), getF_setF_ne _ _ (by simp),
    getF_state_setState]
  split <;> rfl

theorem getF_rstBusy_outOfReset (b : Block) (s : State) : getF (H.rstBusy b) (outOfReset b s) = 0 := by
  rw [outOfReset, getF_setInt_ne _ (by simp; omega), getF_reEnable_header _ (by simp; omega), getF_setF_self _ _ rfl]
  rfl

theorem exec_softResetDone_fields {b : Block} {s : State} (hs : halted s = false) (hst : getF (H.state b) s = 5) :
    ∃ t, exec (.softResetDone b) s = .next t ∧ getF (H.state b) t = (if onF (H.en b) s then 2 else 4) ∧
      getF (H.rstBusy b) t = 0 ∧ bit (getF (H.intStat b) t) 3 = true := by
  refine ⟨_, exec_softResetDone_reset hs hst, ?_⟩
  simp only [getF_of_regs (holdEnded_regs _)]
  exact ⟨getF_state_outOfReset b s, getF_rstBusy_outOfReset b s, bit_intStat_setInt b _ (by decide)⟩

/-- Settles O5: `outOfReset` is the block as SOFT_RESET_DONE leaves it. -/
theorem softResetIsHonouredByPlane : Obligations.SoftResetIsHonouredByPlane :=
  ⟨fun _ _ => exec_softReset_honoured, fun _ _ => exec_softReset_ignored, fun _ _ => exec_softResetDone_fields⟩

end Sys2Proof.Machine
end

section
/-! Start-up: stages, role and the source of the write buffer (R381, R638–R644). -/

namespace Sys2Proof.Machine

/-! Stage 1: the loader and the Head Identity Record. -/

theorem slotImage_of_bld {k : Nat} {s t : State} (h : t.bld = s.bld) : slotImage k t = slotImage k s := by
  simp only [slotImage, h]

theorem passes_of_bld {k : Nat} {i : FwImage} {s t : State} (h : t.bld = s.bld) : passes k i t = passes k i s := by
  simp only [passes, keyGood, arbGood, h]

theorem hirFault_of_head {h : Hir} {s t : State} (hbld : t.bld = s.bld) (hpins : t.pins = s.pins) :
    hirFault h t = hirFault h s := by
  simp only [hirFault, hbld, hpins]

theorem selfTests_head (s : State) : (selfTests s).bld = s.bld ∧ (selfTests s).pins = s.pins := by
  simp [selfTests, drawNat]

theorem mrExtend_head (source mr event : Nat) (digest : List Byte) (s : State) :
    (mrExtend source mr event digest s).bld = s.bld ∧ (mrExtend source mr event digest s).pins = s.pins := by
  simp [mrExtend, apply_ite State.bld, apply_ite State.pins]

/-- An extend, carried out or refused, leaves the boot loader's record and the pins (R377–R379). -/
theorem mrTry_head (source mr event : Nat) (digest : List Byte) (s : State) :
    (mrTry source mr event digest s).bld = s.bld ∧ (mrTry source mr event digest s).pins = s.pins := by
  unfold mrTry
  split
  · exact mrExtend_head _ _ _ _ s
  · simp

theorem measure_head (source mr event : Nat) (l : List FwImage) (s : State) :
    (measure source mr event l s).bld = s.bld ∧ (measure source mr event l s).pins = s.pins :=
  ⟨forEach_bld _ _ _ fun _ t => (mrTry_head _ _ _ _ t).1, forEach_pins _ _ _ fun _ t => (mrTry_head _ _ _ _ t).2⟩

/-- Outside a trial no start is counted (R664). -/
theorem trialStart_of_idle {s : State} (h : s.bld.fwSt ≠ 5) : trialStart s = s := by
  simp [trialStart, inTrial, h]

/-- Outside a failed trial the slot's image is read first, and alone when it passes (R661). -/
theorem imagesRead_slot {k : Nat} {s : State} (hst : s.bld.fwSt ≠ 6) (hp : passes k (slotImage k s) s = true) :
    imagesRead k s = [slotImage k s] := by
  simp [imagesRead, candidates, hst, hp]

/-- The slot's loader measured and running (R381, R641). -/
def loaded (s : State) : State :=
  setF F.bldFwLdrLdrVer (slotImage 1 s).version (measure 0 1 0x0002 [slotImage 1 s] (selfTests s))

theorem loaded_head (s : State) : (loaded s).bld = s.bld ∧ (loaded s).pins = s.pins := by
  obtain ⟨hbld, hpins⟩ := selfTests_head s
  obtain ⟨hbld', hpins'⟩ := measure_head 0 1 0x0002 [slotImage 1 s] (selfTests s)
  exact ⟨(setF_bld _ _ _).trans (hbld'.trans hbld), (setF_pins _ _ _).trans (hpins'.trans hpins)⟩

section
variable {f : Nat} {h : Hir} {s : State} (hs : halted s = false) (hstage : getF F.bldStatStage s = 1)
  (htrial : s.bld.fwSt ≠ 5) (hfailed : s.bld.fwSt ≠ 6) (hp : passes 1 (slotImage 1 s) s = true) (hf : f ≠ 1)
include hs hstage htrial hfailed hp hf

/-- With a loader that passes, stage 1 turns on the Head Identity Record alone. -/
theorem exec_startupStage_loaded : exec (.startupStage f h) s = .next (match hirFault h s with
    | some 2 => startFail 2 (loaded s)
    | some n => startFail n (hirLatch h (loaded s))
    | none => setF F.bldStatStage 2 (hirLatch h (loaded s))) := by
  obtain ⟨hbld, hpins⟩ := selfTests_head s
  have hidle : trialStart (selfTests s) = selfTests s := trialStart_of_idle (by rwa [hbld])
  have hslot : slotImage 1 (selfTests s) = slotImage 1 s := slotImage_of_bld hbld
  have hread : imagesRead 1 (selfTests s) = [slotImage 1 s] :=
    (imagesRead_slot (by rwa [hbld]) (by rw [passes_of_bld hbld, hslot, hp])).trans (by rw [hslot])
  have hpass : passes 1 (slotImage 1 s) (measure 0 1 0x0002 [slotImage 1 s] (selfTests s)) = true := by
    rw [passes_of_bld ((measure_head _ _ _ _ _).1.trans hbld), hp]
  have hfault : hirFault h (loaded s) = hirFault h s := hirFault_of_head (loaded_head s).1 (loaded_head s).2
  change execStartupStage f h s = _
  rw [execStartupStage, live_of_not_halted hs, hstage, ← hfault]
  simp only [stage1, hidle, hread, List.find?_singleton, hpass, if_true, if_neg hf]
  rfl

theorem exec_startupStage_hirUnreadable (hread : h.readable = false) :
    exec (.startupStage f h) s = .next (startFail 2 (loaded s)) := by
  rw [exec_startupStage_loaded hs hstage htrial hfailed hp hf]
  simp [hirFault, hread]

theorem exec_startupStage_hirLatched (hread : h.readable = true) (hmagic : h.magic = 0x49484B48) (hver : h.version = 1)
    (hcrc : crcAt (hirBytes h) 256 = true) (hhead : h.head = s.pins.headSel) (hdsn : h.dsn = s.bld.dsn)
    (hflags : h.flags % 2 = 1) :
    exec (.startupStage f h) s = .next (setF F.bldStatStage 2 (hirLatch h (loaded s))) := by
  rw [exec_startupStage_loaded hs hstage htrial hfailed hp hf]
  simp [hirFault, hread, hmagic, hver, hcrc, hhead, hdsn, hflags]

end

/-! Stages 0 and 2 to 8, each by the work that its row of R641 names. -/

section
variable {f : Nat} {h : Hir} {s : State} (hs : halted s = false)
include hs

theorem exec_startupStage_cold (hstage : getF F.bldStatStage s = 0) (hrun : running .cpc s = true) :
    exec (.startupStage f h) s = .next (setF F.bldStatStage 1 s) := by
  change execStartupStage f h s = _
  rw [execStartupStage, live_of_not_halted hs, hstage, hrun]
  rfl

theorem exec_startupStage_microcode (hstage : getF F.bldStatStage s = 2) (hdue : installDue s = false) :
    exec (.startupStage f h) s = .next (stage2 s) := by
  change execStartupStage f h s = _
  rw [execStartupStage, live_of_not_halted hs, hstage, hdue]
  rfl

theorem exec_startupStage_memory (hstage : getF F.bldStatStage s = 3) : exec (.startupStage f h) s =
    .next (if f = 5 then startFail 5 s else setF F.bldStatStage 4 (forEach (blocksOf .memory) bring s)) := by
  change execStartupStage f h s = _
  rw [execStartupStage, live_of_not_halted hs, hstage]
  rfl

theorem exec_startupStage_vaultFails (hstage : getF F.bldStatStage s = 4) :
    exec (.startupStage 6 h) s = .next (startFail 6 s) := by
  change execStartupStage 6 h s = _
  rw [execStartupStage, live_of_not_halted hs, hstage]
  rfl

theorem exec_startupStage_vault (hstage : getF F.bldStatStage s = 4) (hf : f ≠ 6) (hdump : s.bld.dumpOpen = false) :
    exec (.startupStage f h) s =
      .next (setF F.bldStatStage 5 (forEach [.vlt, .tl 0, .tl 1, .fab 0, .fab 1, .fab 2, .fab 3, .toe] bring s)) := by
  change execStartupStage f h s = _
  rw [execStartupStage, live_of_not_halted hs, hstage]
  simp only [if_neg hf, hdump, Bool.false_eq_true, if_false]

theorem exec_startupStage_modules (hstage : getF F.bldStatStage s = 5) : exec (.startupStage f h) s =
    .next (setF F.bldStatStage 6 (forEach (List.range 32) (fun m t => setF (F.mptLinkCtrlPerst m) 0 (bring (.mpt m) t)) s)) := by
  change execStartupStage f h s = _
  rw [execStartupStage, live_of_not_halted hs, hstage]
  rfl

theorem exec_startupStage_pair (hstage : getF F.bldStatStage s = 6) : exec (.startupStage f h) s =
    .next (setF F.bldStatStage 7 { forEach [.mir, .ocu, .hqe] bring s with bld.stageAt := s.now }) := by
  change execStartupStage f h s = _
  rw [execStartupStage, live_of_not_halted hs, hstage]
  rfl

theorem exec_startupStage_role (hstage : getF F.bldStatStage s = 7) (hrole : getF F.bldStatRole s ≠ 0)
    (hstandby : getF F.bldStatRole s ≠ 3 ∨ (s.pair.joined = true ∧ troysUp s = true)) :
    exec (.startupStage f h) s = .next (stage7 s) := by
  change execStartupStage f h s = _
  rw [execStartupStage, live_of_not_halted hs, hstage]
  rcases hstandby with h3 | ⟨hjoin, htroys⟩
  · simp [hrole, h3]
  · simp [hrole, hjoin, htroys]

theorem exec_startupStage_service (hstage : getF F.bldStatStage s = 8) (hready : getF F.stgWbStatReady s = 1) :
    exec (.startupStage f h) s = .next (stage8 s) := by
  change execStartupStage f h s = _
  rw [execStartupStage, live_of_not_halted hs, hstage]
  simp only [onF_eq_true hready, if_true]

end

/-! The role: decisions in stage 7 without fence readings, before a role is taken. -/

theorem takeRole_hqe (n : Nat) (s : State) : (takeRole n s).hqe = s.hqe := by
  simp [takeRole]

/-- A head that owns every group has nothing to adopt (R644). -/
theorem adoptTry_of_all_mine {changed won : Bool} {s : State} (h : s.hqe.groups.all (·.mine) = true) :
    adoptTry changed won s = s := by
  simp only [adoptTry, h, if_true]

section
variable {w : Bool} {s : State} (hs : halted s = false) (hstage : getF F.bldStatStage s = 7)
  (hrole : getF F.bldStatRole s = 0) (hcause : getF F.mirJoinCause s = 0)
include hs hstage hrole hcause

theorem exec_roleDecision_fenced (hfence : fenceAbove true s = true) :
    exec (.roleDecision [] w) s = .next (takeRole 3 (forfeit (discardSource s))) := by
  change execRoleDecision [] w s = _
  rw [execRoleDecision, live_of_not_halted hs]
  simp [hstage, hrole, hcause, hfence, forEach]

theorem exec_roleDecision_joins (hfence : fenceAbove true s = false) (htroys : troysUp s = true)
    (hjoin : s.pair.joined = true) (hbeat : getF F.hbuStatRxOk s = 1) (hpeer : getF F.hbuStatPeerState s = 2) :
    exec (.roleDecision [] w) s = .next (takeRole (if s.hqe.groups.any (·.mine) then 1 else 3) s) := by
  change execRoleDecision [] w s = _
  rw [execRoleDecision, live_of_not_halted hs]
  simp [hstage, hrole, hcause, hfence, htroys, hjoin, onF_eq_true hbeat, hpeer, forEach]

theorem exec_roleDecision_alone (hfence : fenceAbove true s = false) (htroys : troysUp s = false)
    (hbeat : getF F.hbuStatRxOk s = 0) (hwait : waited s = true) (hmine : s.hqe.groups.all (·.mine) = true) :
    exec (.roleDecision [] w) s = .next (takeRole 2 s) := by
  have hadopt : ∀ changed, adoptTry changed w (takeRole 2 s) = takeRole 2 s :=
    fun _ => adoptTry_of_all_mine (by rw [takeRole_hqe, hmine])
  change execRoleDecision [] w s = _
  rw [execRoleDecision, live_of_not_halted hs]
  simp [hstage, hrole, hcause, hfence, htroys, onF_eq_false hbeat, hwait, hadopt, forEach]

end

/-! The write buffer. -/

theorem fillHalves_bld (s : State) : (fillHalves s).bld = s.bld :=
  forEach_bld _ _ _ fun _ t => forEach_bld _ _ t fun _ _ => rfl

theorem bufferReady_adopt (n : Nat) (h : ImageHdr) (s : State) :
    (bufferReady n (some h) s).bld.adopt = s.bld.adopt := by
  simp [bufferReady, set64]

section
variable {s : State} (hs : halted s = false) (hstage : getF F.bldStatStage s = 8)
  (hready : getF F.stgWbStatReady s = 0)
include hs hstage hready

theorem exec_vaultRestore_source {n : Nat} {i : ImageHdr} (hsrc : sourceOf s = some (n, i)) (hadopt : s.bld.adopt = false) :
    exec .vaultRestore s = .next (bufferReady n (some i) (fillHalves s)) := by
  have hno : (bufferReady n (some i) (fillHalves s)).bld.adopt = false := by
    rw [bufferReady_adopt, fillHalves_bld, hadopt]
  change execVaultRestore s = _
  rw [execVaultRestore, live_of_not_halted hs]
  simp [hstage, onF_eq_false hready, hsrc, hno]

theorem exec_vaultRestore_joined (hsrc : sourceOf s = none) (hjoin : s.pair.joined = true) (htroys : troysUp s = true) :
    exec .vaultRestore s = .next (bufferReady 3 none (fillHalves s)) := by
  change execVaultRestore s = _
  rw [execVaultRestore, live_of_not_halted hs]
  simp [hstage, onF_eq_false hready, hsrc, hjoin, htroys]

theorem exec_vaultRestore_none (hsrc : sourceOf s = none) (hjoin : s.pair.joined = false) :
    exec .vaultRestore s = .next (bufferNone s) := by
  change execVaultRestore s = _
  rw [execVaultRestore, live_of_not_halted hs]
  simp [hstage, onF_eq_false hready, hsrc, hjoin]

end

/-- A source is used once, its SEQ is skipped, and IMAGE_SRC names it (R638). -/
theorem bufferReady_source (n : Nat) (h : ImageHdr) (s : State) :
    (bufferReady n (some h) s).bld.consumed = h.gen ∧ (bufferReady n (some h) s).bld.retain = none ∧
    (bufferReady n (some h) s).hqe.nextSeq = max s.hqe.nextSeq (h.nextSeq + 2 ^ 32) ∧
    getF F.bldStatImageSrc (bufferReady n (some h) s) = n % 4 := by
  refine ⟨?_, ?_, ?_, getF_setF_self n _ rfl⟩ <;> simp [bufferReady, set64]

/-- Settles O55: the stages in order, then the role, then the write buffer. -/
theorem startUpReachesService : Obligations.StartUpReachesService :=
  ⟨fun _ _ _ => exec_startupStage_cold, fun _ _ _ => exec_startupStage_hirUnreadable,
   fun _ _ _ => exec_startupStage_hirLatched, fun _ _ => rfl, fun _ _ _ => exec_startupStage_microcode,
   fun _ _ _ hs hstage hf => (exec_startupStage_memory hs hstage).trans (by rw [if_neg hf]),
   fun _ _ hs hstage => exec_startupStage_memory hs hstage, fun _ _ => exec_startupStage_vaultFails,
   fun _ _ _ => exec_startupStage_vault, fun _ _ _ => exec_startupStage_modules, fun _ _ _ => exec_startupStage_pair,
   fun _ _ _ => exec_startupStage_role, fun _ _ _ => exec_startupStage_service, fun _ _ => exec_roleDecision_fenced,
   fun _ _ => exec_roleDecision_joins, fun _ _ => exec_roleDecision_alone,
   fun _ _ hs hstage hready hsrc hadopt => exec_vaultRestore_source hs hstage hready hsrc hadopt,
   fun _ => exec_vaultRestore_joined, fun _ => exec_vaultRestore_none, bufferReady_source⟩

end Sys2Proof.Machine
end

section
/-! The head at the release of cold reset (R55, R148, R185, R377, R387, R617, R646). -/

namespace Sys2Proof.Machine

/-- The register file lists no unshadowed field: each reads its Reset value. -/
theorem getF_reset {f : Fld} (h : f.sh = false) : getF f State.reset = f.reset := by
  rw [getF, h]
  rfl

/-- STATE 0, Off, of every block (R55). -/
theorem getF_state_reset (b : Block) : getF (H.state b) State.reset = 0 := getF_reset rfl

/-- Settles O59: `getF_reset` gives the unshadowed fields, the others are read off the empty stores. -/
theorem resetHoldsTheValuesOfTheSpec : Obligations.ResetHoldsTheValuesOfTheSpec :=
  ⟨⟨rfl, rfl, rfl, rfl, rfl, rfl⟩, ⟨fun b _ => getF_state_reset b, getF_reset rfl, getF_reset rfl⟩,
   ⟨rfl, rfl, rfl, rfl⟩, ⟨rfl, rfl, rfl, rfl, rfl, rfl⟩⟩

end Sys2Proof.Machine
end

section
/-! SUPPORT. Commands outside a halt whose condition holds, and what a count leaves of the host ports. -/

namespace Sys2Proof.Machine

/-- A command of an endpoint or MGE outside a halt answers the state its meaning gives. -/
theorem liveMge_of_not_halted {s : State} (hs : halted s = false) (mge : Bool) (t : State) : liveMge mge s t = .next t := by
  simp only [halted, Bool.or_eq_false_iff] at hs
  obtain ⟨⟨hgrave, hheld⟩, hdump⟩ := hs
  cases mge <;> simp [liveMge, halted, hgrave, hheld, hdump]

theorem when_of_true {c : Bool} (hc : c = true) (f : State → State) (s : State) : when_ c f s = f s :=
  if_pos hc

@[simp] theorem portOf_count (p : Nat) (b : Block) (code n : Nat) (s : State) :
    portOf p (count b code n s) = portOf p s := by
  simp [portOf]

@[simp] theorem readOf_count (p f tag : Nat) (b : Block) (code n : Nat) (s : State) :
    readOf p f tag (count b code n s) = readOf p f tag s := by
  simp [readOf]

@[simp] theorem fnPresent_physical (p : Nat) (s : State) : fnPresent p 0 s = true := rfl

end Sys2Proof.Machine
end

section
/-! Functions of the host ports: FLR, virtual functions, configuration requests and packets in error (R104, R111, R122,
R124, R137, R138, R140). -/

namespace Sys2Proof.Machine

/-! Function level reset. -/

theorem exec_flr_present {p f : Nat} {s : State} (hs : halted s = false) (hp : fnPresent p f s = true)
    (hf : (portOf p s).flr.contains f = false) :
    let u := flrFn p f (setInt (.hpe p) I.hpeFlr s)
    exec (.flr p f) s = .next (putPort p { portOf p u with flr := (portOf p u).flr ++ [f] } u) := by
  change execFlr p f s = _
  rw [execFlr, live_of_not_halted hs, when_of_true (by rw [hp, hf]; rfl)]

theorem exec_flrComplete_held {p f : Nat} {s : State} (hs : halted s = false) (hf : (portOf p s).flr.contains f = true) :
    exec (.flrComplete p f) s = .next (putPort p { portOf p s with flr := (portOf p s).flr.filter (· != f) } s) := by
  change execFlrComplete p f s = _
  rw [execFlrComplete, live_of_not_halted hs, when_of_true hf]

/-! Virtual functions. -/

theorem exec_vfEnableChange_fromOff {p n : Nat} {on : Bool} {s : State} (hs : halted s = false)
    (hn : n ≤ (portOf p s).totalVfs) (hoff : getF (F.hpeSriovVfEnabled p) s = 0)
    (hnew : ¬(n = getF (F.hpeSriovNumVfs p) s ∧ on = false)) : exec (.vfEnableChange p n on) s =
      .next (setInt (.hpe p) I.hpeVfChange (flagF (F.hpeSriovVfEnabled p) on (setF (F.hpeSriovNumVfs p) n s))) := by
  have hchange : (getF (F.hpeSriovNumVfs p) s == n && false == on) = false := by
    simpa [@eq_comm _ _ n] using hnew
  change execVfEnableChange p n on s = _
  rw [execVfEnableChange, live_of_not_halted hs]
  simp only [onF_eq_false hoff, hn, hchange, when_, decide_true, Bool.false_and, Bool.not_false, Bool.and_self,
    Bool.false_eq_true, if_true, if_false]

theorem exec_vfBlock_virtual {p f : Nat} {on : Bool} {s : State} (hs : halted s = false) (hf : f ≠ 0)
    (hpwr : getF (H.pwrState (.hpe p)) s ≠ 2) (hst : getF (H.state (.hpe p)) s ≠ 5) :
    exec (.vfBlock p f on) s = .next (flagF (F.hpeVfQpBlock p (f - 1)) on s) := by
  change execVfBlock p f on s = _
  rw [execVfBlock, live_of_not_halted hs, when_of_true (bne_iff_ne.mpr hf)]
  simp [regWrite, hpwr, hst]

/-! Configuration requests. -/

theorem exec_configRequest_retry {p f : Nat} {wr : Option (CfgReg × Nat)} {s : State} (hs : halted s = false)
    (hup : getF (F.hpeLinkStatUp p) s = 1) (hwait : s.bld.hir = none ∨ (portOf p s).flr.contains f = true) :
    exec (.configRequest p f wr) s =
      .next (emit (.pcieRrs p) (count (.hpe p) 0x02 1 (count (.hpe p) 0x01 1 s))) := by
  have hretry : (s.bld.hir.isNone || (portOf p s).flr.contains f) = true := by
    simpa only [Bool.or_eq_true, Option.isNone_iff_eq_none] using hwait
  change execConfigRequest p f wr s = _
  rw [execConfigRequest, live_of_not_halted hs, when_of_true (onF_eq_true hup)]
  simp only [count_frame, portOf_count, hretry, if_true]

theorem exec_configRequest_write {p f v : Nat} {r : CfgReg} {s : State} (hs : halted s = false)
    (hup : getF (F.hpeLinkStatUp p) s = 1) (hhir : s.bld.hir.isSome = true) (hflr : (portOf p s).flr.contains f = false)
    (hf : f = 0) : exec (.configRequest p f (some (r, v))) s =
      .next (emit (.pcieCfg p f) (cfgWrite p f r v (count (.hpe p) 0x02 1 (count (.hpe p) 0x01 1 s)))) := by
  subst hf
  have hlatched : s.bld.hir.isNone = false := by
    rw [← Option.not_isSome, hhir]
    rfl
  change execConfigRequest p 0 (some (r, v)) s = _
  rw [execConfigRequest, live_of_not_halted hs, when_of_true (onF_eq_true hup)]
  simp only [count_frame, portOf_count, hlatched, hflr, fnPresent_physical, Bool.or_self, Bool.not_true, Bool.false_eq_true,
    if_false]

/-! Packets in error. -/

section
variable {b : Block} {s : State} (hs : halted s = false) (hb : isEndpoint b = true)
include hs hb

theorem exec_unsupportedRequest_answered {posted : Bool} : exec (.unsupportedRequest b posted false) s =
    .next (note b E.hpeUrSent 0xFF (emit (.aer b E.hpeUrSent)
      (if posted then count b 0x01 1 s else emit (.pcieUr b) (count b 0x01 1 s)))) := by
  change execUnsupportedRequest b posted false s = _
  rw [execUnsupportedRequest, liveMge_of_not_halted hs, when_of_true hb]
  rfl

theorem exec_unsupportedRequest_vendor {posted : Bool} :
    exec (.unsupportedRequest b posted true) s = .next (count b 0x01 1 s) := by
  change execUnsupportedRequest b posted true s = _
  rw [execUnsupportedRequest, liveMge_of_not_halted hs, when_of_true hb]
  rfl

theorem exec_poisonedWriteRx_endpoint {po : Bool} :
    let n := if po then E.hpePoisonRx else E.hpeBadTlp
    exec (.poisonedWriteRx b po) s = .next (note b n 0xFF (emit (.aer b n) (count b 0x01 1 s))) := by
  change execPoisonedWriteRx b po s = _
  rw [execPoisonedWriteRx, liveMge_of_not_halted hs, when_of_true hb]

end

/-- Settles O12: one command a clause. -/
theorem functionsResetAndVirtualFunctionsChange : Obligations.FunctionsResetAndVirtualFunctionsChange :=
  ⟨fun _ _ _ => exec_flr_present, fun _ _ _ => exec_flrComplete_held, fun _ _ _ _ => exec_vfEnableChange_fromOff,
   fun _ _ _ _ => exec_vfBlock_virtual, fun _ _ _ _ => exec_configRequest_retry,
   fun _ _ _ _ _ => exec_configRequest_write, fun _ _ _ hs hb => exec_unsupportedRequest_answered hs hb,
   fun _ _ _ hs hb => exec_unsupportedRequest_vendor hs hb, fun _ _ _ hs hb => exec_poisonedWriteRx_endpoint hs hb⟩

end Sys2Proof.Machine
end

section
/-! Host reads by tag: completions, timeouts and quarantine (R114, R116, R125–R129). -/

namespace Sys2Proof.Machine

section
variable {p f g n h : Nat} {bad po : Bool} {r : ReadReq} {s : State} (hs : halted s = false)
include hs

theorem exec_hostReadCompletion_unexpected (hr : readOf p f g s = none) :
    exec (.hostReadCompletion p f g n bad po) s = .next (note (.hpe p) E.hpeUnexpCpl 0xFF (count (.hpe p) 0x07 1
      (emit (.aer (.hpe p) E.hpeUnexpCpl) (count (.hpe p) 0x01 1 s)))) := by
  change execHostReadCompletion p f g n bad po s = _
  rw [execHostReadCompletion, live_of_not_halted hs]
  simp only [readOf_count, hr]

section
variable (hr : readOf p f g s = some r) (hst : r.st = .live) (hk : r.kind = .data h)
include hr hst hk

/-- A good completion of no more than what is missing lands all its bytes (R114). -/
theorem exec_hostReadCompletion_data (hfit : r.got + n ≤ r.len) : exec (.hostReadCompletion p f g n false false) s =
    .next (dataArrived h n (issueAll
      (let t := count (.hpe p) 0x04 n (count (.hpe p) 0x01 1 s)
       if r.len ≤ r.got + n then dropRead p f g t else modRead p f g (fun r => { r with got := r.got + n }) t))) := by
  have hn : min n (r.len - r.got) = n := by omega
  change execHostReadCompletion p f g n false false s = _
  rw [execHostReadCompletion, live_of_not_halted hs]
  simp [hr, hst, hk, hn]

theorem exec_hostReadCompletion_part (hpart : r.got + n < r.len) : exec (.hostReadCompletion p f g n false false) s =
    .next (dataArrived h n (issueAll
      (modRead p f g (fun r => { r with got := r.got + n }) (count (.hpe p) 0x04 n (count (.hpe p) 0x01 1 s))))) := by
  rw [exec_hostReadCompletion_data hs hr hst hk (Nat.le_of_lt hpart), if_neg (Nat.not_le.mpr hpart)]

theorem exec_hostReadCompletion_whole (hwhole : r.got + n = r.len) : exec (.hostReadCompletion p f g n false false) s =
    .next (dataArrived h n (issueAll (dropRead p f g (count (.hpe p) 0x04 n (count (.hpe p) 0x01 1 s))))) := by
  rw [exec_hostReadCompletion_data hs hr hst hk hwhole.le, if_pos hwhole.ge]

end

theorem exec_completionTimeout_live (hr : readOf p f g s = some r) (hst : r.st = .live)
    (hcto : (fnCfg p f s).ctoDisable = false) : exec (.completionTimeout p f g) s =
      .next (issueAll (readFailed r (note (.hpe p) E.hpeCplTimeout 0xFF (count (.hpe p) 0x06 1
        (emit (.aer (.hpe p) E.hpeCplTimeout) (modRead p f g (fun r => { r with st := .quarantined }) s)))))) := by
  change execCompletionTimeout p f g s = _
  rw [execCompletionTimeout, live_of_not_halted hs]
  simp [hr, hst, hcto]

theorem exec_tagQuarantineEnd_quarantined (hr : readOf p f g s = some r) (hst : r.st = .quarantined) :
    exec (.tagQuarantineEnd p f g) s = .next (issueAll (dropRead p f g s)) := by
  change execTagQuarantineEnd p f g s = _
  rw [execTagQuarantineEnd, live_of_not_halted hs]
  simp only [hr, if_pos hst]

end

/-- Settles O13: `exec_hostReadCompletion_data` takes an outstanding command's bytes, whole or in part. -/
theorem readCompletionsAreTakenByTag : Obligations.ReadCompletionsAreTakenByTag :=
  ⟨fun _ _ _ _ _ _ _ => exec_hostReadCompletion_part, fun _ _ _ _ _ _ _ => exec_hostReadCompletion_whole,
   fun _ _ _ _ _ _ _ => exec_hostReadCompletion_unexpected, fun _ _ _ _ _ => exec_completionTimeout_live,
   fun _ _ _ _ _ => exec_tagQuarantineEnd_quarantined⟩

end Sys2Proof.Machine
end

section
/-! Doorbells, fetches, held messages and token buckets (R123, R190–R197). -/

namespace Sys2Proof.Machine

/-! Doorbells. -/

section
variable {c : Ctl} {i n : Nat} {sq : SubQ} {cq : CplQ} {s : State} (hs : halted s = false) (hserve : ctlServes c s = true)
  (hen : (ctlOf c s).en = true)
include hs hserve hen

theorem exec_sqDoorbell_queue (hq : sqOf c i s = some sq) : exec (.sqDoorbell c i n) s =
    .next (if n < sq.size then modSq c i (fun q => { q with tail := n }) s else badDoorbell c s) := by
  change execSqDoorbell c i n s = _
  rw [execSqDoorbell, live_of_not_halted hs, when_of_true (Bool.and_eq_true_iff.mpr ⟨hserve, hen⟩), hq, ← ite_not]
  simp only [Nat.not_lt]

theorem exec_sqDoorbell_noQueue (hq : sqOf c i s = none) : exec (.sqDoorbell c i n) s = .next (badDoorbell c s) := by
  change execSqDoorbell c i n s = _
  rw [execSqDoorbell, live_of_not_halted hs, when_of_true (Bool.and_eq_true_iff.mpr ⟨hserve, hen⟩), hq]

theorem exec_cqDoorbell_queue (hq : cqOf c i s = some cq) : exec (.cqDoorbell c i n) s =
    .next (if n < cq.size then modCq c i (fun q => { q with head := n }) s else badDoorbell c s) := by
  change execCqDoorbell c i n s = _
  rw [execCqDoorbell, live_of_not_halted hs, when_of_true (Bool.and_eq_true_iff.mpr ⟨hserve, hen⟩), hq, ← ite_not]
  simp only [Nat.not_lt]

end

/-! Fetches, held messages and budgets. -/

theorem exec_sqFetch_open {c : Ctl} {i : Nat} {e : Sqe} {q : SubQ} {s : State} (hs : halted s = false)
    (hq : sqOf c i s = some q) (hhqe : hqeOpen s = true) (hctl : ctlOpen c s = true) (hfetch : fetchable c q s = true)
    (hthr : throttled (tenantOf c s) s = false) (hwb : heldByWb i e s = false) (hfwd : heldByFwd i e s = false) :
    exec (.sqFetch c i (some e)) s = .next (deliver c i e
      (modSq c i (fun q => { q with head := if q.head + 1 = q.size then 0 else q.head + 1 }) s)) := by
  change execSqFetch c i (some e) s = _
  rw [execSqFetch, live_of_not_halted hs]
  simp only [hq, hhqe, hctl, hfetch, hthr, hwb, hfwd, Bool.and_self, Bool.or_self, Bool.not_true, Bool.false_eq_true,
    if_false]

theorem exec_aggregationTimeExpiry_held {c : Ctl} {i : Nat} {q : CplQ} {s : State} (hs : halted s = false)
    (hq : cqOf c i s = some q) (hheld : q.held ≠ 0) : exec (.aggregationTimeExpiry c i) s =
      .next (emit (.msix c q.vector) (modCq c i (fun q => { q with held := 0 }) s)) := by
  change execAggregationTimeExpiry c i s = _
  rw [execAggregationTimeExpiry, live_of_not_halted hs]
  simp only [hq, if_neg hheld]

theorem exec_qosRefillTick_live {s : State} (hs : halted s = false) :
    exec .qosRefillTick s = .next (forEach (s.hqe.buckets.map (·.1)) refill s) :=
  live_of_not_halted hs _

/-- Settles O14: one command a clause. -/
theorem doorbellsAndFetchMoveTheQueues : Obligations.DoorbellsAndFetchMoveTheQueues :=
  ⟨fun _ _ _ _ _ => exec_sqDoorbell_queue, fun _ _ _ _ _ => exec_cqDoorbell_queue, fun _ _ _ _ => exec_sqDoorbell_noQueue,
   fun _ _ _ _ _ => exec_sqFetch_open, fun _ _ _ _ => exec_aggregationTimeExpiry_held, fun _ => exec_qosRefillTick_live⟩

end Sys2Proof.Machine
end

section
/-! Controllers: enable, ready, shutdown, reset and power states (R107, R137, R141, R194, R216, R219, R220). -/

namespace Sys2Proof.Machine

theorem exec_ccEnable_serving {p asq acq : Nat} {s : State} (hs : halted s = false) (hserve : fnServes p 0 s = true)
    (hen : (ctlOf (.hpe p 0) s).en = false) (hasq : asq ≤ 4096) (hacq : acq ≤ 4096) :
    exec (.ccEnable (.hpe p 0) asq acq) s = .next (psEval (addSq (.hpe p 0) 0 asq 0 0 (addCq (.hpe p 0) 0 acq 0 true
      (putCtl (newCtl (.hpe p 0) (getF (F.hpePfQpQpMax p) s) 0 0 false true) s)))) := by
  change execCcEnable (.hpe p 0) asq acq s = _
  rw [execCcEnable, live_of_not_halted hs]
  simp [hserve, hen, Nat.not_lt.mpr hasq, Nat.not_lt.mpr hacq]

theorem exec_powerStateTransitionDone_due {l : Nat} {s : State} (hs : halted s = false) (hl : s.hqe.psTo = some l) :
    exec .powerStateTransitionDone s = .next (psEval (setF F.hqePsStatLevel l (flagF F.hqePsStatEntering false
      (flagF F.hqePsStatExiting false { s with hqe.psTo := none })))) := by
  change execPowerStateTransitionDone s = _
  rw [execPowerStateTransitionDone, live_of_not_halted hs, hl]

section
variable {c : Ctl} {s : State} (hs : halted s = false)
include hs

theorem exec_cstsRdySet_inService (hen : (ctlOf c s).en = true) (hrdy : (ctlOf c s).rdy = false)
    (hserv : inService s = true) : exec (.cstsRdySet c) s = .next (putCtl { ctlOf c s with rdy := true } s) := by
  change execCstsRdySet c s = _
  rw [execCstsRdySet, live_of_not_halted hs, when_of_true (by rw [hen, hrdy, hserv]; rfl)]

theorem exec_shutdownNotification_normal (hserve : ctlServes c s = true) (hen : (ctlOf c s).en = true)
    (hnorm : (ctlOf c s).shst = .normal) :
    exec (.shutdownNotification c) s = .next (putCtl { ctlOf c s with shst := .processing } s) := by
  change execShutdownNotification c s = _
  rw [execShutdownNotification, live_of_not_halted hs, when_of_true hserve]
  simp [shutdownStart, hen, hnorm]

theorem exec_shutdownComplete_idle (hproc : (ctlOf c s).shst = .processing)
    (hidle : s.hqe.cmds.all (fun m => m.ctl != some c || (ctlOf c s).aers.contains m.h) = true) :
    exec (.shutdownComplete c) s = .next (putCtl { ctlOf c s with shst := .complete } s) := by
  change execShutdownComplete c s = _
  rw [execShutdownComplete, live_of_not_halted hs, when_of_true (by rw [hproc, hidle]; rfl)]

theorem exec_controllerReset_enabled (hserve : ctlServes c s = true) (hen : (ctlOf c s).en = true) :
    exec (.controllerReset c) s = .next (ctlDisable c 0 s) := by
  change execControllerReset c s = _
  rw [execControllerReset, live_of_not_halted hs, when_of_true (Bool.and_eq_true_iff.mpr ⟨hserve, hen⟩)]

end

/-- Settles O16: one command a clause. -/
theorem controllersEnableReadyAndShutDown : Obligations.ControllersEnableReadyAndShutDown :=
  ⟨fun _ _ _ _ => exec_ccEnable_serving, fun _ _ => exec_cstsRdySet_inService,
   fun _ _ => exec_shutdownNotification_normal, fun _ _ => exec_shutdownComplete_idle,
   fun _ _ => exec_controllerReset_enabled, fun _ _ => exec_powerStateTransitionDone_due⟩

end Sys2Proof.Machine
end

section
/-! SUPPORT. Admin commands that are ready and pass their checks (R204, R220). -/

namespace Sys2Proof.Machine

theorem adminRun_of_ready {h opc : Nat} {m : Cmd} {k : Ctl} {s : State} (hready : adminReady h opc s = some m)
    (hctl : m.ctl = some k) (f : Ctl → Cmd → State → State) : adminRun h opc f s = f k m s := by
  simp only [adminRun, hready, hctl]

/-- With no failing check a command does its own part. -/
theorem cmdChecks_pass (h : Nat) {l : List (Bool × NvmeSt)} (hl : ∀ x ∈ l, x.1 = false) (f : State → State) (s : State) :
    cmdChecks h l f s = f s := by
  induction l with
  | nil => rfl
  | cons x l ih =>
    obtain ⟨hx, hrest⟩ := List.forall_mem_cons.mp hl
    rw [cmdChecks, hx, if_neg Bool.false_ne_true, ih hrest]

end Sys2Proof.Machine
end

section
/-! The queue commands (R107, R189, R192, R204). -/

namespace Sys2Proof.Machine

section
variable {h i : Nat} {k : Ctl} {m : Cmd} {s : State} (hs : halted s = false) (hctl : m.ctl = some k)
include hs hctl

theorem exec_createIoCq_valid {n v : Nat} {ien : Bool} (hready : adminReady h 0x05 s = some m) (hi : i ≠ 0)
    (hmax : i ≤ (ctlOf k s).qpMax) (hfree : cqOf k i s = none) (hlo : 2 ≤ n) (hhi : n ≤ 16384) (hv : v ≤ (ctlOf k s).qpMax) :
    exec (.createIoCq h i n v ien true) s = .next (endCmd h .success (addCq k i n v ien s)) := by
  change execCreateIoCq h i n v ien true s = _
  rw [execCreateIoCq, live_of_not_halted hs, adminRun_of_ready hready hctl, cmdChecks_pass]
  simp [hi, hmax, hfree, Nat.not_lt.mpr hlo, hhi, hv]

theorem exec_createIoSq_valid {n j pr : Nat} (hready : adminReady h 0x01 s = some m) (hj : j ≠ 0)
    (hcq : (cqOf k j s).isSome = true) (hi : i ≠ 0) (hmax : i ≤ (ctlOf k s).qpMax) (hfree : sqOf k i s = none)
    (hlo : 2 ≤ n) (hhi : n ≤ 16384) :
    exec (.createIoSq h i n j pr true) s = .next (endCmd h .success (addSq k i n j pr s)) := by
  change execCreateIoSq h i n j pr true s = _
  rw [execCreateIoSq, live_of_not_halted hs, adminRun_of_ready hready hctl, cmdChecks_pass]
  simp [hj, hcq, hi, hmax, hfree, Nat.not_lt.mpr hlo, hhi]

theorem exec_deleteIoSq_kept {q : SubQ} (hready : adminReady h 0x00 s = some m) (hi : i ≠ 0) (hq : sqOf k i s = some q)
    (hkept : q.deleting = none) : exec (.deleteIoSq h i) s =
      .next (holdCmd h (modSq k i (fun q => { q with head := q.tail, deleting := some h }) s)) := by
  change execDeleteIoSq h i s = _
  rw [execDeleteIoSq, live_of_not_halted hs, adminRun_of_ready hready hctl, cmdChecks_pass]
  simp [hi, hq, hkept]

theorem exec_deleteIoCq_unnamed (hready : adminReady h 0x04 s = some m) (hi : i ≠ 0) (hcq : (cqOf k i s).isSome = true)
    (hsqs : s.hqe.sqs.any (fun q => q.ctl == k && q.cqid == i) = false) : exec (.deleteIoCq h i) s =
      .next (endCmd h .success { s with hqe.cqs := s.hqe.cqs.filter fun q => !(q.ctl == k && q.qid == i) }) := by
  change execDeleteIoCq h i s = _
  rw [execDeleteIoCq, live_of_not_halted hs, adminRun_of_ready hready hctl, cmdChecks_pass]
  simp [hi, hcq, hsqs]

end

theorem exec_deleteSqDone_idle {h : Nat} {q : SubQ} {s : State} (hs : halted s = false)
    (hq : s.hqe.sqs.find? (fun q => q.deleting == some h) = some q)
    (hidle : s.hqe.cmds.any (fun m => m.ctl == some q.ctl && m.qid == q.qid) = false) : exec (.deleteSqDone h) s =
      .next (endCmd h .success { s with hqe.sqs := s.hqe.sqs.filter fun x => x.deleting != some h }) := by
  change execDeleteSqDone h s = _
  rw [execDeleteSqDone, live_of_not_halted hs]
  simp only [hq, hidle, Bool.false_eq_true, if_false]

/-- Settles O17: valid operands pass every check (`cmdChecks_pass`), and the command does its own part. -/
theorem queuesAreCreatedAndDeleted : Obligations.QueuesAreCreatedAndDeleted :=
  ⟨fun _ _ _ _ _ _ _ _ hs hready hctl => exec_createIoCq_valid hs hctl hready,
   fun _ _ _ _ _ _ _ _ hs hready hctl => exec_createIoSq_valid hs hctl hready,
   fun _ _ _ _ _ _ hs hready hctl => exec_deleteIoSq_kept hs hctl hready, fun _ _ _ => exec_deleteSqDone_idle,
   fun _ _ _ _ _ hs hready hctl => exec_deleteIoCq_unnamed hs hctl hready⟩

end Sys2Proof.Machine
end

section
/-! SUPPORT. Register fields that counts and recorded errors leave (R59, R594, R606–R611). -/

namespace Sys2Proof.Machine

@[simp] theorem getF_count (f : Fld) (b : Block) (code n : Nat) (s : State) : getF f (count b code n s) = getF f s := by
  unfold count
  split <;> rfl

/-- The fields behind recording an error: FCO's latch and highest class, EVR's own words and numbers. -/
def recordFields : List Fld :=
  [F.fcoLatchLoLatchLo, F.fcoLatchHiLatchHi, F.fcoStatMaxClass, F.evrNextNext, F.evrDroppedDropped, F.evrSupprSuppr,
   F.evrStatFull, H.errStat .evr, H.intStat .evr]

/-- The field is none of those behind recording. -/
abbrev OffRecord (f : Fld) : Prop := ∀ g ∈ recordFields, fkey f ≠ fkey g

theorem getF_withWin_setF_ne {f g : Fld} (h : fkey f ≠ fkey g) (w : Nat) (v : State → Nat) (s : State) :
    getF f (withWin w (fun t => setF g (v t) t) s) = getF f s := by
  rw [getF_of_regs (withWin_regs w _ s), getF_setF_ne _ s h]

section
variable {f : Fld} (hf : OffRecord f)
include hf

theorem getF_evrAppend (r : Rec) (s : State) : getF f (evrAppend r s) = getF f s := by
  rw [evrAppend, getF_count, incF, getF_setF_ne _ _ (hf F.evrNextNext (by decide))]
  split
  · exact getF_setInt_ne _ (hf (H.intStat .evr) (by decide))
  · rfl

theorem getF_evrDrop (s : State) : getF f (evrDrop s) = getF f s := by
  rw [evrDrop, getF_count, incSatF, getF_setF_ne _ _ (hf F.evrDroppedDropped (by decide))]

theorem getF_evrFull (code : Nat) (s : State) : getF f (evrFull code s) = getF f s := by
  have hlatch : ∀ v t, getF f (setF F.fcoLatchLoLatchLo v t) = getF f t := fun v t => getF_setF_ne v t (hf _ (by decide))
  have herr : fkey f ≠ fkey (H.errStat .evr) := hf _ (by decide)
  have hfull : ∀ v t, getF f (flagF F.evrStatFull v t) = getF f t := fun v t => getF_flagF_ne v t (hf _ (by decide))
  rw [evrFull, getF_setInt_ne _ (hf (H.intStat .evr) (by decide)), getF_evrDrop hf]
  split
  · rw [getF_withWin_setF_ne herr, hfull, getF_evrAppend hf]
  · rw [getF_evrDrop hf, hlatch, getF_withWin_setF_ne herr, hfull, getF_evrAppend hf]

theorem getF_evrWrite (r : Rec) (s : State) : getF f (evrWrite r s) = getF f s := by
  have hdropped : ∀ v t, getF f (setF F.evrDroppedDropped v t) = getF f t := fun v t => getF_setF_ne v t (hf _ (by decide))
  unfold evrWrite
  dsimp only
  repeat' split
  all_goals simp only [getF_evrDrop hf, getF_evrFull hf, getF_evrAppend hf, hdropped]

theorem getF_evrTry (r : Rec) (s : State) : getF f (evrTry r s).2 = getF f s := by
  have hput : ∀ c a b d t, getF f (putBucket c a b d t) = getF f t := fun c a b d t => getF_of_regs (putBucket_regs c a b d t)
  unfold evrTry
  dsimp only
  split
  · split <;> simp only [getF_evrWrite hf, hput]
  · rw [getF_count, incSatF, getF_setF_ne _ _ (hf F.evrSupprSuppr (by decide)), hput]

theorem getF_evrLow (r : Rec) (s : State) : getF f (evrLow r s) = getF f s := by
  have htry := getF_evrTry hf r s
  unfold evrLow
  split
  · exact getF_evrWrite hf r s
  split
  · next t heq => rwa [heq] at htry
  · next t heq =>
    rw [heq] at htry
    have herr := getF_withWin_setF_ne (hf (H.errStat .evr) (by decide)) 0
      (fun u => bset (getF (H.errStat .evr) u) E.evrSuppressing) t
    dsimp only
    split
    · rw [herr, htry]
    · rw [getF_evrTry hf, getF_setF_ne _ _ (hf F.fcoLatchLoLatchLo (by decide)), herr, htry]

theorem getF_evrEvent (r : Rec) (s : State) : getF f (evrEvent r s) = getF f s := by
  unfold evrEvent
  split
  · exact getF_evrWrite hf r s
  · exact getF_evrLow hf r s

theorem getF_pulse (n c : Nat) (s : State) : getF f (pulse n c s) = getF f s := by
  have hlatch : getF f (latch n s) = getF f s := by
    unfold latch
    split
    · exact getF_setF_ne _ s (hf F.fcoLatchLoLatchLo (by decide))
    · exact getF_setF_ne _ s (hf F.fcoLatchHiLatchHi (by decide))
  have hmax : ∀ v t, getF f (setF F.fcoStatMaxClass v t) = getF f t := fun v t => getF_setF_ne v t (hf _ (by decide))
  unfold pulse
  dsimp only
  repeat' split
  all_goals simp only [hmax, getF_count, hlatch]

/-- An error without a reaction leaves what its ERR_STAT write leaves. -/
theorem getF_note (b : Block) (n lane : Nat) (s : State) : getF f (note b n lane s) = getF f (setErr b n s) := by
  unfold note
  dsimp only
  split
  · rfl
  · rw [getF_evrEvent hf]
    exact getF_pulse hf _ _ _

theorem getF_note_ne {b : Block} {n lane : Nat} (s : State) (h : fkey f ≠ fkey (H.errStat b)) :
    getF f (note b n lane s) = getF f s := by
  rw [getF_note hf, setErr, getF_withWin_setF_ne h]

end

/-- The error's bit reads 1 (R57). -/
theorem bit_errStat_note {b : Block} {n : Nat} (lane : Nat) (s : State) (hb : OffRecord (H.errStat b)) (hn : n ≤ 31) :
    bit (getF (H.errStat b) (note b n lane s)) n = true := by
  rw [getF_note hb, setErr, getF_of_regs (withWin_regs _ _ s), getF_setF_self _ _ rfl, bit_ftrunc _ hn, bit_bset_self]

/-- A register write to a block that is neither powered off nor in reset does its own part. -/
theorem regWrite_of_open {b : Block} {s : State} (hpwr : getF (H.pwrState b) s ≠ 2) (hst : getF (H.state b) s ≠ 5)
    (f : State → State) : regWrite b f s = f s := by
  simp [regWrite, hpwr, hst]

end Sys2Proof.Machine
end

section
/-! Fabric links: up, down, restart, pause and the frames for microcode (R151–R155, R175, R185). -/

namespace Sys2Proof.Machine

@[simp] theorem getF_fabRx (f : Fld) (p : Nat) (s : State) : getF f (fabRx p s) = getF f s := getF_count ..

@[simp] theorem portServes_fabRx (p q : Nat) (v4 : Bool) (s : State) : portServes p v4 (fabRx q s) = portServes p v4 s := by
  simp only [portServes, onF, getF_fabRx]

section
variable {p : Nat} {s : State} (hs : halted s = false)
include hs

theorem exec_pfcStorm_due {t : Nat} (ht : tget? s.fab.paused p = some t) (hdue : 100000000 ≤ s.now - t) :
    exec (.pfcStorm p) s = .next (note (.fab p) E.fabPfcStorm 0xFF s) := by
  change execPfcStorm p s = _
  rw [execPfcStorm, live_of_not_halted hs, ht, if_pos (by simpa using hdue)]

variable (hp : p < 4)
include hp

theorem exec_fabLinkUp_auto {v : Nat} (hdown : blockDown (.fab p) s = false) (htx : getF (F.fabLinkCtrlTxOff p) s = 0)
    (hup : getF (F.fabLinkStatUp p) s = 0) (hmode : getF (F.fabLinkCtrlMode p) s = 0) (hv : v = 1 ∨ v = 2) :
    exec (.fabLinkUp p v) s = .next (setInt (.fab p) I.fabLinkUp (setF (F.fabLinkStatUp p) 1
      (flagF (F.fabLinkStatAnDone p) true (setF (F.fabLinkStatSpeed p) v s)))) := by
  have hspeed : (v == 1 || v == 2) = true := by simpa using hv
  change execFabLinkUp p v s = _
  rw [execFabLinkUp, live_of_not_halted hs]
  simp [hp, hdown, onF_eq_false htx, onF_eq_false hup, hmode, hspeed]

theorem exec_fabLinkRestart_up (hpwr : getF (H.pwrState (.fab p)) s ≠ 2) (hst : getF (H.state (.fab p)) s ≠ 5)
    (hup : getF (F.fabLinkStatUp p) s = 1) : exec (.fabLinkRestart p) s = .next (fabDown p s) := by
  change execFabLinkRestart p s = _
  rw [execFabLinkRestart, live_of_not_halted hs, if_neg (Nat.not_le.mpr hp), regWrite_of_open hpwr hst,
    if_pos (onF_eq_true hup)]

variable (hup : getF (F.fabLinkStatUp p) s = 1)
include hup

theorem exec_fabLinkDown_lost (htx : getF (F.fabLinkCtrlTxOff p) s = 0) :
    exec (.fabLinkDown p) s = .next (fabDown p (note (.fab p) E.fabLinkLost 0xFF s)) := by
  change execFabLinkDown p s = _
  rw [execFabLinkDown, live_of_not_halted hs]
  simp [hp, onF_eq_true hup, onF_eq_false htx]

/-- A pause frame starts the port's pause or ends it, and no other port's (R153). -/
theorem exec_pfcFrame_enabled (on : Bool) (hen : getF (F.fabVlanPfcEn p) s = 1) :
    ∃ t, exec (.pfcFrame p on) s = .next t ∧
      tget? t.fab.paused p = (if on then some ((tget? s.fab.paused p).getD s.now) else none) ∧
      ∀ k, k ≠ p → tget? t.fab.paused k = tget? s.fab.paused k := by
  have hen' : onF (F.fabVlanPfcEn p) (count (.fab p) 0x08 1 (fabRx p s)) = true := onF_eq_true (by simpa using hen)
  refine ⟨_, live_of_not_halted hs _, ?_⟩
  simp only [decide_eq_false (Nat.not_le.mpr hp), onF_eq_true hup, hen', Bool.not_true, Bool.or_self, Bool.false_eq_true,
    if_false]
  cases on with
  | true =>
    simp only [fabRx, count_frame, if_true]
    exact ⟨tget?_tset_self _ _ _, fun k hk => tget?_tset_ne _ _ hk⟩
  | false =>
    simp only [fabRx, count_frame, Bool.false_eq_true, if_false]
    exact ⟨tget?_terase_self _ _, fun k hk => tget?_terase_ne _ hk⟩

theorem exec_arpRequest_own (hv4 : getF (F.fabIpv4CfgV4En p) s = 1) :
    exec (.arpRequest p (getF (F.fabIpv4Addr p) s) false) s =
      .next (fabTx p (emit (.arpReply p (getF (F.fabIpv4Addr p) s)) (fabRx p s))) := by
  have hserve : portServes p true s = true := by simp [portServes, hp, onF_eq_true hup, onF_eq_true hv4]
  change execArpRequest p _ false s = _
  rw [execArpRequest, live_of_not_halted hs]
  simp [hp, onF_eq_true hup, hserve]

theorem exec_lldpFrame_up : exec (.lldpFrame p) s = .next (count (.fab p) 0x01 1 s) := by
  change execLldpFrame p s = _
  rw [execLldpFrame, live_of_not_halted hs, if_neg (by simp [hp, onF_eq_true hup]), fabRx]

end

/-- Settles O19: one command a clause. -/
theorem fabricLinksComeUpAndGoDown : Obligations.FabricLinksComeUpAndGoDown :=
  ⟨fun _ _ _ hs hp => exec_fabLinkUp_auto hs hp, fun _ _ => exec_fabLinkDown_lost, fun _ _ => exec_fabLinkRestart_up,
   fun _ on _ hs hp hup => exec_pfcFrame_enabled hs hp hup on, fun _ _ _ hs => exec_pfcStorm_due hs,
   fun _ _ => exec_arpRequest_own, fun _ _ => exec_lldpFrame_up⟩

end Sys2Proof.Machine
end

section
/-! Capsules, write data, acknowledgements and retransmissions on a connection (R156, R157, R166–R169, R186–R191). -/

namespace Sys2Proof.Machine

theorem exec_h2cdataReceived_missing {h n i : Nat} {c : Cmd} {s : State} (hs : halted s = false)
    (hc : cmdOf h s = some c) (hctl : c.ctl = some (.fab i)) (hneed : c.need ≠ 0) (htoe : running .toe s = true) :
    exec (.h2cdataReceived h n) s = .next (dataArrived h (min (min 131072 n) c.need) s) := by
  change execH2cdataReceived h n s = _
  rw [execH2cdataReceived, live_of_not_halted hs]
  simp [hc, hctl, hneed, htoe]

section
variable {n : Nat} {x : Conn} {s : State} (hs : halted s = false) (hx : connOf n s = some x)
include hs hx

theorem exec_transmitAcknowledged_plain {b : Nat} (htoe : running .toe s = true) :
    exec (.transmitAcknowledged n b false) s =
      .next (modConn n (fun c => { c with unacked := c.unacked - b, retx := 0 }) s) := by
  change execTransmitAcknowledged n b false s = _
  rw [execTransmitAcknowledged, live_of_not_halted hs]
  simp [hx, htoe]

section
variable (hk : x.kind = .tcp) (htoe : running .toe s = true)
include hk htoe

/-- A command is delivered once nothing makes it wait in the receive window (R188–R191, R197). -/
theorem exec_capsuleReceived_open {i : Nat} {e : Sqe} (hready : x.ready = true) (hctl : x.ctl = some i) (hq : x.qid = 0)
    (hhqe : hqeOpen s = true)
    (hroom : (s.hqe.cmds.filter fun m => m.ctl == some (.fab i) && m.qid == 0).length <
      (sqOf (.fab i) 0 s).elim 0 (·.size))
    (hthr : throttled (tenantOf (.fab i) s) s = false) (hwb : heldByWb 0 e s = false) (hfwd : heldByFwd 0 e s = false) :
    exec (.capsuleReceived n e false false false) s = .next (deliver (.fab i) 0 e (count .toe 0x07 1 s)) := by
  change execCapsuleReceived n e false false false s = _
  rw [execCapsuleReceived, live_of_not_halted hs]
  simp [hx, hk, htoe, hready, hctl, hq, hhqe, Nat.not_le.mpr hroom, hthr, hwb, hfwd]

theorem exec_capsuleReceived_unbound {e : Sqe} (hctl : x.ctl = none) :
    exec (.capsuleReceived n e false false false) s = .next (pduError x E.toeProtoErr s) := by
  change execCapsuleReceived n e false false false s = _
  rw [execCapsuleReceived, live_of_not_halted hs]
  simp [hx, hk, htoe, hctl]

theorem exec_tcpRtoExpiry_tcp : exec (.tcpRtoExpiry n) s = .next (if x.retx < getF F.toeTcpRetxMax s then
      count .toe 0x03 1 (emit (.retransmit n) (modConn n (fun c => { c with retx := c.retx + 1 }) s))
    else loseConn n (note .toe E.toeRetxFail 0xFF s)) := by
  change execTcpRtoExpiry n s = _
  rw [execTcpRtoExpiry, live_of_not_halted hs, hx, ← ite_not (x.retx < _)]
  simp [hk, htoe]

end

section
variable (hk : x.kind = .roce) (htoe : running .toe s = true)
include hk htoe

theorem exec_roceRetryTimeout_roce {l : Nat} : exec (.roceRetryTimeout n l) s = .next (if x.retx < l then
      count .toe 0x04 1 (emit (.retransmit n) (modConn n (fun c => { c with retx := c.retx + 1 }) s))
    else loseConn n (note .toe E.toeRetxFail 0xFF s)) := by
  change execRoceRetryTimeout n l s = _
  rw [execRoceRetryTimeout, live_of_not_halted hs, hx, ← ite_not (x.retx < _)]
  simp [hk, htoe]

theorem exec_congestionNotificationPacket_enabled (hcc : getF F.toeRoceCcEn s = 1) :
    ∃ t, exec (.congestionNotificationPacket n) s = .next t ∧
      t.fab.conns = modFirst (fun c => c.id == n) (fun c => { c with cnp := c.cnp + 1 }) s.fab.conns := by
  have hcc' : onF F.toeRoceCcEn (count .toe 0x05 1 s) = true := onF_eq_true (by simpa using hcc)
  refine ⟨_, live_of_not_halted hs _, ?_⟩
  simp [hx, hk, htoe, hcc', modConn]

end
end

/-- Settles O21: one command a clause. -/
theorem capsulesAndDataMoveOnConnections : Obligations.CapsulesAndDataMoveOnConnections :=
  ⟨fun _ _ _ _ _ hs hx hk htoe => exec_capsuleReceived_open hs hx hk htoe,
   fun _ _ _ _ hs hx hk htoe => exec_capsuleReceived_unbound hs hx hk htoe,
   fun _ _ _ _ _ => exec_h2cdataReceived_missing, fun _ _ _ _ hs hx => exec_transmitAcknowledged_plain hs hx,
   fun _ _ _ => exec_tcpRtoExpiry_tcp, fun _ _ _ _ hs hx hk htoe => exec_roceRetryTimeout_roce hs hx hk htoe,
   fun _ _ _ => exec_congestionNotificationPacket_enabled⟩

end Sys2Proof.Machine
end

section
/-! Time: the servo, PTP, PPS and set requests (R181, R182, R509–R514). -/

namespace Sys2Proof.Machine

/-! The state of EPH and what its updates leave. -/

theorem offRecord_ephState : OffRecord F.ephStatState := by decide

theorem offRecord_errStat_eph : OffRecord (H.errStat .eph) := by decide

@[simp] theorem getF_eph (f : Fld) (e : EphState) (s : State) : getF f { s with eph := e } = getF f s := rfl

@[simp] theorem ephState_eph (v : Nat) (s : State) : (ephState v s).eph = s.eph := by
  unfold ephState
  split <;> simp

theorem getF_ephState_self {v : Nat} (s : State) (hv : v < 8) : getF F.ephStatState (ephState v s) = v := by
  unfold ephState
  split
  · assumption
  · rw [getF_setInt_ne _ (by decide), getF_setF_self _ _ rfl]
    exact Nat.mod_eq_of_lt hv

theorem getF_ephState_ne {f : Fld} (v : Nat) (s : State) (hst : fkey f ≠ fkey F.ephStatState)
    (hint : fkey f ≠ fkey (H.intStat .eph)) : getF f (ephState v s) = getF f s := by
  unfold ephState
  split
  · rfl
  · rw [getF_setInt_ne _ hint, getF_setF_ne _ _ hst]

/-! The servo. -/

/-- What every measured offset shows: FREQ, OFFSET and the estimated error (R511, R512). -/
def measured (o : Int) (s : State) : State :=
  let t := setF F.ephFreqFreq (drawNat s).1 (setF F.ephOffsetOffset (twos 32 o) (drawNat s).2)
  { t with eph.terr := o.natAbs + srcErr t, eph.holdSince := none }

/-- The correction of time while it is set: slewed off, or stepped off (R511). -/
def corrected (o : Int) (s : State) : State :=
  if o.natAbs < 1000000 then { measured o s with eph.slew := o }
  else note .eph E.ephStepped 0xFF
    { measured o s with eph.time := moveTime (measured o s).eph.time (-o), eph.slew := 0 }

/-- The count of good updates after an offset, and the state it leads to from STATE `st` (R510). -/
def relocked (st : Nat) (o : Int) (s : State) : State :=
  let g := if 1000 < o.natAbs then 0 else if 3 ≤ st then 1 else min 8 (s.eph.good + 1)
  let t := { s with eph.good := g }
  if 3 ≤ st then ephState 1 t else if g = 8 then ephState 2 t else if 1000 < o.natAbs then ephState 1 t else t

theorem servo_unset {o : Int} {s : State} (h : getF F.ephStatState s = 0) : servo o s =
    ephState 1 { measured o s with eph.time := moveTime (measured o s).eph.time (-o), eph.good := 0, eph.slew := 0 } :=
  if_pos h

theorem servo_set {o : Int} {s : State} (h : getF F.ephStatState s ≠ 0) :
    servo o s = relocked (getF F.ephStatState s) o (corrected o s) :=
  if_neg h

@[simp] theorem measured_time (o : Int) (s : State) : (measured o s).eph.time = s.eph.time := by
  simp [measured, drawNat]

@[simp] theorem relocked_frame (st : Nat) (o : Int) (s : State) :
    (relocked st o s).eph.time = s.eph.time ∧ (relocked st o s).eph.slew = s.eph.slew := by
  unfold relocked
  dsimp only
  split_ifs <;> simp only [ephState_eph, and_self]

theorem getF_errStat_relocked (st : Nat) (o : Int) (s : State) :
    getF (H.errStat .eph) (relocked st o s) = getF (H.errStat .eph) s := by
  have hstate : ∀ v t, getF (H.errStat .eph) (ephState v t) = getF (H.errStat .eph) t := fun v t =>
    getF_ephState_ne v t (by decide) (by decide)
  unfold relocked
  dsimp only
  split_ifs <;> simp only [hstate, getF_eph]

/-- From Unset the servo takes the time and enters STATE 1 (R510). -/
theorem servo_takes_time (o : Int) (s : State) (h : getF F.ephStatState s = 0) :
    getF F.ephStatState (servo o s) = 1 ∧ (servo o s).eph.time = moveTime s.eph.time (-o) ∧ (servo o s).eph.slew = 0 := by
  rw [servo_unset h]
  exact ⟨getF_ephState_self _ (by decide), by simp⟩

theorem servo_slews (o : Int) (s : State) (h : getF F.ephStatState s ≠ 0) (ho : o.natAbs < 1000000) :
    (servo o s).eph.time = s.eph.time ∧ (servo o s).eph.slew = o := by
  simp [servo_set h, corrected, ho]

theorem servo_steps (o : Int) (s : State) (h : getF F.ephStatState s ≠ 0) (ho : 1000000 ≤ o.natAbs) :
    (servo o s).eph.time = moveTime s.eph.time (-o) ∧ (servo o s).eph.slew = 0 ∧
      bit (getF (H.errStat .eph) (servo o s)) E.ephStepped = true := by
  rw [servo_set h, getF_errStat_relocked, corrected, if_neg (Nat.not_lt.mpr ho)]
  exact ⟨by simp, by simp, bit_errStat_note _ _ offRecord_errStat_eph (by decide)⟩

section
variable {x : Option Int} {s : State} (hs : halted s = false) (heph : running .eph s = true)
include hs heph

theorem exec_servoUpdate_source {o : Int} (hx : srcOffset x s = some o) :
    exec (.servoUpdate x) s = .next (servo o s) := by
  change execServoUpdate x s = _
  rw [execServoUpdate, live_of_not_halted hs, heph, hx]
  rfl

/-- A locked clock that loses its source enters Holdover (R510). -/
theorem exec_servoUpdate_lost (hx : srcOffset x s = none) (hst : getF F.ephStatState s = 2) :
    ∃ t, exec (.servoUpdate x) s = .next t ∧ getF F.ephStatState t = 3 ∧ t.eph.holdSince = some s.now ∧
      bit (getF (H.errStat .eph) t) E.ephSrcLost = true := by
  have hexec : exec (.servoUpdate x) s = .next (holdover s) := by
    change execServoUpdate x s = _
    rw [execServoUpdate, live_of_not_halted hs, heph, hx]
    rfl
  refine ⟨_, hexec, ?_⟩
  rw [holdover, if_pos (by simp [hst])]
  refine ⟨?_, by simp, bit_errStat_note _ _ offRecord_errStat_eph (by decide)⟩
  rw [getF_note_ne offRecord_ephState _ (by decide), getF_ephState_self _ (by decide)]

end

/-! PTP. -/

section
variable {p : Nat} {s : State} (hs : halted s = false)
include hs

theorem exec_ptpEventMessage_on {o : Int} (hp : ptpOn p s = true) :
    exec (.ptpEventMessage p o) s = .next (setF (F.fabPtpStatOffset p) (twos 16 o) s) := by
  change execPtpEventMessage p o s = _
  rw [execPtpEventMessage, live_of_not_halted hs, if_pos hp]

theorem exec_ptpAnnounce_on {k : Nat} (hp : ptpOn p s = true) :
    exec (.ptpAnnounce p k) s = .next (ptpSelect { setF (F.fabPtpStatAnnounceOk p) 1 s with
      fab.announce := (s.fab.announce.filter fun a => a.port != p) ++ [{ port := p, quality := k }] }) := by
  change execPtpAnnounce p k s = _
  rw [execPtpAnnounce, live_of_not_halted hs, if_neg (by simp [hp])]
  simp only [setF_fab]

theorem exec_ptpAnnounceTimeout_joined (hp : s.fab.announce.any (fun a => a.port == p) = true) :
    exec (.ptpAnnounceTimeout p) s = .next (ptpSelect (setF (F.fabPtpStatAnnounceOk p) 0
      { s with fab.announce := s.fab.announce.filter fun a => a.port != p })) := by
  change execPtpAnnounceTimeout p s = _
  rw [execPtpAnnounceTimeout, live_of_not_halted hs, if_pos hp]

end

/-! PPS and set requests. -/

/-- The edge's timestamp as PPS_EDGE stores it (R509). -/
def ppsStamped (s : State) : State :=
  set64 F.ephPpsTsLoPpsTs F.ephPpsTsHiPpsTs (moveTime s.eph.time (-inDelay s)) { s with eph.lastPps := some s.now }

theorem getF_ppsStamped_ne {f : Fld} (s : State) (hlo : fkey f ≠ fkey F.ephPpsTsLoPpsTs)
    (hhi : fkey f ≠ fkey F.ephPpsTsHiPpsTs) : getF f (ppsStamped s) = getF f s := by
  rw [ppsStamped, set64, getF_setF_ne _ _ hhi, getF_setF_ne _ _ hlo, getF_eph]

theorem get64_ppsStamped (s : State) :
    get64 F.ephPpsTsLoPpsTs F.ephPpsTsHiPpsTs (ppsStamped s) = moveTime s.eph.time (-inDelay s) % 2 ^ 64 := by
  rw [get64, ppsStamped, set64, getF_setF_ne _ _ (by decide), getF_setF_self _ _ rfl, getF_setF_self _ _ rfl]
  simp only [ftrunc, F.ephPpsTsLoPpsTs, F.ephPpsTsHiPpsTs]
  omega

/-- The edge takes the second of the set request, and EPH enters STATE 1 (R513). -/
def secondTaken (s : State) : State :=
  ephState 1 (setF F.ephStatSetPend 0 { ppsStamped s with
    eph.time := moveTime (get64 F.ephSetLoSet F.ephSetHiSet s) (inDelay s), eph.setAt := none, eph.slew := 0,
    eph.good := 0, eph.holdSince := none, eph.terr := 8 })

theorem getF_secondTaken_ne {f : Fld} (s : State) (hst : fkey f ≠ fkey F.ephStatState)
    (hint : fkey f ≠ fkey (H.intStat .eph)) (hpend : fkey f ≠ fkey F.ephStatSetPend) :
    getF f (secondTaken s) = getF f (ppsStamped s) := by
  rw [secondTaken, getF_ephState_ne _ _ hst hint, getF_setF_ne _ _ hpend, getF_eph]

theorem secondTaken_fields (s : State) :
    (secondTaken s).eph.time = moveTime (get64 F.ephSetLoSet F.ephSetHiSet s) (inDelay s) ∧
      (secondTaken s).eph.lastPps = some s.now ∧ getF F.ephStatSetPend (secondTaken s) = 0 ∧
      getF F.ephStatState (secondTaken s) = 1 ∧
      get64 F.ephPpsTsLoPpsTs F.ephPpsTsHiPpsTs (secondTaken s) = moveTime s.eph.time (-inDelay s) % 2 ^ 64 := by
  refine ⟨by simp [secondTaken], by simp [secondTaken, ppsStamped, set64], ?_, getF_ephState_self _ (by decide), ?_⟩
  · rw [secondTaken, getF_ephState_ne _ _ (by decide) (by decide), getF_setF_self _ _ rfl]
    rfl
  · rw [get64, getF_secondTaken_ne s (by decide) (by decide) (by decide),
      getF_secondTaken_ne s (by decide) (by decide) (by decide)]
    exact get64_ppsStamped s

section
variable {s : State} (hs : halted s = false)
include hs

theorem exec_ppsEdge_pending (heph : running .eph s = true) (hpend : getF F.ephStatSetPend s = 1)
    (hsrc : getF F.ephCtrlSrc s = 2) : exec .ppsEdge s = .next (secondTaken s) := by
  have hstamp : ∀ f, fkey f ≠ fkey F.ephPpsTsLoPpsTs → fkey f ≠ fkey F.ephPpsTsHiPpsTs →
      getF f (ppsStamped s) = getF f s := fun _ => getF_ppsStamped_ne s
  have hset : get64 F.ephSetLoSet F.ephSetHiSet (ppsStamped s) = get64 F.ephSetLoSet F.ephSetHiSet s := by
    rw [get64, hstamp _ (by decide) (by decide), hstamp _ (by decide) (by decide), get64]
  have hdelay : inDelay (ppsStamped s) = inDelay s := by
    rw [inDelay, hstamp _ (by decide) (by decide), inDelay]
  have htaken : (onF F.ephStatSetPend (ppsStamped s) && getF F.ephCtrlSrc (ppsStamped s) == 2) = true := by
    simp [onF, hstamp F.ephStatSetPend (by decide) (by decide), hstamp F.ephCtrlSrc (by decide) (by decide), hpend, hsrc]
  rw [secondTaken, ← hset, ← hdelay]
  change execPpsEdge s = _
  rw [execPpsEdge, live_of_not_halted hs, if_neg (by simp [heph])]
  exact congrArg _ (if_pos htaken)

section
variable (hpwr : getF (H.pwrState .eph) s ≠ 2) (hst : getF (H.state .eph) s ≠ 5)
include hpwr hst

theorem exec_ephSet_pps (hsrc : getF F.ephCtrlSrc s = 2) :
    exec .ephSet s = .next (setF F.ephStatSetPend 1 { s with eph.setAt := some s.now }) := by
  change execEphSet s = _
  rw [execEphSet, live_of_not_halted hs, regWrite_of_open hpwr hst, if_pos hsrc]

theorem exec_ephSet_otherSource (hsrc : getF F.ephCtrlSrc s ≠ 2) : exec .ephSet s = .next s := by
  change execEphSet s = _
  rw [execEphSet, live_of_not_halted hs, regWrite_of_open hpwr hst, if_neg hsrc]

end

theorem exec_ephSetTimeout_due {t : Nat} (ht : s.eph.setAt = some t) (hdue : 2000000000 ≤ s.now - t) :
    exec .ephSetTimeout s = .next (setF F.ephStatSetPend 0 { s with eph.setAt := none }) := by
  change execEphSetTimeout s = _
  rw [execEphSetTimeout, live_of_not_halted hs, ht, if_pos (by simpa using hdue)]

theorem exec_ppsOutRise_second (hon : ppsOutOn s = true) (hsec : s.eph.time % 1000000000 ≤ 8) :
    exec .ppsOutRise s = .next { s with pins := { s.pins with ppsOut := true } } := by
  change execPpsOutRise s = _
  rw [execPpsOutRise, live_of_not_halted hs]
  simp [hon, hsec]

theorem exec_ppsOutFall_off (hoff : ppsOutOn s = false) :
    exec .ppsOutFall s = .next { s with pins := { s.pins with ppsOut := false } } := by
  change execPpsOutFall s = _
  rw [execPpsOutFall, live_of_not_halted hs]
  simp [hoff]

end

/-- Settles O42: the servo by STATE and size of the offset, then one command a clause. -/
theorem timeFollowsItsSource : Obligations.TimeFollowsItsSource :=
  ⟨fun _ _ _ hs heph => exec_servoUpdate_source hs heph, servo_takes_time, servo_slews, servo_steps,
   fun _ _ => exec_servoUpdate_lost, fun _ _ _ hs => exec_ptpEventMessage_on hs, fun _ _ _ hs => exec_ptpAnnounce_on hs,
   fun _ _ => exec_ptpAnnounceTimeout_joined,
   fun s hs heph hpend hsrc => ⟨_, exec_ppsEdge_pending hs heph hpend hsrc, secondTaken_fields s⟩,
   fun _ => exec_ephSet_pps, fun _ => exec_ephSet_otherSource, fun _ _ hs => exec_ephSetTimeout_due hs,
   fun _ => exec_ppsOutRise_second, fun _ => exec_ppsOutFall_off⟩

end Sys2Proof.Machine
end

section
/-! SUPPORT. Control blocks that are ready and pass their checks (R83, R232). -/

namespace Sys2Proof.Machine

theorem mgmtRun_of_ready {q tag opc : Nat} {s : State} (hready : mgmtReady q tag opc s = true)
    (f : State → State) : mgmtRun q tag opc f s = f (mgmtBegin q tag s) := by
  rw [mgmtRun, when_of_true hready]

/-- With no failing check a control block does its own part. -/
theorem checks_pass (q tag : Nat) {l : List (Bool × Nat)} (hl : ∀ x ∈ l, x.1 = false) (f : State → State) (s : State) :
    checks q tag l f s = f s := by
  induction l with
  | nil => rfl
  | cons x l ih =>
    obtain ⟨hx, hrest⟩ := List.forall_mem_cons.mp hl
    rw [checks, hx, if_neg Bool.false_ne_true, ih hrest]

end Sys2Proof.Machine
end

section
/-! Reservations of a namespace owned here (R205, R209). -/

namespace Sys2Proof.Machine

section
variable {h : Nat} {c : Cmd} {x : Namespace} {s : State} (hs : halted s = false)
include hs

section
variable (hc : ioClear h 0x0D resvNeed c x s = true) (hreg : isReg x.resv (hostOf c s) = false)
include hc hreg

theorem exec_reservationRegister_new (k nk : Nat) :
    exec (.reservationRegister h 0 k nk false none) s = .next (endCmd h .success (putResv x.nsid
      { x.resv with regs := x.resv.regs.filter (fun p => p.1 != hostOf c s) ++ [(hostOf c s, nk)],
                    gen := x.resv.gen + 1 } s)) := by
  change execReservationRegister h 0 k nk false none s = _
  rw [execReservationRegister, live_of_not_halted hs, ioRun_of_ioClear hc]
  simp [hreg]

theorem exec_reservationRegister_unregisterUnknown (k nk : Nat) (ig : Bool) (pt : Option Bool) :
    exec (.reservationRegister h 1 k nk ig pt) s = .next (endCmd h .reservationConflict s) := by
  change execReservationRegister h 1 k nk ig pt s = _
  rw [execReservationRegister, live_of_not_halted hs, ioRun_of_ioClear hc]
  simp [hreg]

end

theorem exec_reservationReport_clear (hc : ioClear h 0x0E resvNeed c x s = true) :
    exec (.reservationReport h) s = .next (endCmd h .success (emit (.adminData h 0x600 x.resv.gen) s)) := by
  change execReservationReport h s = _
  rw [execReservationReport, live_of_not_halted hs, ioRun_of_ioClear hc]

section
variable {t k : Nat} (hc : ioClear h 0x11 resvNeed c x s = true) (hlo : 1 ≤ t) (hhi : t ≤ 6)
include hc hlo hhi

theorem exec_reservationAcquire_free (hkey : keyOf x.resv (hostOf c s) = some k)
    (hfree : x.resv.holder = none) (pk : Nat) :
    exec (.reservationAcquire h 0 t k pk) s =
      .next (endCmd h .success (putResv x.nsid { x.resv with holder := some (hostOf c s), rtype := t } s)) := by
  change execReservationAcquire h 0 t k pk s = _
  rw [execReservationAcquire, live_of_not_halted hs, ioRun_of_ioClear hc]
  simp [Nat.ne_of_gt hlo, Nat.not_lt.mpr hhi, hkey, hfree]

theorem exec_reservationAcquire_wrongKey (hkey : keyOf x.resv (hostOf c s) ≠ some k) (pk : Nat) :
    exec (.reservationAcquire h 0 t k pk) s = .next (endCmd h .reservationConflict s) := by
  change execReservationAcquire h 0 t k pk s = _
  rw [execReservationAcquire, live_of_not_halted hs, ioRun_of_ioClear hc]
  simp [Nat.ne_of_gt hlo, Nat.not_lt.mpr hhi, hkey]

end

theorem exec_reservationRelease_holder {k : Nat} (hc : ioClear h 0x15 resvNeed c x s = true)
    (hkey : keyOf x.resv (hostOf c s) = some k) (hhold : x.resv.holder = some (hostOf c s)) :
    exec (.reservationRelease h 0 x.resv.rtype k) s = .next (endCmd h .success
      (resvNotify x (hostOf c s) (x.resv.regs.map (·.1)) (putResv x.nsid { x.resv with holder := none, rtype := 0 } s))) := by
  have hholder : isHolder x.resv (hostOf c s) = true := by simp [isHolder, hhold]
  change execReservationRelease h 0 x.resv.rtype k s = _
  rw [execReservationRelease, live_of_not_halted hs, ioRun_of_ioClear hc]
  simp [hkey, hholder]

end

/-- Settles O23: each command passes its checks (`ioRun_of_ioClear`), then the registrants and the holder decide. -/
theorem reservationsFollowTheRegistrants : Obligations.ReservationsFollowTheRegistrants :=
  ⟨fun _ k nk _ _ _ hs hc hreg => exec_reservationRegister_new hs hc hreg k nk,
   fun _ k nk ig pt _ _ _ hs hc hreg => exec_reservationRegister_unregisterUnknown hs hc hreg k nk ig pt,
   fun _ _ _ _ => exec_reservationReport_clear,
   fun _ _ _ pk _ _ _ hs hc hlo hhi hkey hfree => exec_reservationAcquire_free hs hc hlo hhi hkey hfree pk,
   fun _ _ _ _ _ hs => exec_reservationRelease_holder hs,
   fun _ _ _ pk _ _ _ hs hc hlo hhi hkey => exec_reservationAcquire_wrongKey hs hc hlo hhi hkey pk⟩

end Sys2Proof.Machine
end

section
/-! Namespaces and ANA groups under the management queue (R222, R228–R233). -/

namespace Sys2Proof.Machine

/-! What the checks read is the same once the control block has begun. -/

@[simp] theorem nsOf_mgmtBegin (n q tag : Nat) (s : State) : nsOf n (mgmtBegin q tag s) = nsOf n s := rfl
@[simp] theorem groupOf_mgmtBegin (g q tag : Nat) (s : State) : groupOf g (mgmtBegin q tag s) = groupOf g s := rfl
@[simp] theorem ownsNs_mgmtBegin (x : Namespace) (q tag : Nat) (s : State) :
    ownsNs x (mgmtBegin q tag s) = ownsNs x s := rfl
@[simp] theorem sanActive_mgmtBegin (q tag : Nat) (s : State) : sanActive (mgmtBegin q tag s) = sanActive s := rfl
@[simp] theorem troysUp_mgmtBegin (q tag : Nat) (s : State) : troysUp (mgmtBegin q tag s) = troysUp s := rfl
@[simp] theorem nsidTaken_mgmtBegin (n q tag : Nat) (s : State) :
    nsidTaken n (mgmtBegin q tag s) = nsidTaken n s := rfl
@[simp] theorem classOn_mgmtBegin (c q tag : Nat) (s : State) : classOn c (mgmtBegin q tag s) = classOn c s := rfl

/-- Handle 0 names no key, so none has to be loaded (R229). -/
theorem keyOk_zero (s : State) : keyOk 0 s = true := rfl

/-- With no epoch at all, marking those of a deleted namespace changes nothing. -/
theorem markEpochs_of_none {s : State} (he : s.eph.epochs = []) (p : Epoch → Bool) (f : Epoch → Epoch) :
    { s with eph.epochs := modAll p f [] } = s := by
  have hmark : modAll p f [] = s.eph.epochs := he.symm
  rw [hmark]

section
variable {q tag : Nat} {s : State} (hs : halted s = false)
include hs

theorem exec_nsCreate_fit {b : NsCreateBody} {g : AnaGroup} (hready : mgmtReady q tag 0x0010 s = true)
    (hn : 1 ≤ b.nsid) (hnMax : b.nsid ≤ 32768) (hg : 1 ≤ b.group) (hgMax : b.group ≤ 1024) (hten : b.tenant ≤ 4091)
    (hsize : b.nsze ≠ 0) (hlbaf : b.lbaf = 1) (hmode : b.cmpMode = 0) (hgrouping : b.grouping ≤ 1)
    (hdom : b.domain ≤ 16383) (hlay : b.layout ≤ 7) (hclass : classOn b.layout s = true) (hunits : b.nsze ≤ 2 ^ 52)
    (hgroup : groupOf b.group s = some g) (hmine : g.mine = true) (hsan : sanActive s = false) (hup : troysUp s = true)
    (hfree : nsidTaken b.nsid s = false) (hkey : b.key = 0) (hnext : b.nextKey = 0) :
    exec (.nsCreate q tag b []) s = .next (mgmtPost q tag stSuccess b.nsid (modeEval false
      (nsAdd (nsOfBody b.nsid b (mgmtBegin q tag s)) (sendTroys (.nsRequest 0 b.nsid) (mgmtBegin q tag s))))) := by
  have hnsid : b.nsid ≠ 0 := Nat.ne_of_gt hn
  have hblocks : (b.nsze * 4096 + 4095) / 4096 ≤ 4503599627370496 := by omega
  change execNsCreate q tag b [] s = _
  rw [execNsCreate, live_of_not_halted hs, mgmtRun_of_ready hready, checks_pass]
  · simp [hnsid]
  · simp [hnsid, hnMax, Nat.ne_of_gt hg, hgMax, hten, hsize, hlbaf, hmode, hgrouping, hdom, hlay, hclass, hblocks,
      hgroup, hmine, hsan, hup, hfree, hkey, hnext, keyOk_zero]

theorem exec_nsDelete_owned {n : Nat} {x : Namespace} (hready : mgmtReady q tag 0x0011 s = true) (hx : nsOf n s = some x)
    (hdel : x.deleting = none) (hown : ownsNs x s = true) (hfmt : x.format = none) (hsan : sanActive s = false)
    (hep : s.eph.epochs = []) :
    exec (.nsDelete q tag n false) s = .next (nsDeleteDone n (nsChanged x.tenant n (systemClause n
      (modNs n (fun x => { x with deleting := some (q, tag, s.hqe.nextSeq) }) (mgmtBegin q tag s))))) := by
  change execNsDelete q tag n false s = _
  rw [execNsDelete, live_of_not_halted hs, mgmtRun_of_ready hready]
  simp only [nsOf_mgmtBegin, hx]
  rw [checks_pass]
  · have hbegun : (mgmtBegin q tag s).eph.epochs = [] := hep
    simp only [hbegun, List.filter_nil, List.any_nil, List.filter_false, forEach, List.foldl_nil, markEpochs_of_none hbegun]
    rfl
  · simp [hdel, hown, hfmt, hsan, hep]

theorem exec_nsModify_growth {b : NsModifyBody} {x : Namespace} (hready : mgmtReady q tag 0x0012 s = true)
    (hact : b.action = 0) (hx : nsOf b.nsid s = some x) (hdel : x.deleting = none) (hown : ownsNs x s = true)
    (hvalid : b.valid = 1) (hunits : unitsOf { x with nsze := b.nsze } ≤ 2 ^ 52) (hfmt : x.format = none)
    (hsan : sanActive s = false) (hgrow : x.nsze ≤ b.nsze) :
    exec (.nsModify q tag b) s = .next (mgmtPost q tag stSuccess 0
      (systemClause b.nsid (modNs b.nsid (nsApply b) (mgmtBegin q tag s)))) := by
  have hbit : ∀ i, 1 ≤ i → bit b.valid i = false := fun i hi => by
    rw [hvalid, bit, Bool.eq_false_iff, Ne, Nat.testBit_one_eq_true_iff_self_eq_zero]
    exact Nat.ne_of_gt hi
  change execNsModify q tag b s = _
  rw [execNsModify, live_of_not_halted hs, mgmtRun_of_ready hready]
  simp only [hact, nsOf_mgmtBegin, hx, hbit, Nat.not_lt_zero, if_false, Nat.le_refl, Nat.one_le_ofNat]
  rw [checks_pass]
  · simp
  · simpa [hdel, hown, hfmt, hsan, hgrow] using fun _ : bit b.valid 0 = true => hunits

section
variable {g : Nat} (hready : mgmtReady q tag 0x0013 s = true) (hg : 1 ≤ g) (hgMax : g ≤ 1024) (hup : troysUp s = true)
include hready hg hgMax hup

theorem exec_anaGroupSet_create (hgroup : groupOf g s = none) (hres : s.hqe.reserving.contains (1, g) = false) :
    exec (.anaGroupSet q tag g 0 false) s = .next (mgmtPost q tag stSuccess 0 (systemClause 0 (sendTroys (.nsRequest 1 g)
      { mgmtBegin q tag s with hqe.groups := s.hqe.groups ++ [{ id := g, mine := true, change := false }] }))) := by
  change execAnaGroupSet q tag g 0 false s = _
  rw [execAnaGroupSet, live_of_not_halted hs, mgmtRun_of_ready hready, checks_pass]
  · rfl
  · simpa [Nat.ne_of_gt hg, hgMax, hup, hgroup] using hres

theorem exec_anaGroupSet_delete {x : AnaGroup} (hgroup : groupOf g s = some x) (hmine : x.mine = true)
    (hempty : s.hqe.ns.any (fun x => x.group == g) = false) :
    exec (.anaGroupSet q tag g 1 false) s = .next (mgmtPost q tag stSuccess 0 (systemClause 0 (sendTroys (.nsRequest 1 g)
      { mgmtBegin q tag s with hqe.groups := s.hqe.groups.filter fun x => x.id != g }))) := by
  change execAnaGroupSet q tag g 1 false s = _
  rw [execAnaGroupSet, live_of_not_halted hs, mgmtRun_of_ready hready, checks_pass]
  · rfl
  · simpa [Nat.ne_of_gt hg, hgMax, hup, hgroup, hmine] using hempty

end

end

/-- Settles O25: the checks of R232 pass one after the other (`checks_pass`), and the command does its own part. -/
theorem namespacesAndGroupsAreManaged : Obligations.NamespacesAndGroupsAreManaged :=
  ⟨fun _ _ _ _ _ hs => exec_nsCreate_fit hs, fun _ _ _ _ _ hs => exec_nsDelete_owned hs,
   fun _ _ _ _ _ hs => exec_nsModify_growth hs,
   fun _ _ _ _ hs hready hg hgMax hgroup hup hres => exec_anaGroupSet_create hs hready hg hgMax hup hgroup hres,
   fun _ _ _ _ _ hs hready hg hgMax hgroup hmine hup hempty =>
     exec_anaGroupSet_delete hs hready hg hgMax hup hgroup hmine hempty⟩

end Sys2Proof.Machine
end

section
/-! Key slots: loading, purging and restoring keys (R340–R349). -/

namespace Sys2Proof.Machine

/-! What a key operation reads of the slots and leaves of them. -/

@[simp] theorem keySlot_mgmtBegin (k n q tag : Nat) (s : State) : keySlot k n (mgmtBegin q tag s) = keySlot k n s := rfl
@[simp] theorem keyGen_mgmtBegin (k n q tag : Nat) (s : State) : keyGen k n (mgmtBegin q tag s) = keyGen k n s := rfl
@[simp] theorem keyUsers_mgmtBegin (h q tag : Nat) (s : State) : keyUsers h (mgmtBegin q tag s) = keyUsers h s := rfl
@[simp] theorem runsAlone_mgmtBegin (q tag : Nat) (s : State) : runsAlone (mgmtBegin q tag s) = runsAlone s := rfl
@[simp] theorem planeDown_mgmtBegin (p : Plane) (q tag : Nat) (s : State) :
    planeDown p (mgmtBegin q tag s) = planeDown p s := rfl

@[simp] theorem setKeyTbl_gens (k : Nat) (t : Tbl KeySlot) (s : State) : (setKeyTbl k t s).cry.gens = s.cry.gens := by
  unfold setKeyTbl
  split_ifs <;> rfl

/-- Storing a key puts its slot into the next generation (R340). -/
@[simp] theorem keyGen_keyStore_self (b : KeyLoadBody) (k : List Byte) (s : State) :
    keyGen b.kind b.slot (keyStore b k s) = nextGen (keyGen b.kind b.slot s) := by
  rw [keyGen, keyStore, setKeyTbl_gens, tget_tset_self]

/-- Restoring a data key leaves the dedup keys as they are. -/
theorem restoreSlot_data_dedup (n : Nat) (s : State) : (restoreSlot 0 n s).cry.dedup = s.cry.dedup := by
  unfold restoreSlot
  repeat' split
  all_goals simp [setKeyTbl]

/-! KEY_LOAD. -/

/-- The own check of a data or dedup key looks at the key slots alone. -/
theorem keyCheck_congr {b : KeyLoadBody} {s t : State} (hkind : b.kind ≠ 2) (hcry : t.cry = s.cry) :
    keyCheck b t = keyCheck b s := by
  simp [keyCheck, wrapKeyOf, keySlot, keyTbl, hkind, hcry]

theorem keyCheck_full {b : KeyLoadBody} {k : KeySlot} {s : State} (hslot : keySlot b.kind b.slot s = some k) :
    keyCheck b s = (stSlotBusy, []) := by
  simp [keyCheck, hslot]

/-- A pair's head tells the peer of the load; a head alone has none to tell (R343). -/
def keyLoadTold (b : KeyLoadBody) (s : State) : State :=
  if runsAlone s then s else sendTroys (.keyLoad b.kind b.slot) s

@[simp] theorem keyLoadTold_cry (b : KeyLoadBody) (s : State) : (keyLoadTold b s).cry = s.cry := by
  unfold keyLoadTold
  split <;> simp

@[simp] theorem keyGen_keyLoadTold (k n : Nat) (b : KeyLoadBody) (s : State) :
    keyGen k n (keyLoadTold b s) = keyGen k n s := by
  rw [keyGen, keyGen, keyLoadTold_cry]

theorem keyLoadTold_alone {b : KeyLoadBody} {s : State} (h : runsAlone s = true) : keyLoadTold b s = s := by
  rw [keyLoadTold, if_pos h]

theorem keyLoadTold_pair {b : KeyLoadBody} {s : State} (h : runsAlone s = false) :
    keyLoadTold b s = sendTroys (.keyLoad b.kind b.slot) s := by
  rw [keyLoadTold, h, if_neg Bool.false_ne_true]

/-- The end of a load that the peer accepts: the own check's status, or the stored key's new handle (R343, R347). -/
def keyLoadEnd (q tag : Nat) (b : KeyLoadBody) (c : Nat × List Byte) (s : State) : State :=
  if c.1 = stAuthFailed then mgmtPost q tag stAuthFailed 0 (note .cry E.cryUnwrapFail 0xFF s)
  else if c.1 = stKeyWeak then mgmtPost q tag stKeyWeak 0 (note .cry E.cryKeyWeak 0xFF s)
  else if c.1 = stSuccess then
    mgmtPost q tag stSuccess (handleOf b.kind b.slot (nextGen (keyGen b.kind b.slot s))) (keyStore b c.2 s)
  else mgmtPost q tag c.1 0 s

theorem keyLoadEnd_busy (q tag : Nat) (b : KeyLoadBody) (s : State) :
    keyLoadEnd q tag b (stSlotBusy, []) s = mgmtPost q tag stSlotBusy 0 s := rfl

/-- An Empty slot under a loaded wrap key: the load ends by what the unwrapping gives (R344, R347). -/
theorem keyLoadEnd_empty {b : KeyLoadBody} {w : List Byte} {s : State} (hkind : b.kind ≠ 2)
    (hslot : keySlot b.kind b.slot s = none) (hw : wrapKeyOf b s = some w) (q tag : Nat) (t : State) :
    keyLoadEnd q tag b (keyCheck b s) t = match Config.kwUnwrap w b.wrapped with
      | none => mgmtPost q tag stAuthFailed 0 (note .cry E.cryUnwrapFail 0xFF t)
      | some k => if weakKey b k then mgmtPost q tag stKeyWeak 0 (note .cry E.cryKeyWeak 0xFF t)
        else mgmtPost q tag stSuccess (handleOf b.kind b.slot (nextGen (keyGen b.kind b.slot t))) (keyStore b k t) := by
  simp only [keyCheck, hslot, hkind, hw, Option.isSome_none, Bool.false_eq_true, if_false, decide_false, Bool.false_and]
  cases Config.kwUnwrap w b.wrapped with
  | none => rfl
  | some k =>
    dsimp only
    cases weakKey b k <;> rfl

section
variable {q tag ps : Nat} {b : KeyLoadBody} {s : State} (hs : halted s = false)
  (hready : mgmtReady q tag 0x0040 s = true) (hbody : keyBodyOk b = true) (hkind : b.kind ≠ 2)
  (hred : planeDown .reduction s = false)
include hs hready hbody hkind hred

/-- A load that its peer, if there is one, is told of and accepts ends as the own check says. -/
theorem exec_keyLoad_accepted (hpeer : runsAlone s = true ∨ troysUp s = true ∧ ps = stSuccess) :
    exec (.keyLoad q tag b ps) s = .next (keyLoadEnd q tag b (keyCheck b s) (keyLoadTold b (mgmtBegin q tag s))) := by
  have hup : (!runsAlone s && !troysUp s) = false := by
    obtain halone | ⟨hup, -⟩ := hpeer
    · simp [halone]
    · simp [hup]
  have htold : (if b.kind != 2 && !runsAlone (mgmtBegin q tag s) then
      sendTroys (.keyLoad b.kind b.slot) (mgmtBegin q tag s) else mgmtBegin q tag s) = keyLoadTold b (mgmtBegin q tag s) := by
    cases halone : runsAlone s <;> simp [keyLoadTold, halone, hkind]
  have hstatus : (b.kind != 2 && !runsAlone (keyLoadTold b (mgmtBegin q tag s)) && ps != stSuccess) = false := by
    obtain halone | ⟨-, hps⟩ := hpeer
    · simp [keyLoadTold, halone]
    · simp [hps]
  have hcheck : keyCheck b (keyLoadTold b (mgmtBegin q tag s)) = keyCheck b s := keyCheck_congr hkind (by simp)
  change execKeyLoad q tag b ps s = _
  rw [execKeyLoad, live_of_not_halted hs, mgmtRun_of_ready hready, checks_pass]
  · simp only [if_neg hkind, htold, hcheck]
    generalize keyLoadTold b (mgmtBegin q tag s) = t at hstatus ⊢
    obtain ⟨st, k⟩ := keyCheck b s
    by_cases hauth : st = stAuthFailed
    · subst hauth; rfl
    by_cases hweak : st = stKeyWeak
    · subst hweak; rfl
    by_cases hok : st = stSuccess
    · subst hok
      simp only [keyLoadEnd, hauth, hweak, hstatus, bne_self_eq_false, Bool.false_eq_true, if_false, if_true,
        keyGen_keyStore_self]
    · simp [keyLoadEnd, hauth, hweak, hok]
  · simpa [hbody, hkind, hred] using hup

theorem exec_keyLoad_empty {w : List Byte} {u : State} (hpeer : runsAlone s = true ∨ troysUp s = true ∧ ps = stSuccess)
    (hslot : keySlot b.kind b.slot s = none) (hw : wrapKeyOf b s = some w)
    (hu : keyLoadTold b (mgmtBegin q tag s) = u) :
    exec (.keyLoad q tag b ps) s = .next (match Config.kwUnwrap w b.wrapped with
      | none => mgmtPost q tag stAuthFailed 0 (note .cry E.cryUnwrapFail 0xFF u)
      | some k => if weakKey b k then mgmtPost q tag stKeyWeak 0 (note .cry E.cryKeyWeak 0xFF u)
        else mgmtPost q tag stSuccess (handleOf b.kind b.slot (nextGen (keyGen b.kind b.slot s))) (keyStore b k u)) := by
  subst hu
  rw [exec_keyLoad_accepted hs hready hbody hkind hred hpeer, keyLoadEnd_empty hkind hslot hw, keyGen_keyLoadTold,
    keyGen_mgmtBegin]

theorem exec_keyLoad_full {k : KeySlot} (halone : runsAlone s = true) (hslot : keySlot b.kind b.slot s = some k) :
    exec (.keyLoad q tag b ps) s = .next (mgmtPost q tag stSlotBusy 0 (mgmtBegin q tag s)) := by
  have htold : keyLoadTold b (mgmtBegin q tag s) = mgmtBegin q tag s := keyLoadTold_alone halone
  rw [exec_keyLoad_accepted hs hready hbody hkind hred (.inl halone), keyCheck_full hslot, htold, keyLoadEnd_busy]

end

/-! KEY_PURGE and PURGE_DRAINED. -/

theorem exec_keyPurge_unused {q tag h : Nat} {k : KeySlot} {s : State} (hs : halted s = false)
    (hready : mgmtReady q tag 0x0041 s = true) (hkind : hKind h = 0) (hh : h ≠ 0) (hred : planeDown .reduction s = false)
    (halone : runsAlone s = true) (hgen : keyGen 0 (hSlot h) s = hGen h) (hslot : keySlot 0 (hSlot h) s = some k)
    (hst : k.st ≠ .purging) (husers : keyUsers h s = 0) :
    exec (.keyPurge q tag h) s = .next (startPurge 0 (hSlot h) (some (q, tag)) none (mgmtBegin q tag s)) := by
  change execKeyPurge q tag h s = _
  rw [execKeyPurge, live_of_not_halted hs, mgmtRun_of_ready hready, checks_pass]
  · simp [hkind, hslot, hst, husers, halone]
  · simp [hkind, hh, hred, halone, hgen]

theorem exec_keyPurge_staleWrapKey {q tag h : Nat} {s : State} (hs : halted s = false)
    (hready : mgmtReady q tag 0x0041 s = true) (hkind : hKind h = 2) (hgen : keyGen 2 (hSlot h) s ≠ hGen h) :
    exec (.keyPurge q tag h) s = .next (mgmtPost q tag stHandleStale 0 (mgmtBegin q tag s)) := by
  change execKeyPurge q tag h s = _
  rw [execKeyPurge, live_of_not_halted hs, mgmtRun_of_ready hready]
  simp [checks, hkind, hgen]

/-- The slot of a data or wrap key that is purging empties: no lane is said to use such a key (R349). -/
theorem exec_purgeDrained_purging {k n : Nat} {x : KeySlot} {s : State} (hs : halted s = false) (hkind : k = 0 ∨ k = 2)
    (hslot : keySlot k n s = some x) (hst : x.st = .purging) :
    let mine := fun (p : Purge) => p.kind == k && p.slot == n
    let t := setKeyTbl k (terase (keyTbl k s) n) { s with cry.purges := s.cry.purges.filter fun p => !mine p }
    exec (.purgeDrained k n) s = .next (forEach ((s.cry.purges.filter mine).filterMap (·.mgmt))
      (fun p t => mgmtPost p.1 p.2 stSuccess 0 t) (setInt .cry I.cryPurgeDone t)) := by
  have hdedup : (k == 1) = false := by
    obtain rfl | rfl := hkind <;> rfl
  change execPurgeDrained k n s = _
  rw [execPurgeDrained, live_of_not_halted hs]
  simp [hdedup, hslot, hst]

/-! KEY_RESTORE. -/

/-- One data key waits for its wrap key and no dedup key is there: the restore unwraps that key's copy (R342). -/
theorem exec_keyRestore_dataKey {n : Nat} {x : KeySlot} {w : List Byte × Nat} {s : State} (hs : halted s = false)
    (hred : planeDown .reduction s = false) (hdata : s.cry.data = [(n, x)]) (hdedup : s.cry.dedup = [])
    (hst : x.st = .restorePending) (hstored : x.stored = some w) (hwrap : (keySlot 2 w.2 s).isSome = true) :
    exec .keyRestore s = .next (setInt .cry I.cryRestoreDone (restoreSlot 0 n s)) := by
  change execKeyRestore s = _
  rw [execKeyRestore, live_of_not_halted hs]
  simp [hred, hdata, hdedup, hst, hstored, hwrap, forEach, restoreSlot_data_dedup]

/-- Settles O29: a load ends by its own check (`exec_keyLoad_accepted`), the other commands take one clause each. -/
theorem keysAreLoadedPurgedAndRestored : Obligations.KeysAreLoadedPurgedAndRestored :=
  ⟨fun _ _ _ _ _ _ hs hready hbody hkind hred halone hslot hw =>
     exec_keyLoad_empty hs hready hbody hkind hred (.inl halone) hslot hw (keyLoadTold_alone halone),
   fun _ _ _ _ _ hs hready hbody hkind hred hpair hup hslot hw =>
     exec_keyLoad_empty hs hready hbody hkind hred (.inr ⟨hup, rfl⟩) hslot hw (keyLoadTold_pair hpair),
   fun _ _ _ _ _ _ hs hready hbody hkind hred => exec_keyLoad_full hs hready hbody hkind hred,
   fun _ _ _ _ _ hs => exec_keyPurge_unused hs,
   fun _ _ _ _ hs hready hkind _ => exec_keyPurge_staleWrapKey hs hready hkind,
   fun _ _ _ _ hs => exec_purgeDrained_purging hs, fun _ _ _ _ hs => exec_keyRestore_dataKey hs⟩

end Sys2Proof.Machine
end

section
/-! The digest engine: jobs in their contexts, expiry and alarms (R356–R377). -/

namespace Sys2Proof.Machine

/-! What the engine's shared operations leave of the contexts and rings. -/

@[simp] theorem restartUnits_dge (p : DestUnit → Bool) (s : State) : (restartUnits p s).dge = s.dge := by
  simp [restartUnits]

@[simp] theorem secAlarm_dge (n : Nat) (s : State) : (secAlarm n s).dge = s.dge := by
  simp [secAlarm]

@[simp] theorem dgeRec_dge (ring : Nat) (d : DgeDesc) (n status flags bytes : Nat) (s : State) :
    (dgeRec ring d n status flags bytes s).dge = s.dge := by
  simp [dgeRec]

@[simp] theorem ctxDrop_ctx (n why : Nat) (s : State) : (ctxDrop n why s).dge.ctx = terase s.dge.ctx n := rfl
@[simp] theorem ctxOpen_first (ring n : Nat) (d : DgeDesc) (s : State) : (ctxOpen ring n d s).dge.first = s.dge.first := rfl
@[simp] theorem ctxFree_incF (f : Fld) (s : State) : ctxFree (incF f s) = ctxFree s := by
  simp [ctxFree]

/-! DGE_JOB. -/

theorem jobTry_first_invalid {r : Nat} {d : DgeDesc} {s : State} (hfirst : d.first = true)
    (hbad : jobInvalid d d.alg = true) : jobTry r d s = dgeRec r d d.ctx 7 0 0 s := by
  rw [jobTry, if_pos hfirst, if_pos hbad]

theorem jobTry_first_free {r n : Nat} {d : DgeDesc} {s : State} (hfirst : d.first = true)
    (hok : jobInvalid d d.alg = false) (hfree : ctxFree s = some n) : jobTry r d s = ctxOpen r n d s := by
  simp [jobTry, hfirst, hok, hfree]

/-- The ring's TAIL and HEAD move past a job that DGE looks at (R356). -/
def jobFetched (r : Nat) (s : State) : State := incF (F.dgeRingwHead r) (incF (F.dgeRingwTail r) s)

@[simp] theorem jobFetched_dge (r : Nat) (s : State) : (jobFetched r s).dge = s.dge := by
  simp [jobFetched]

@[simp] theorem ctxFree_jobFetched (r : Nat) (s : State) : ctxFree (jobFetched r s) = ctxFree s := by
  simp [jobFetched]

/-- A job that does not wait in its ring leaves the count of waiting jobs alone (R359). -/
theorem exec_dgeJob_looked {r : Nat} {d : DgeDesc} {s : State} (hs : halted s = false) (hr : r < 3)
    (hrun : running .dge s = true) (hen : getF F.dgeCtrlJobEn s = 1)
    (hwait : (jobTry r d (jobFetched r s)).dge.first = s.dge.first) :
    exec (.dgeJob r d) s = .next (dgeRun (jobTry r d (jobFetched r s))) := by
  change execDgeJob r d s = _
  rw [execDgeJob, live_of_not_halted hs, if_neg (by simp [hr, hrun, onF_eq_true hen])]
  simp only [jobFetched] at hwait ⊢
  simp [hwait]

theorem exec_dgeJob_first_invalid {r : Nat} {d : DgeDesc} {s : State} (hs : halted s = false) (hr : r < 3)
    (hrun : running .dge s = true) (hen : getF F.dgeCtrlJobEn s = 1) (hfirst : d.first = true)
    (hbad : jobInvalid d d.alg = true) :
    exec (.dgeJob r d) s = .next (dgeRun (dgeRec r d d.ctx 7 0 0 (jobFetched r s))) := by
  have htry := jobTry_first_invalid (r := r) (s := jobFetched r s) hfirst hbad
  rw [exec_dgeJob_looked hs hr hrun hen (by simp [htry]), htry]

theorem exec_dgeJob_first_free {r n : Nat} {d : DgeDesc} {s : State} (hs : halted s = false) (hr : r < 3)
    (hrun : running .dge s = true) (hen : getF F.dgeCtrlJobEn s = 1) (hfirst : d.first = true)
    (hok : jobInvalid d d.alg = false) (hfree : ctxFree s = some n) :
    exec (.dgeJob r d) s = .next (dgeRun (ctxOpen r n d (jobFetched r s))) := by
  have htry := jobTry_first_free (r := r) hfirst hok ((ctxFree_jobFetched r s).trans hfree)
  rw [exec_dgeJob_looked hs hr hrun hen (by simp [htry]), htry]

/-! DGE_JOB_COMPLETE, DGE_QUANTUM_EXPIRY and DGE_CONTEXT_EXPIRY. -/

theorem exec_dgeJobComplete_busErr {n : Nat} {c : DgeCtx} {d : DgeDesc} {s : State} (data ex : List Byte) (i : Bool)
    (hs : halted s = false) (hc : ctxOf n s = some c) (hjob : c.job = some d) (hst : c.st = .active)
    (hrun : running .dge s = true) :
    exec (.dgeJobComplete n data ex true i) s = .next (dgeRun (dgeRec (c.owner - 1) d n 2 0 data.length
      (note .dge E.dgeBusErr 0xFF (ctxDrop n 0 s)))) := by
  change execDgeJobComplete n data ex true i s = _
  rw [execDgeJobComplete, live_of_not_halted hs, hc]
  simp [hjob, hst, hrun]

theorem exec_dgeJobComplete_whole {n : Nat} {c : DgeCtx} {d : DgeDesc} {data : List Byte} {s : State} (ex : List Byte)
    (hs : halted s = false) (hc : ctxOf n s = some c) (hjob : c.job = some d) (hst : c.st = .active)
    (hrun : running .dge s = true) (hlen : data.length = d.declLen) :
    exec (.dgeJobComplete n data ex false false) s = .next (dgeRun (jobEnd n c d data ex s)) := by
  change execDgeJobComplete n data ex false false s = _
  rw [execDgeJobComplete, live_of_not_halted hs, hc]
  simp [hjob, hst, hrun, hlen]

theorem exec_dgeQuantumExpiry_waiting {l n : Nat} {c : DgeCtx} {s : State} (hs : halted s = false)
    (hlane : s.dge.ctx.find? (fun c => c.2.lane == some l) = some (n, c)) (hrun : running .dge s = true)
    (hwait : jobWaiting s = true) :
    exec (.dgeQuantumExpiry l) s = .next (dgeRun (modCtx n
      (fun c => { c with st := .waiting, lane := none, since := s.now, susp := true })
      { count .dge 0x05 1 s with dge.wait := s.dge.wait ++ [n] })) := by
  change execDgeQuantumExpiry l s = _
  rw [execDgeQuantumExpiry, live_of_not_halted hs, hlane]
  simp [hrun, hwait]

theorem exec_dgeContextExpiry_due {n : Nat} {c : DgeCtx} {s : State} (hs : halted s = false) (hc : ctxOf n s = some c)
    (hst : c.st = .open_) (hlimit : getF F.dgeCfgOpenLimit s ≠ 0)
    (hdue : 1000000000 * getF F.dgeCfgOpenLimit s ≤ s.now - c.since) :
    exec (.dgeContextExpiry n) s = .next (dgeRun (setInt .dge I.dgeCtxExpired (ctxDrop n 8 s))) := by
  change execDgeContextExpiry n s = _
  rw [execDgeContextExpiry, live_of_not_halted hs]
  simp [hc, hst, hlimit, hdue]

/-! Alarms. -/

/-- The detectors' alarms set their own bit first; DGE's own, bit 3, is set by what it does (R387). -/
theorem exec_dgeAlarm_detector {k : Nat} {s : State} (hs : halted s = false) (hk : k < 3) :
    exec (.dgeAlarm k) s = .next (dgeRun (dgeAlarm (secAlarm k s))) := by
  change execDgeAlarm k s = _
  rw [execDgeAlarm, live_of_not_halted hs, if_neg (by omega), if_neg (by omega)]

theorem exec_dgeAlarm_own {s : State} (hs : halted s = false) :
    exec (.dgeAlarm 3) s = .next (dgeRun (dgeAlarm s)) := by
  change execDgeAlarm 3 s = _
  rw [execDgeAlarm, live_of_not_halted hs, if_neg (by omega), if_pos rfl]

theorem exec_glitchTrip_detector {k : Nat} {s : State} (hs : halted s = false) (hk : k < 3) :
    let u := dgeRun (dgeAlarm (secAlarm k (raise .sec E.secGlitch 0xFF s)))
    exec (.glitchTrip k) s = .next (mrTry 3 7 0x0030 (Config.freeBytes u.free 48) { u with free := u.free + 1 }) := by
  change execGlitchTrip k s = _
  rw [execGlitchTrip, live_of_not_halted hs, if_neg (by omega)]
  rfl

/-- Erasing an absent key changes no table. -/
theorem terase_of_tget?_none {α : Type} {t : Tbl α} {k : Nat} (h : tget? t k = none) : terase t k = t := by
  induction t with
  | nil => rfl
  | cons p r ih =>
    obtain ⟨k', v⟩ := p
    rw [tget?] at h
    split at h
    · contradiction
    next hne => rw [terase_cons, if_neg hne, ih h]

/-- A context cleared for an alarm is Free, with a job in it or without (R373). -/
theorem ctxAlarm_ctx (n : Nat) (s : State) : (ctxAlarm n s).dge.ctx = terase s.dge.ctx n := by
  unfold ctxAlarm
  split
  next hnone => exact (terase_of_tget?_none hnone).symm
  next => split <;> simp

/-- The contexts left after clearing those of a list are the ones that the list does not name. -/
theorem forEach_ctxAlarm_ctx (ns : List Nat) (s : State) :
    (forEach ns ctxAlarm s).dge.ctx = s.dge.ctx.filter fun p => !ns.contains p.1 := by
  induction ns generalizing s with
  | nil => simp [forEach]
  | cons n ns ih =>
    rw [show forEach (n :: ns) ctxAlarm s = forEach ns ctxAlarm (ctxAlarm n s) from rfl, ih, ctxAlarm_ctx, terase,
      List.filter_filter]
    congr 1
    funext p
    by_cases h : p.1 = n <;> simp [h]

/-- No context outlives an alarm, as it clears every one that is listed (R373). -/
theorem dgeAlarm_ctx (s : State) : (dgeAlarm s).dge.ctx = [] := by
  simp only [dgeAlarm, secAlarm_dge, note_frame, restartUnits_dge, forEach_ctxAlarm_ctx]
  rw [List.filter_eq_nil_iff]
  intro p hp
  simpa using ⟨p.2, hp⟩

/-- Settles O30: one command a clause, then what an alarm leaves (`dgeAlarm_ctx`). -/
theorem digestJobsRunInContexts : Obligations.DigestJobsRunInContexts :=
  ⟨fun _ _ _ hs => exec_dgeJob_first_invalid hs, fun _ _ _ _ hs => exec_dgeJob_first_free hs,
   fun _ _ _ data ex i _ => exec_dgeJobComplete_busErr data ex i,
   fun _ _ _ _ ex _ => exec_dgeJobComplete_whole ex, fun _ _ _ _ => exec_dgeQuantumExpiry_waiting,
   fun _ _ _ => exec_dgeContextExpiry_due, fun _ _ => exec_dgeAlarm_detector, fun _ => exec_dgeAlarm_own,
   fun _ _ => exec_glitchTrip_detector, dgeAlarm_ctx⟩

end Sys2Proof.Machine
end

section
/-! SUPPORT. The first entry of a list after it is replaced, and what a woken lane leaves. -/

namespace Sys2Proof.Machine

/-- The first entry that meets `p` is the one that `modFirst` has replaced, while it still meets `p`. -/
theorem find?_modFirst_self {α : Type} {p : α → Bool} {f : α → α} {l : List α} {x : α} (hx : l.find? p = some x)
    (hf : p (f x) = true) : (modFirst p f l).find? p = some (f x) := by
  induction l with
  | nil => simp at hx
  | cons y r ih =>
    rw [List.find?_cons] at hx
    rw [modFirst]
    cases hy : p y with
    | true =>
      obtain rfl : y = x := by simpa [hy] using hx
      simp [hf]
    | false => simpa [hy] using ih (by simpa [hy] using hx)

/-- Waking a lane writes nothing of the map and the bands. -/
@[simp] theorem wakeLane_ftu (b : Block) (ls : List Nat) (s : State) : (wakeLane b ls s).ftu = s.ftu := by
  unfold wakeLane
  split
  · rfl
  · split <;> simp

@[simp] theorem wakeLane_wb (b : Block) (ls : List Nat) (s : State) : (wakeLane b ls s).wb = s.wb :=
  (wakeLane_frame b ls s).2

end Sys2Proof.Machine
end

section
/-! The map cache: lookups, fills, write-back, way groups and replay (R397–R404). -/

namespace Sys2Proof.Machine

/-! Lookups. -/

/-- A page's record is the one put last, whichever other pages share its identity (R528). -/
theorem pageOf_putPage_self (x : MapPage) (s : State) : pageOf x.epoch x.nsid x.page (putPage x s) = some x := by
  unfold pageOf putPage
  dsimp only
  rw [List.find?_append]
  cases hf : List.find? _ _ with
  | none => simp
  | some y =>
    have hkey := List.find?_some hf
    obtain ⟨p, hp, rfl⟩ := List.mem_map.mp (List.mem_of_find?_eq_some hf)
    have hother := (List.mem_filter.mp hp).2
    by_cases hpid : p.pid == x.pid
    · obtain ⟨⟨hepoch, hnsid⟩, -⟩ : (p.epoch = x.epoch ∧ p.nsid = x.nsid) ∧ x.page = x.page := by
        simpa [hpid] using hkey
      simp [hpid, hepoch, hnsid]
    · simp only [hpid, Bool.false_eq_true, if_false] at hkey
      simp [hkey] at hother

/-- Noting the use of a page changes no entry of it: a page without entries stays one, and so does one with some. -/
theorem pageOf_touchPage_zero (epoch nsid page : Nat) (s : State) :
    (pageOf epoch nsid page (touchPage epoch nsid page s)).all (·.zero) = (pageOf epoch nsid page s).all (·.zero) := by
  unfold touchPage
  cases hp : pageOf epoch nsid page s with
  | none => simp only [hp]
  | some p =>
    have hkey := List.find?_some hp
    simp only [Bool.and_eq_true, beq_iff_eq] at hkey
    obtain ⟨⟨rfl, rfl⟩, rfl⟩ := hkey
    dsimp only
    rw [pageOf_putPage_self { p with used := s.now, loading := p.loading || (!p.resident && !p.zero) } s]
    rfl

/-- Noting the use of a page writes the page directory alone. -/
theorem touchPage_frame (epoch nsid page : Nat) (s : State) :
    (touchPage epoch nsid page s).regs = s.regs ∧ (touchPage epoch nsid page s).mca = s.mca := by
  unfold touchPage
  split <;> exact ⟨rfl, rfl⟩

/-- The count of lookups powers way groups and raises its interrupt; lines, pages and CACHE_EN stay (R403). -/
theorem lookupRate_frame (s : State) : (lookupRate s).ftu = s.ftu ∧ (lookupRate s).mca.lines = s.mca.lines ∧
    getF F.mcaCtrlCacheEn (lookupRate s) = getF F.mcaCtrlCacheEn s := by
  unfold lookupRate
  dsimp only
  generalize (if s.mca.rateAt = s.now / 1000 then s.mca.rateN + 1 else 1) = r
  split
  · exact ⟨rfl, rfl, rfl⟩
  · split
    · exact ⟨rfl, rfl, rfl⟩
    · exact ⟨by simp, by simp, getF_setInt_ne _ (by decide)⟩

/-- The state in which a lookup of a page is answered: counted, its rate and its page noted. -/
def lookedUp (epoch nsid page : Nat) (s : State) : State := touchPage epoch nsid page (lookupRate (count .mca 0x01 1 s))

theorem lookedUp_zero (epoch nsid page : Nat) (s : State) :
    (pageOf epoch nsid page (lookedUp epoch nsid page s)).all (·.zero) = (pageOf epoch nsid page s).all (·.zero) := by
  obtain ⟨hftu, -, -⟩ := lookupRate_frame (count .mca 0x01 1 s)
  rw [lookedUp, pageOf_touchPage_zero, pageOf, hftu, pageOf]
  simp

theorem lookedUp_lines (epoch nsid page : Nat) (s : State) : (lookedUp epoch nsid page s).mca.lines = s.mca.lines := by
  obtain ⟨-, hlines, -⟩ := lookupRate_frame (count .mca 0x01 1 s)
  rw [lookedUp, (touchPage_frame _ _ _ _).2, hlines]
  simp

theorem lookedUp_cacheEn (epoch nsid page : Nat) (s : State) :
    getF F.mcaCtrlCacheEn (lookedUp epoch nsid page s) = getF F.mcaCtrlCacheEn s := by
  obtain ⟨-, -, hen⟩ := lookupRate_frame (count .mca 0x01 1 s)
  rw [lookedUp, getF_of_regs (touchPage_frame _ _ _ _).1, hen, getF_count]

section
variable {n u : Nat} {s : State} (hs : halted s = false) (hserve : mcaServes s = true)
  (hbank : bankWaits (mcaBank 0 n (u / 8)) s = false)
include hs hserve hbank

/-- A lookup that waits for nothing is answered at once. -/
theorem exec_mcaLookup_open : exec (.mcaLookup 0 n u) s = .next (lookup 0 n u s) := by
  change execMcaLookup 0 n u s = _
  rw [execMcaLookup, live_of_not_halted hs, if_neg (by simp [hserve, hbank])]

theorem exec_mcaLookup_hit {l : McaLine} (hen : getF F.mcaCtrlCacheEn s = 1) (hline : mcaLine 0 n (u / 8) s = some l)
    (hpref : l.pref = false) (hvic : l.victim = false) (hzero : (pageOf 0 n (u / 512) s).all (·.zero) = false) :
    let t := touchPage 0 n (u / 512) (lookupRate (count .mca 0x01 1 s))
    exec (.mcaLookup 0 n u) s = .next (serveReads n (· == u) (count .mca 0x02 1
      { t with mca.lines := modFirst (isLine 0 n l.line) (fun l => { l with pref := false }) t.mca.lines })) := by
  have hen' : onF F.mcaCtrlCacheEn (lookedUp 0 n (u / 512) s) = true := onF_eq_true (by rw [lookedUp_cacheEn, hen])
  have hline' : mcaLine 0 n (u / 8) (lookedUp 0 n (u / 512) s) = some l := by rw [mcaLine, lookedUp_lines, ← mcaLine, hline]
  rw [exec_mcaLookup_open hs hserve hbank, lookup, ← lookedUp]
  simp only [lookedUp_zero, hzero, hen', hline', hpref, hvic, Bool.false_eq_true, if_false, Bool.not_true, if_true]

theorem exec_mcaLookup_noPage (hpage : pageOf 0 n (u / 512) s = none) : exec (.mcaLookup 0 n u) s =
    .next (serveReads n (· == u) (touchPage 0 n (u / 512) (lookupRate (count .mca 0x01 1 s)))) := by
  rw [exec_mcaLookup_open hs hserve hbank, lookup, ← lookedUp]
  simp only [lookedUp_zero, hpage, Option.all_none, if_true]

end

/-! Fills. -/

/-- A line is installed by changing lines alone: no miss and no read moves. -/
theorem toVictim_frame (l : McaLine) (s : State) :
    (toVictim l s).mca.misses = s.mca.misses ∧ (toVictim l s).wb = s.wb := by
  have hevict : ∀ v, (evictLine v s).mca.misses = s.mca.misses ∧ (evictLine v s).wb = s.wb := fun v => by
    unfold evictLine
    dsimp only
    split <;> simp [dropLine]
  unfold toVictim
  dsimp only
  split
  · exact hevict l
  · split
    · split
      · exact hevict _
      · exact ⟨rfl, rfl⟩
    · exact ⟨rfl, rfl⟩

theorem mcaInstall_frame (l : McaLine) (s : State) :
    (mcaInstall l s).mca.misses = s.mca.misses ∧ (mcaInstall l s).wb = s.wb := by
  unfold mcaInstall
  dsimp only
  split
  · exact ⟨rfl, rfl⟩
  · split
    · exact toVictim_frame _ s
    · split
      · exact toVictim_frame _ _
      · exact ⟨rfl, rfl⟩

theorem exec_mcaFill_outstanding {n l : Nat} {m : McaMiss} {s : State} (hs : halted s = false) (hserve : mcaServes s = true)
    (hm : s.mca.misses = [m]) (hepoch : m.epoch = 0) (hnsid : m.nsid = n) (hl : m.line = l) (hwait : m.waiting = false)
    (hdem : m.demand = true) (hline : mcaLine 0 n l s = none) (hreads : s.wb.reads = []) :
    exec (.mcaFill 0 n l) s = .next (mcaInstall
      { epoch := 0, nsid := n, line := l, dirty := none, way := 0, victim := false, pref := false }
      { s with mca.misses := [] }) := by
  have hline' : ∀ ms, mcaLine 0 n l { s with mca.misses := ms } = none := fun _ => hline
  change execMcaFill 0 n l s = _
  rw [execMcaFill, live_of_not_halted hs]
  simp [hserve, hm, hepoch, hnsid, hl, hwait, hdem, hline', serveReads, mcaInstall_frame, hreads, forEach]

/-! Write-back. -/

theorem exec_mcaCleaner_running {s : State} (hs : halted s = false) (hrun : running .mca s = true) :
    exec .mcaCleaner s = .next (cleanLines (fun l => l.dirty == some (mcaLow s)) s) := by
  change execMcaCleaner s = _
  rw [execMcaCleaner, live_of_not_halted hs, if_pos hrun]

@[simp] theorem cleanLines_mca (p : McaLine → Bool) (s : State) :
    (cleanLines p s).mca = { s.mca with lines := modAll p (fun l => { l with dirty := none }) s.mca.lines } := by
  simp [cleanLines]

/-- Once every line is written back, none is dirty (R402). -/
theorem cleanLines_all_clean (s : State) : ∀ l ∈ (cleanLines (fun _ => true) s).mca.lines, l.dirty = none := by
  simp [modAll]

/-- CACHE_EN clears and every dirty line is written back before the lookups that waited are answered (R402). -/
theorem exec_mcaCacheDisable {s : State} (hs : halted s = false) :
    ∃ f, exec .mcaCacheDisable s = .next (regWrite .mca f s) ∧ ∀ u, f u =
      forEach (u.mca.misses.filter fun m => m.demand && m.epoch == 0) (fun m t => serveReads m.nsid (fun x => x / 8 == m.line) t)
        { cleanLines (fun _ => true) (setF F.mcaCtrlCacheEn 0 u) with mca.lines := [], mca.misses := [] } :=
  ⟨_, live_of_not_halted hs _, fun _ => rfl⟩

/-! Way groups. -/

/-- Two register writes with the same effect on this state are the same write: a block that is closed discards both. -/
theorem regWrite_congr {b : Block} {f g : State → State} {s : State} (h : f s = g s) : regWrite b f s = regWrite b g s := by
  rw [regWrite, regWrite, h]

section
variable {g : Nat} {s : State} (hs : halted s = false) (hlo : 1 ≤ g) (hhi : g ≤ 3)
include hs hlo hhi

theorem exec_mcaGroupOff_powered (hbit : bit (getF F.mcaWaysGroupOn s) (g - 1) = true) (hon : s.mca.off.contains g = false) :
    exec (.mcaGroupOff g) s = .next (regWrite .mca (fun s => groupOff g
      (setF F.mcaWaysGroupOn (bclr (getF F.mcaWaysGroupOn s) (g - 1)) { s with mca.auto := s.mca.auto.filter (· != g) })) s) := by
  change execMcaGroupOff g s = _
  rw [execMcaGroupOff, live_of_not_halted hs, if_neg (by simp; omega)]
  refine congrArg _ (regWrite_congr ?_)
  simp only [hbit, setF_mca, hon, Bool.not_true, Bool.false_eq_true, if_false]

theorem exec_mcaGroupOn_gated (hoff : s.mca.off.contains g = true) (hh0 : getF F.pwcStatHstate s = 0) :
    exec (.mcaGroupOn g) s = .next (regWrite .mca (fun s => setInt .mca I.mcaGroupOn
      { setF F.mcaWaysGroupOn (bset (getF F.mcaWaysGroupOn s) (g - 1)) s with
        mca.off := s.mca.off.filter (· != g), mca.auto := s.mca.auto.filter (· != g) }) s) := by
  have hh0' : ∀ v, getF F.pwcStatHstate (setF F.mcaWaysGroupOn v s) = 0 := fun v => by
    rw [getF_setF_ne v s (by decide), hh0]
  change execMcaGroupOn g s = _
  rw [execMcaGroupOn, live_of_not_halted hs, if_neg (by simp; omega)]
  refine congrArg _ (regWrite_congr ?_)
  simp only [hh0', setF_mca, hoff, decide_true, Bool.true_or, Bool.and_self, if_true]

end

/-- A gated group is listed as gated and keeps no line of its own ways (R403). -/
theorem groupOff_gates (g : Nat) (s : State) :
    g ∈ (groupOff g s).mca.off ∧ ∀ l ∈ (groupOff g s).mca.lines, l.victim = true ∨ l.way / 4 ≠ g := by
  constructor
  · simp [groupOff]
  · intro l hl
    obtain ⟨-, hkept⟩ : _ ∧ (l.victim = true ∨ ¬l.way / 4 = g) := by simpa [groupOff] using hl
    exact hkept

theorem exec_mcaAutoGate_idle {s : State} (hs : halted s = false) (hoff : s.mca.off = []) (hrun : running .mca s = true)
    (hauto : getF (H.pwrAuto .mca) s = 1) (hidle : 10000000 ≤ s.now - s.mca.busyAt) :
    exec .mcaAutoGate s = .next (groupOff 3 { s with mca.auto := s.mca.auto ++ [3], mca.busyAt := s.now }) := by
  change execMcaAutoGate s = _
  rw [execMcaAutoGate, live_of_not_halted hs]
  simp [hoff, hrun, onF_eq_true hauto, hidle]

/-! Replay. -/

theorem exec_mcaResetReplay_pending {k : Nat} {s : State} (hs : halted s = false) (hrep : s.mca.replay = some k)
    (hrun : running .ftu s = true) : exec .mcaResetReplay s = .next { s with mca.replay := none } := by
  change execMcaResetReplay s = _
  rw [execMcaResetReplay, live_of_not_halted hs, if_pos (by simp [hrep, hrun])]

/-- Settles O32: `lookedUp` is the state in which a lookup is answered, each other clause is one command's. -/
theorem mapCacheLooksUpFillsAndCleans : Obligations.MapCacheLooksUpFillsAndCleans :=
  ⟨fun _ _ _ _ hs hserve hbank => exec_mcaLookup_hit hs hserve hbank,
   fun _ _ _ => exec_mcaLookup_noPage, fun _ _ _ _ => exec_mcaFill_outstanding, fun _ => exec_mcaCleaner_running,
   cleanLines_all_clean, fun _ _ => exec_mcaGroupOff_powered, groupOff_gates, fun _ _ => exec_mcaGroupOn_gated,
   fun _ => exec_mcaAutoGate_idle, fun _ => exec_mcaCacheDisable, fun _ _ => exec_mcaResetReplay_pending⟩

end Sys2Proof.Machine
end

section
/-! Bands and free space: opening, sealing, extents, collection's start and failures (R415–R439, R447). -/

namespace Sys2Proof.Machine

/-! Opening. -/

section
variable {c : Nat} {s : State} (hs : halted s = false) (hrun : running .ftu s = true) (hc : c < 8)
  (hon : classOn c s = true) (hopen : openBand c false false s = none) (hroom : jrnlRoom s = true)
include hs hrun hc hon hopen hroom

theorem exec_bandOpen_fits {d p k no : Nat} (hd : classD c s = d) (hp : classP c s = p) (hk : classK d s = k)
    (hmin : minD p ≤ d) (hmem : d + p ≤ (eligible k s).length) (hfree : freeBand s = some no) :
    exec (.bandOpen c false false) s = .next (packAll (openNew no c d p k false false
      (((eligible k s).take (d + p)).mergeSort (· ≤ ·)) { s with par.blocked := s.par.blocked.filter (· != c) })) := by
  have hwidth : min d ((eligible k s).length - p) = d := Nat.min_eq_left (Nat.le_sub_of_add_le hmem)
  change execBandOpen c false false s = _
  rw [execBandOpen, live_of_not_halted hs, if_neg (by simp [hrun, hc, hon, hopen, hroom])]
  simp only [hd, hp, hk, hwidth, Nat.lt_irrefl, if_false, Nat.not_lt.mpr hmin, hfree]

theorem exec_bandOpen_blocked
    (hfew : (eligible (classK (classD c s) s) s).length < minD (classP c s) + classP c s)
    (hmin : minD (classP c s) ≤ classD c s) : exec (.bandOpen c false false) s =
      .next (let t := if (eligible (classK (classD c s) s) s).length - classP c s < classD c s then note .par E.parNarrow 0xFF s else s
      note .par E.parClassBlocked 0xFF { t with par.blocked := t.par.blocked.filter (· != c) ++ [c] }) := by
  have hpos : 0 < minD (classP c s) := by unfold minD; split <;> decide
  have hnarrow : (eligible (classK (classD c s) s) s).length - classP c s < minD (classP c s) := by omega
  have hwidth : min (classD c s) ((eligible (classK (classD c s) s) s).length - classP c s) =
      (eligible (classK (classD c s) s) s).length - classP c s := by omega
  change execBandOpen c false false s = _
  rw [execBandOpen, live_of_not_halted hs, if_neg (by simp [hrun, hc, hon, hopen, hroom])]
  simp only [hwidth, if_pos hnarrow]

end

/-! Sealing. -/

section
variable {n : Nat} {b : Band} {s : State} (hs : halted s = false) (hb : bandOf n s = some b)
  (hrun : running .ftu s = true) (hmine : b.mine = true) (hst : b.st = .open_)
include hs hb hrun hmine hst

theorem exec_bandSeal_last (hlast : lastClosed b s = true) : exec (.bandSeal n false) s =
    .next (sealBand n false (forEach ((s.par.stripes.filter fun x => x.band == n && !x.closed).map (·.no))
      (fun k t => closeStripe n k false t) s)) := by
  change execBandSeal n false s = _
  rw [execBandSeal, live_of_not_halted hs, hb]
  simp [hrun, hmine, hst, hlast]

theorem exec_bandSeal_early (hwhy : b.reloc = true ∨ s.pwc.stopping = true) :
    exec (.bandSeal n true) s = .next (sealBand n true s) := by
  change execBandSeal n true s = _
  rw [execBandSeal, live_of_not_halted hs, hb]
  simp [hrun, hmine, hst, hwhy]

end

/-! Space. -/

theorem exec_extentRequest_granted {m e : Nat} {s : State} (hs : halted s = false) (hrun : running .ftu s = true)
    (hst : (memOf m s).st = .present) (hfew : (freeBlocks m s).length < 512) (hup : troysUp s = true)
    (hroom : jrnlRoom s = true) (hown : ownsExtent m e (sendTroys (.extentRequest m) s) = false)
    (hin : e * 256 < (recOf m s).elim 0 blockCount) : exec (.extentRequest m (some e)) s =
      .next (clause (mkClause cExtent 0 0 m e s.pins.headSel) (sendTroys (.extentRequest m) s)) := by
  have hrec : recOf m (sendTroys (.extentRequest m) s) = recOf m s := by simp [recOf]
  change execExtentRequest m (some e) s = _
  rw [execExtentRequest, live_of_not_halted hs]
  simp [hrun, hst, Nat.not_le.mpr hfew, hup, hroom, hown, hrec, Nat.not_le.mpr hin]

/-- The state of FTU is no register. -/
theorem getF_ftu (f : Fld) (x : FtuState) (s : State) : getF f { s with ftu := x } = getF f s := rfl

theorem exec_freeSpaceEval_starts {s : State} (hs : halted s = false) (hrun : running .ftu s = true)
    (hoff : s.ftu.gcOn = false) (hlow : freePm s < getF F.ftuSpaceStartPct s * 10) :
    ∃ t, exec .freeSpaceEval s = .next t ∧ t.ftu.gcOn = true := by
  refine ⟨_, live_of_not_halted hs _, ?_⟩
  simp [hrun, hoff, hlow]

/-- SPACE_LOW is recorded when admission stops, and nothing that follows clears it (R420). -/
theorem exec_freeSpaceEval_stops {s : State} (hs : halted s = false) (hrun : running .ftu s = true)
    (hadmit : s.ftu.admitStop = false) (hlow : freePm s < getF F.ftuSpaceAdmitResPct s * 10) :
    ∃ t, exec .freeSpaceEval s = .next t ∧ t.ftu.admitStop = true ∧
      bit (getF (H.errStat .ftu) t) E.ftuSpaceLow = true := by
  have hurgent : ∀ c : Bool, (if c then note .ftu E.ftuGcUrgent 0xFF s else s).ftu = s.ftu := fun c => by
    cases c <;> simp
  refine ⟨_, live_of_not_halted hs _, ?_⟩
  simp only [hrun, hurgent, hadmit, decide_eq_true hlow, Bool.not_true, Bool.not_false, Bool.false_eq_true, Bool.and_self,
    if_false, if_true, true_and, getF_ftu]
  exact bit_errStat_note _ _ (by decide) (by decide)

/-! Failures that a member reports. -/

theorem exec_programFail_program {m k b n pos : Nat} {c : YmCmd} {s : State} (hs : halted s = false)
    (hc : s.mods.cmds.find? (fun c => c.m == m && c.block == k && c.opc == 3) = some c) (hfor : c.for_ = .program b n pos) :
    exec (.programFail m k) s = .next (chunkFail b n pos (ymEnd c s)) := by
  change execProgramFail m k s = _
  rw [execProgramFail, live_of_not_halted hs, hc]
  simp only [hfor]

theorem exec_eraseFail_erase {m k : Nat} {c : YmCmd} {s : State} (hs : halted s = false)
    (hc : s.mods.cmds.find? (fun c => c.m == m && c.block == k && c.opc == 4) = some c) :
    exec (.eraseFail m k) s = .next (note .ftu E.ftuEraseFail 0xFF (retireBlk m k 2 (ymEnd c s))) := by
  change execEraseFail m k s = _
  rw [execEraseFail, live_of_not_halted hs, hc]

/-- Settles O34: one command a clause. -/
theorem bandsOpenSealAndKeepSpace : Obligations.BandsOpenSealAndKeepSpace :=
  ⟨fun _ _ _ _ _ _ hs hrun hc hon hopen hroom => exec_bandOpen_fits hs hrun hc hon hopen hroom,
   fun _ _ => exec_bandOpen_blocked, fun _ _ _ => exec_bandSeal_last, fun _ _ _ => exec_bandSeal_early,
   fun _ _ _ => exec_extentRequest_granted, fun _ => exec_freeSpaceEval_starts, fun _ => exec_freeSpaceEval_stops,
   fun _ _ _ _ _ _ _ => exec_programFail_program, fun _ _ _ _ => exec_eraseFail_erase⟩

end Sys2Proof.Machine
end

section
/-! Collection: victims, relocation, erases and forwarded entries (R416–R433, R444). -/

namespace Sys2Proof.Machine

/-! Victims. -/

section
variable {n : Nat} {b : Band} {s : State} (hs : halted s = false) (hrun : running .ftu s = true)
  (hen : getF F.ftuCtrlGcEn s = 1) (hbg : bgOk s = true) (hq : s.ftu.relocQ.head? = some n) (hb : bandOf n s = some b)
include hs hrun hen hbg hq hb

theorem exec_gcVictimSelect_sealed (hst : b.st = .sealed_) (hquiet : bandQuiet n s = true) :
    exec .gcVictimSelect s = .next (collect n false s) := by
  change execGcVictimSelect s = _
  rw [execGcVictimSelect, live_of_not_halted hs, if_neg (by simp [hrun, onF_eq_true hen, hbg])]
  simp [hq, hb, hst, hquiet]

theorem exec_gcVictimSelect_open (hst : b.st = .open_) : exec .gcVictimSelect s = .next (sealBand n true s) := by
  change execGcVictimSelect s = _
  rw [execGcVictimSelect, live_of_not_halted hs, if_neg (by simp [hrun, onF_eq_true hen, hbg])]
  simp only [hq, hb, if_pos hst]

end

/-- A band's record after its change, which keeps its number. -/
theorem bandOf_modBand_self {n : Nat} {b : Band} {f : Band → Band} {s : State} (hb : bandOf n s = some b)
    (hno : (f b).no = b.no) : bandOf n (modBand n f s) = some (f b) :=
  find?_modFirst_self hb (by rw [hno]; exact List.find?_some (p := fun x : Band => x.no == n) hb)

/-- A band without live units is Collecting at once, and no read is issued for it (R424). -/
theorem collect_empty {n : Nat} {b : Band} {s : State} (hb : bandOf n s = some b) (hlive : liveIn n s = []) :
    ∃ c, bandOf n (collect n false s) = some c ∧ c.st = .collecting := by
  unfold collect
  rw [hlive]
  exact ⟨_, bandOf_modBand_self hb rfl, rfl⟩

/-! Relocation. -/

theorem exec_relocate_programmed {n i o w : Nat} {re : Bool} {d : DestUnit} {s : State} (hs : halted s = false)
    (hd : s.wb.units.find? (fun d => d.src == .gc o re && d.nsid == n && d.unit == i && d.uaddr == w && d.stage == .clause) =
      some d)
    (hrun : running .ftu s = true) (hband : uBand w ≠ 0) (hprog : programmed w s = true) (hroom : jrnlRoom s = true)
    (hmca : s.ftu.csnext ≤ mcaLow s + 4096) (hgc : gcOf (uBand o) s = none) (hfpt : fptOf o s = none) :
    let t := clause (mkClause cRelocate (b2n (sharedUnit o s) + 4 * b2n re) n i o w) s
    exec (.relocate n i o w re) s = .next (dropUnit d.id { t with
      ftu.gcs := t.ftu.gcs.map fun g => if g.band = uBand o then { g with units := g.units.filter (· != o) } else g }) := by
  change execRelocate n i o w re s = _
  rw [execRelocate, live_of_not_halted hs, hd]
  simp [hrun, hband, hprog, hroom, Nat.not_lt.mpr hmca, hgc, hfpt]

/-! Erases. -/

section
variable {n : Nat} {b : Band} {s : State} (hs : halted s = false) (hb : bandOf n s = some b) (hrun : running .ftu s = true)
include hs hb hrun

theorem exec_erasePending_unneeded (hst : b.st = .collecting) (hgc : (gcOf n s).isSome = true) (hlive : liveIn n s = [])
    (hneed : bandNeeded n s = false) (hquiet : bandQuiet n s = true) (hroom : jrnlRoom s = true) :
    let t := modBand n (fun b => { b with st := .erasing }) (clause (mkClause cErasePending 0 0 n 0 0) s)
    exec (.erasePending n) s = .next (forEach (eraseList b s)
      (fun e t => ymSend (ymCmd e.1 4 e.2 0 0 0 (.erase n)) (setBlk e.1 e.2 2 t)) t) := by
  have hsome : (gcOf n s).isNone = false := by simpa using hgc
  change execErasePending n s = _
  rw [execErasePending, live_of_not_halted hs, hb]
  dsimp only
  rw [if_neg (by simp [hrun, hst, hsome, hlive, hneed, hquiet, hroom])]

theorem exec_eraseDone_erased (hst : b.st = .erasing) (hdone : erasing n s = false) (hroom : jrnlRoom s = true) :
    let t := forEach ((eraseList b s).filter fun e => (blkOf e.1 e.2 s).st == 2) (fun e t => setBlk e.1 e.2 0 t) s
    exec (.eraseDone n) s = .next (count .ftu 0x06 1 (clause (mkClause cEraseDone 0 0 n 0 0)
      { t with ftu.gcs := t.ftu.gcs.filter fun g => g.band != n, ftu.back := t.ftu.back.filter fun p => uBand p.1 != n })) := by
  change execEraseDone n s = _
  rw [execEraseDone, live_of_not_halted hs, hb]
  dsimp only
  rw [if_neg (by simp [hrun, hst, hdone, hroom])]

end

/-! Forwarded entries. -/

theorem exec_fixupWalk_current {n i : Nat} {f : Fwd} {s : State} (hs : halted s = false)
    (hf : s.ftu.fwd.find? (fun f => f.old == mapGet 0 n i s) = some f) (hrun : running .ftu s = true)
    (hen : getF F.ftuCtrlFixupEn s = 1) (hroom : jrnlRoom s = true) (hnew : f.new ≠ lostEntry) :
    exec (.fixupWalk 0 n i) s = .next (clause (mkClause cRelocate 2 n i (mapGet 0 n i s) f.new) s) := by
  change execFixupWalk 0 n i s = _
  rw [execFixupWalk, live_of_not_halted hs]
  simp [hf, hrun, onF_eq_true hen, hroom, hnew]

/-- Settles O35: one command a clause, and what a collection makes of its band (`collect_empty`). -/
theorem collectionMovesUnitsAndErasesBands : Obligations.CollectionMovesUnitsAndErasesBands :=
  ⟨fun _ _ _ => exec_gcVictimSelect_sealed, fun _ _ _ => exec_gcVictimSelect_open, fun _ _ _ => collect_empty,
   fun _ _ _ _ _ _ _ => exec_relocate_programmed, fun _ _ _ => exec_erasePending_unneeded,
   fun _ _ _ => exec_eraseDone_erased, fun _ _ _ _ => exec_fixupWalk_current⟩

end Sys2Proof.Machine
end

section
/-! Completions of module commands, decoded codewords and the read ladder (R419, R443, R480–R502). -/

namespace Sys2Proof.Machine

/-! Completions. -/

section
variable {m q cid : Nat} {c : YmCmd} {s : State} (hs : halted s = false) (hc : ymOf m q cid s = some c)
  (hup : getF (F.mptLinkStatUp m) s = 1)
include hs hc hup

theorem exec_ymCompletion_erased {b : Nat} (d : List Nat) (hopc : c.opc = 4) (hfor : c.for_ = .erase b) :
    exec (.ymCompletion m q cid 0 d) s = .next (eraseOk c b (ymEnd c s)) := by
  change execYmCompletion m q cid 0 d s = _
  rw [execYmCompletion, live_of_not_halted hs, hc]
  simp [hopc, hfor, onF_eq_true hup]

theorem exec_ymCompletion_stale (d : List Nat) (hopc : c.opc = 4) :
    exec (.ymCompletion m q cid 4 d) s = .next (staleCmd c (ymEnd c s)) := by
  change execYmCompletion m q cid 4 d s = _
  rw [execYmCompletion, live_of_not_halted hs, hc]
  simp [hopc, onF_eq_true hup]

theorem exec_ymCompletion_read {r pos : Nat} (d : List Nat) (hopc : c.opc = 1) (hfor : c.for_ = .read r pos) :
    let ws := (List.range c.cws).map fun k => (m, c.block, c.pu, c.cw + k)
    exec (.ymCompletion m q cid 0 d) s = .next (modURead r (fun x => { x with cws := x.cws ++ ws.filter fun w => !x.cws.contains w })
      (count (.mpt m) 0x05 (4608 * c.cws) (ymEnd c s))) := by
  change execYmCompletion m q cid 0 d s = _
  rw [execYmCompletion, live_of_not_halted hs, hc]
  simp [hopc, hfor, onF_eq_true hup]

section
variable {b n pos : Nat} (hfor : c.for_ = .program b n pos)
include hfor

theorem exec_programAccepted_first (hacc : c.accepted = false) :
    exec (.programAccepted m q cid) s = .next (setChunk b n pos .accepted { s with
      mods.cmds := modFirst (fun d => d.m == m && d.q == q && d.cid == cid) (fun d => { d with accepted := true }) s.mods.cmds }) := by
  change execProgramAccepted m q cid s = _
  rw [execProgramAccepted, live_of_not_halted hs, hc]
  simp [hfor, hacc, onF_eq_true hup]

theorem exec_programFinal_success (hacc : c.accepted = true) :
    exec (.programFinal m q cid 0) s = .next (durCheck (setChunk b n pos .programmed (ymEnd c s))) := by
  change execProgramFinal m q cid 0 s = _
  rw [execProgramFinal, live_of_not_halted hs, hc]
  simp [hfor, hacc, onF_eq_true hup]

end

end

/-! Chunks. -/

/-- The record of a stripe that has one is the one written last (R446). -/
theorem stripeAt_putStripe_self {x y : Stripe} {s : State} (hx : stripeAt y.band y.no s = some x) :
    stripeAt y.band y.no (putStripe y s) = some y := by
  have hfind : s.par.stripes.find? (fun z => z.band == y.band && z.no == y.no) = some x := hx
  have hany : s.par.stripes.any (fun z => z.band == y.band && z.no == y.no) = true :=
    List.any_eq_true.mpr (List.find?_isSome.mp (by rw [hfind]; rfl))
  have hput : (putStripe y s).par.stripes =
      modFirst (fun z => z.band == y.band && z.no == y.no) (fun _ => y) s.par.stripes := by
    simp only [putStripe, mirrorOut_frame, if_pos hany]
  rw [stripeAt, hput]
  exact find?_modFirst_self (f := fun _ => y) hfind (by simp)

/-- A chunk's change that is no failure leaves its stripe as degraded as it was. -/
theorem setChunk_chunks {b n pos : Nat} {c : ChunkSt} {x : Stripe} {s : State} (hx : stripeAt b n s = some x)
    (hc : c ≠ .failed) :
    ∃ y, stripeAt b n (setChunk b n pos c s) = some y ∧ y.chunks = x.chunks.set pos c ∧ y.degraded = x.degraded := by
  have hkey := List.find?_some (p := fun x : Stripe => x.band == b && x.no == n) hx
  simp only [Bool.and_eq_true, beq_iff_eq] at hkey
  obtain ⟨rfl, rfl⟩ := hkey
  refine ⟨{ x with chunks := x.chunks.set pos c, degraded := x.degraded || c == .failed }, ?_, rfl, by simp [hc]⟩
  rw [setChunk, hx]
  exact stripeAt_putStripe_self (y := { x with chunks := x.chunks.set pos c, degraded := x.degraded || c == .failed }) hx

/-! Codewords. -/

section
variable {l m k pu cw : Nat} {s : State} (hs : halted s = false) (hrun : running .ldc s = true)
  (hen : getF F.ldcCtrlDecEn s = 1) (hlane : laneUsable .ldc l s = true) (hband : bandAt m k s = none)
include hs hrun hen hlane hband

theorem exec_codewordDecode_unread_corrected (b : Nat) (hreads : s.wb.reads = []) :
    exec (.codewordDecode l m k pu cw 1 b) s = .next (count .ldc 2 1 (wakeLane .ldc [l] s)) := by
  have hband' : bandAt m k (count .ldc 2 1 (wakeLane .ldc [l] s)) = none := by simpa [bandAt] using hband
  change execCodewordDecode l m k pu cw 1 b s = _
  rw [execCodewordDecode, live_of_not_halted hs]
  simp [hrun, onF_eq_true hen, hlane, cbitsReport, hband', hreads, forEach]

theorem exec_codewordDecode_unread_uncorrectable (b : Nat) (hreads : s.wb.reads = []) :
    exec (.codewordDecode l m k pu cw 4 b) s =
      .next (note .ldc E.ldcUncorr l (count .ldc 5 1 (wakeLane .ldc [l] s))) := by
  have hband' : bandAt m k (note .ldc E.ldcUncorr l (count .ldc 5 1 (wakeLane .ldc [l] s))) = none := by
    simpa [bandAt] using hband
  change execCodewordDecode l m k pu cw 4 b s = _
  rw [execCodewordDecode, live_of_not_halted hs]
  simp [hrun, onF_eq_true hen, hlane, cbitsReport, hband', hreads, forEach]

end

theorem exec_codewordDecode_clean {l m k pu cw : Nat} {x : UnitRead} {s : State} (b : Nat) (hs : halted s = false)
    (hrun : running .ldc s = true) (hen : getF F.ldcCtrlDecEn s = 1) (hlane : laneUsable .ldc l s = true)
    (hreads : s.wb.reads = [x]) (hx : x.cws.contains (m, k, pu, cw) = true) (hnone : bandOf (uBand x.uaddr) s = none) :
    exec (.codewordDecode l m k pu cw 0 b) s = .next (readAdvance x.id (modURead x.id
      (fun y => { y with cws := y.cws.filter fun c => c != (m, k, pu, cw) }) (count .ldc 1 1 (wakeLane .ldc [l] s)))) := by
  have hmem : (m, k, pu, cw) ∈ x.cws := by simpa using hx
  have hnone' : ∀ f, bandOf (uBand x.uaddr) (modURead x.id f (count .ldc 1 1 (wakeLane .ldc [l] s))) = none := fun f => by
    simpa [bandOf, modURead] using hnone
  change execCodewordDecode l m k pu cw 0 b s = _
  rw [execCodewordDecode, live_of_not_halted hs]
  simp [hrun, onF_eq_true hen, hlane, hreads, hmem, hnone', forEach]

/-- A step up to RETRY_MAX reads with that retry set, never softly (R502). -/
theorem exec_readRetry_set {m k pu cw st d : Nat} {x : UnitRead} {b : Band} {s : State} (hs : halted s = false)
    (hx : s.wb.reads.find? (fun x => x.cws.contains (m, k, pu, cw)) = some x) (hrun : running .ldc s = true)
    (hlo : 1 ≤ st) (hhi : st ≤ retryMax m s) (hreach : reachable m s = true) (hb : bandOf (uBand x.uaddr) s = some b)
    (hpos : posAt b m k pu s = some d) (hearly : getF F.ldcCfgEarlyRecon s = 0) :
    exec (.readRetry m k pu cw st) s = .next (ymSend { ymCmd m 1 k pu cw 1 (.read x.id d) with retry := st } s) := by
  have hfirst : st ≠ 0 := Nat.ne_of_gt hlo
  have hhard : st ≠ retryMax m s + 1 := by omega
  change execReadRetry m k pu cw st s = _
  rw [execReadRetry, live_of_not_halted hs]
  simp only [hx]
  simp [hrun, hfirst, hhi, hhard, hreach, hb, hpos, onF_eq_false hearly]

/-- Settles O41: one command a clause, and `setChunk_chunks` says what a chunk's change leaves of its stripe. -/
theorem moduleCommandsCompleteByStatus : Obligations.ModuleCommandsCompleteByStatus :=
  ⟨fun _ _ _ _ d _ _ hs hc hopc hfor hup => exec_ymCompletion_erased hs hc hup d hopc hfor,
   fun _ _ _ d _ _ hs hc hopc hup => exec_ymCompletion_stale hs hc hup d hopc,
   fun _ _ _ _ _ d _ _ hs hc hopc hfor hup => exec_ymCompletion_read hs hc hup d hopc hfor,
   fun _ _ _ _ _ _ _ _ hs hc hfor hacc hup => exec_programAccepted_first hs hc hup hfor hacc,
   fun _ _ _ _ _ _ hx hc _ => setChunk_chunks hx hc,
   fun _ _ _ _ _ _ _ _ hs hc hfor hacc hup => exec_programFinal_success hs hc hup hfor hacc,
   fun _ _ _ _ _ b _ hs hrun hen hlane hband => exec_codewordDecode_unread_corrected hs hrun hen hlane hband b,
   fun _ _ _ _ _ b _ hs hrun hen hlane hband => exec_codewordDecode_unread_uncorrectable hs hrun hen hlane hband b,
   fun _ _ _ _ _ b _ _ hs hrun hen hlane _ => exec_codewordDecode_clean b hs hrun hen hlane,
   fun _ _ _ _ _ _ _ _ _ => exec_readRetry_set⟩

end Sys2Proof.Machine
end

section
/-! The field of bytes behind P and Q: products are additive and associative, and powers of 2 have inverses (R441). -/

namespace Sys2Proof.Machine

/-- The byte of bit `i` alone, where `a` has it. -/
def bitByte (a : Byte) (i : Nat) : Byte := if a.getLsbD i then BitVec.twoPow 8 i else 0

theorem sum_bitByte (a : Byte) : (List.range 8).foldr (fun i t => bitByte a i ^^^ t) 0 = a := by
  revert a
  decide

/-- What the bytes of one bit have and sums keep, every byte has. -/
theorem byte_bit_induction {P : Byte → Prop} (hbit : ∀ i < 8, P (BitVec.twoPow 8 i)) (hzero : P 0)
    (hxor : ∀ a b, P a → P b → P (a ^^^ b)) (a : Byte) : P a := by
  have hpart : ∀ l : List Nat, (∀ i ∈ l, i < 8) → P (l.foldr (fun i t => bitByte a i ^^^ t) 0) := by
    intro l hl
    induction l with
    | nil => exact hzero
    | cons i l ih =>
      refine hxor _ _ ?_ (ih fun j hj => hl j (by simp [hj]))
      unfold bitByte
      split
      · exact hbit i (hl i (by simp))
      · exact hzero
  exact sum_bitByte a ▸ hpart _ fun i hi => List.mem_range.mp hi

/-- The product with 2, which `gfMul` makes of its first factor at each bit of the second. -/
def gfDouble (a : Byte) : Byte := (a <<< 1) ^^^ (if a.msb then 0x1D else 0)

theorem toNat_gfDouble (a : Byte) :
    (gfDouble a).toNat = if a.toNat < 128 then a.toNat * 2 else (a.toNat * 2) ^^^ 0x11D := by
  revert a
  decide

theorem gfDouble_xor (a b : Byte) : gfDouble (a ^^^ b) = gfDouble a ^^^ gfDouble b := by
  have htop : (if (a ^^^ b).msb then (0x1D : Byte) else 0) =
      (if a.msb then 0x1D else 0) ^^^ (if b.msb then 0x1D else 0) := by
    rw [BitVec.msb_xor]
    cases a.msb <;> cases b.msb <;> rfl
  rw [gfDouble, htop, BitVec.shiftLeft_xor_distrib, gfDouble, gfDouble]
  ac_rfl

theorem gfMul_succ (n : Nat) (a : Byte) (b : Nat) :
    gfMul (n + 1) a.toNat b = (if b % 2 = 1 then a.toNat else 0) ^^^ gfMul n (gfDouble a).toNat (b / 2) := by
  rw [toNat_gfDouble, gfMul]

theorem gfMul_lt (n : Nat) (a : Byte) (b : Nat) : gfMul n a.toNat b < 2 ^ 8 := by
  induction n generalizing a b with
  | zero => simp [gfMul]
  | succ n ih =>
    rw [gfMul_succ]
    refine Nat.xor_lt_two_pow ?_ (ih _ _)
    split
    · exact a.isLt
    · simp

theorem gfMul_xor_left (n : Nat) (a b : Byte) (c : Nat) :
    gfMul n (a ^^^ b).toNat c = gfMul n a.toNat c ^^^ gfMul n b.toNat c := by
  induction n generalizing a b c with
  | zero => simp [gfMul]
  | succ n ih =>
    rw [gfMul_succ, gfMul_succ, gfMul_succ, gfDouble_xor, ih, BitVec.toNat_xor]
    split
    · ac_nf
    · simp

theorem ite_odd_xor (a b c : Nat) :
    (if (b ^^^ c) % 2 = 1 then a else 0) = (if b % 2 = 1 then a else 0) ^^^ (if c % 2 = 1 then a else 0) := by
  rw [Nat.xor_mod_two_eq, Nat.add_mod]
  rcases Nat.mod_two_eq_zero_or_one b with hb | hb <;> rcases Nat.mod_two_eq_zero_or_one c with hc | hc <;> simp [hb, hc]

theorem gfMul_xor_right (n a b c : Nat) : gfMul n a (b ^^^ c) = gfMul n a b ^^^ gfMul n a c := by
  induction n generalizing a b c with
  | zero => simp [gfMul]
  | succ n ih =>
    rw [gfMul, ite_odd_xor, Nat.xor_div_two, ih, gfMul, gfMul]
    ac_rfl

theorem toNat_gf (a b : Byte) : (gf a b).toNat = gfMul 8 a.toNat b.toNat :=
  Nat.mod_eq_of_lt (gfMul_lt 8 a b.toNat)

theorem gf_xor_left (a b c : Byte) : gf (a ^^^ b) c = gf a c ^^^ gf b c :=
  BitVec.eq_of_toNat_eq (by simp only [toNat_gf, gfMul_xor_left, BitVec.toNat_xor (gf _ _)])

theorem gf_xor_right (a b c : Byte) : gf a (b ^^^ c) = gf a b ^^^ gf a c :=
  BitVec.eq_of_toNat_eq (by simp only [toNat_gf, BitVec.toNat_xor, gfMul_xor_right])

theorem gf_zero_left (b : Byte) : gf 0 b = 0 := by
  simpa using gf_xor_left 0 0 b

theorem gf_zero_right (a : Byte) : gf a 0 = 0 := by
  simpa using gf_xor_right a 0 0

theorem gf_one_left (b : Byte) : gf 1 b = b := by
  revert b
  decide

/-- Both sides are additive in each factor, and 512 products of one-bit bytes agree. -/
theorem gf_assoc (a b c : Byte) : gf (gf a b) c = gf a (gf b c) := by
  induction a using byte_bit_induction with
  | hzero => simp only [gf_zero_left]
  | hxor a a' ha ha' => simp only [gf_xor_left, ha, ha']
  | hbit i hi =>
    induction b using byte_bit_induction with
    | hzero => simp only [gf_zero_left, gf_zero_right]
    | hxor b b' hb hb' => simp only [gf_xor_left, gf_xor_right, hb, hb']
    | hbit j hj =>
      induction c using byte_bit_induction with
      | hzero => simp only [gf_zero_right]
      | hxor c c' hc hc' => simp only [gf_xor_right, hc, hc']
      | hbit k hk =>
        have hbits : ∀ i < 8, ∀ j < 8, ∀ k < 8, gf (gf (BitVec.twoPow 8 i) (BitVec.twoPow 8 j)) (BitVec.twoPow 8 k) =
            gf (BitVec.twoPow 8 i) (gf (BitVec.twoPow 8 j) (BitVec.twoPow 8 k)) := by
          decide
        exact hbits i hi j hj k hk

/-- A power of 2 as a byte. -/
def gfPowByte (k : Nat) : Byte := BitVec.ofNat 8 (gfPow k)

theorem toNat_gfPowByte (k : Nat) : (gfPowByte k).toNat = gfPow k := by
  induction k with
  | zero => rfl
  | succ k ih =>
    have hlt : gfMul 8 2 (gfPow k) < 2 ^ 8 := gfMul_lt 8 2 (gfPow k)
    rw [gfPowByte, gfPow, BitVec.toNat_ofNat, Nat.mod_eq_of_lt hlt]

theorem gfPowByte_add (j k : Nat) : gfPowByte (j + k) = gf (gfPowByte j) (gfPowByte k) := by
  have hsucc : ∀ i, gfPowByte (i + 1) = gf 2 (gfPowByte i) := fun i =>
    BitVec.eq_of_toNat_eq (by rw [toNat_gf, toNat_gfPowByte, toNat_gfPowByte]; rfl)
  induction j with
  | zero => rw [Nat.zero_add]; exact (gf_one_left _).symm
  | succ j ih => rw [Nat.add_right_comm, hsucc, hsucc, ih, gf_assoc]

theorem gfInv_gfPow (k : Nat) : gfInv (gfPow k) = gfPow (254 * k) := by
  have hpow : ∀ n, (List.range n).foldl (fun x _ => gfMul 8 x (gfPow k)) (gfPow k) = gfPow ((n + 1) * k) := by
    intro n
    induction n with
    | zero => simp
    | succ n ih =>
      rw [List.range_succ, List.foldl_append, ih, List.foldl_cons, List.foldl_nil, Nat.succ_mul (n + 1),
        ← toNat_gfPowByte, ← toNat_gfPowByte k, ← toNat_gf, ← gfPowByte_add, toNat_gfPowByte]
  exact hpow 253

set_option maxRecDepth 4000 in
/-- The order of 2 divides 255. -/
theorem gfPowByte_mul_255 (k : Nat) : gfPowByte (255 * k) = 1 := by
  have horder : gfPowByte 255 = 1 := by decide
  induction k with
  | zero => rfl
  | succ k ih => rw [Nat.mul_succ, gfPowByte_add, ih, horder]; rfl

theorem gf_gfInv_gfPow (k : Nat) (b : Byte) : gf (BitVec.ofNat 8 (gfInv (gfPow k))) (gf (gfPowByte k) b) = b := by
  rw [gfInv_gfPow, ← gfPowByte, ← gf_assoc, ← gfPowByte_add, ← Nat.succ_mul, gfPowByte_mul_255, gf_one_left]

set_option maxRecDepth 4000 in
/-- `1 + 2 ^ k` is a power of 2 too, for the distances of 30 positions. -/
theorem gfPow_xor_one : ∀ k < 30, k ≠ 0 → ∃ j < 255, gfPow k ^^^ 1 = gfPow j := by
  decide

theorem gf_gfInv_gfPow_xor_one {k : Nat} (h0 : k ≠ 0) (hk : k < 30) (b : Byte) :
    gf (BitVec.ofNat 8 (gfInv (gfPow k ^^^ 1))) (gf (gfPowByte k) b ^^^ b) = b := by
  obtain ⟨j, -, hj⟩ := gfPow_xor_one k hk h0
  have hsum : gf (gfPowByte k) b ^^^ b = gf (gfPowByte j) b := by
    rw [gfPowByte, gfPowByte, ← hj, BitVec.ofNat_xor, gf_xor_left]
    exact congrArg _ (gf_one_left b).symm
  rw [hsum, hj, gf_gfInv_gfPow]

end Sys2Proof.Machine
end

section
/-! Chunks that parity gives back: P and Q are sums over positions, and what is left of them without the readable chunks
determines the others (R441, R442). -/

namespace Sys2Proof.Machine

/-! Sums of byte strings. -/

theorem length_xorBytes (a b : List Byte) : (xorBytes a b).length = max a.length b.length := by
  induction a, b using xorBytes.induct with
  | case1 b => simp [xorBytes]
  | case2 a h => simp [xorBytes]
  | case3 x a y b ih => simp [xorBytes, ih]

@[simp] theorem xorBytes_nil_left (b : List Byte) : xorBytes [] b = b := by
  rw [xorBytes]

@[simp] theorem xorBytes_nil_right (a : List Byte) : xorBytes a [] = a := by
  cases a <;> rfl

theorem xorBytes_comm (a b : List Byte) : xorBytes a b = xorBytes b a := by
  induction a, b using xorBytes.induct with
  | case1 b => simp
  | case2 a h => simp
  | case3 x a y b ih => simp only [xorBytes, ih, BitVec.xor_comm]

theorem xorBytes_right_comm (a b c : List Byte) : xorBytes (xorBytes a b) c = xorBytes (xorBytes a c) b := by
  induction a generalizing b c with
  | nil => simpa using xorBytes_comm b c
  | cons x a ih =>
    cases b with
    | nil => simp
    | cons y b =>
      cases c with
      | nil => simp
      | cons z c => simp only [xorBytes, ih, BitVec.xor_assoc, BitVec.xor_comm y]

/-- A string no longer than the other cancels. -/
theorem xorBytes_cancel {a b : List Byte} (h : b.length ≤ a.length) : xorBytes (xorBytes a b) b = a := by
  induction a, b using xorBytes.induct with
  | case1 b => simp [List.length_eq_zero_iff.mp (Nat.le_zero.mp h)]
  | case2 a h => simp
  | case3 x a y b ih => simp [xorBytes, ih (by simpa using h)]

/-! Sums over positions. -/

/-- The string `a` with those of the positions `l` added in turn. -/
def xorAt (f : Nat → List Byte) (l : List Nat) (a : List Byte) : List Byte := l.foldl (fun a k => xorBytes a (f k)) a

theorem xorAt_perm (f : Nat → List Byte) {l m : List Nat} (h : l.Perm m) (a : List Byte) : xorAt f l a = xorAt f m a :=
  h.foldl_eq' (fun _ _ _ _ b => xorBytes_right_comm b _ _) a

theorem xorAt_xorBytes (f : Nat → List Byte) (l : List Nat) (a b : List Byte) :
    xorAt f l (xorBytes a b) = xorBytes (xorAt f l a) b := by
  induction l generalizing a with
  | nil => rfl
  | cons k l ih =>
    calc xorAt f l (xorBytes (xorBytes a b) (f k))
        = xorAt f l (xorBytes (xorBytes a (f k)) b) := by rw [xorBytes_right_comm]
      _ = xorBytes (xorAt f l (xorBytes a (f k))) b := ih _

/-- Strings no longer than the one they are added to cancel when added again. -/
theorem xorAt_cancel {f : Nat → List Byte} {l : List Nat} {a : List Byte} (h : ∀ k ∈ l, (f k).length ≤ a.length) :
    xorAt f l (xorAt f l a) = a := by
  induction l with
  | nil => rfl
  | cons k l ih =>
    calc xorAt f l (xorBytes (xorAt f l (xorBytes a (f k))) (f k))
        = xorAt f l (xorAt f l (xorBytes (xorBytes a (f k)) (f k))) := by rw [xorAt_xorBytes f l (xorBytes a (f k))]
      _ = xorAt f l (xorAt f l a) := by rw [xorBytes_cancel (h k (by simp))]
      _ = a := ih fun j hj => h j (by simp [hj])

theorem length_le_xorAt (f : Nat → List Byte) (l : List Nat) (a : List Byte) : a.length ≤ (xorAt f l a).length := by
  induction l generalizing a with
  | nil => exact Nat.le_refl _
  | cons k l ih =>
    calc a.length ≤ (xorBytes a (f k)).length := by simp [length_xorBytes]
      _ ≤ (xorAt f l (xorBytes a (f k))).length := ih _

/-! P and Q by position. -/

theorem zip_range_eq_map (ds : List (List Byte)) :
    (List.range ds.length).zip ds = (List.range ds.length).map fun k => (k, ds.getD k []) := by
  apply List.ext_getElem
  · simp
  · intro k hk _
    have hlt : k < ds.length := by simpa using hk
    simp [hlt]

theorem filter_zip_range (ds : List (List Byte)) (q : Nat → Bool) :
    (((List.range ds.length).zip ds).filter fun c => q c.1) =
      ((List.range ds.length).filter q).map fun k => (k, ds.getD k []) := by
  rw [zip_range_eq_map, List.filter_map]
  rfl

/-- What the chunk at a position adds to Q. -/
def qPart (ds : List (List Byte)) (k : Nat) : List Byte := gfScale (gfPow k) (ds.getD k [])

theorem foldP_positions (ds : List (List Byte)) (l : List Nat) (p : List Byte) :
    foldP (l.map fun k => (k, ds.getD k [])) p = xorAt (fun k => ds.getD k []) l p := by
  rw [foldP, List.foldl_map, xorAt]

theorem foldQ_positions (ds : List (List Byte)) (l : List Nat) (q : List Byte) :
    foldQ (l.map fun k => (k, ds.getD k [])) q = xorAt (qPart ds) l q := by
  rw [foldQ, List.foldl_map]
  rfl

theorem parityP_eq (ds : List (List Byte)) :
    parityP ds = xorAt (fun k => ds.getD k []) (List.range ds.length) [] := by
  rw [← foldP_positions, ← zip_range_eq_map, foldP, parityP]
  nth_rw 1 [← List.map_snd_zip (l₁ := List.range ds.length) (l₂ := ds) (by simp)]
  rw [List.foldl_map]

theorem parityQ_eq (ds : List (List Byte)) : parityQ ds = xorAt (qPart ds) (List.range ds.length) [] := by
  rw [← foldQ_positions, ← zip_range_eq_map, foldQ, parityQ, ← List.zip_swap, List.foldl_map]
  rfl

/-! Recovery. -/

theorem perm_cons_filter_ne {l : List Nat} {x : Nat} (hnodup : l.Nodup) (hx : x ∈ l) :
    l.Perm (x :: l.filter (· != x)) := by
  rw [← hnodup.erase_eq_filter]
  exact List.perm_cons_erase hx

section
variable {f : Nat → List Byte} {m n x y : Nat} (hlen : ∀ k < m, (f k).length = n)
include hlen

/-- All positions without the readable ones leave what the unreadable ones add. -/
theorem xorAt_without {bad rest : List Nat} (hperm : (List.range m).Perm (bad ++ rest))
    (hbad : (xorAt f bad []).length = n) : xorAt f rest (xorAt f (List.range m) []) = xorAt f bad [] := by
  have hall : xorAt f (List.range m) [] = xorAt f rest (xorAt f bad []) := by
    rw [xorAt_perm f hperm, xorAt, List.foldl_append, ← xorAt, ← xorAt]
  have hrest : ∀ k ∈ rest, (f k).length ≤ (xorAt f bad []).length := fun k hk => by
    rw [hbad, hlen k (List.mem_range.mp (hperm.mem_iff.mpr (List.mem_append_right bad hk)))]
  rw [hall, xorAt_cancel hrest]

theorem xorAt_without_one (hx : x < m) :
    xorAt f ((List.range m).filter (· != x)) (xorAt f (List.range m) []) = f x := by
  have hone : xorAt f [x] [] = f x := xorBytes_nil_left _
  have hperm := perm_cons_filter_ne List.nodup_range (List.mem_range.mpr hx)
  rw [xorAt_without hlen (bad := [x]) hperm (by rw [hone, hlen x hx]), hone]

theorem xorAt_without_two (hxy : x < y) (hy : y < m) :
    xorAt f ((List.range m).filter fun k => k != x && k != y) (xorAt f (List.range m) []) = xorBytes (f x) (f y) := by
  have hx : x < m := Nat.lt_trans hxy hy
  have htwo : xorAt f [x, y] [] = xorBytes (f x) (f y) := congrArg (xorBytes · (f y)) (xorBytes_nil_left _)
  have hperm : (List.range m).Perm ([x, y] ++ (List.range m).filter fun k => k != x && k != y) := by
    have hfirst := perm_cons_filter_ne List.nodup_range (List.mem_range.mpr hy)
    have hsecond := perm_cons_filter_ne (x := x) (List.nodup_range.filter (· != y))
      (List.mem_filter.mpr ⟨List.mem_range.mpr hx, by simpa using hxy.ne⟩)
    rw [List.filter_filter] at hsecond
    exact (hfirst.trans (hsecond.cons y)).trans (.swap x y _)
  rw [xorAt_without hlen hperm (by rw [htwo, length_xorBytes, hlen x hx, hlen y hy, max_self]), htwo]

theorem xorAt_range_isEmpty (hn : 0 < n) (hm : 0 < m) : (xorAt f (List.range m) []).isEmpty = false := by
  have hperm := perm_cons_filter_ne List.nodup_range (List.mem_range.mpr hm)
  have hle : (f 0).length ≤ (xorAt f (List.range m) []).length := by
    rw [xorAt_perm f hperm]
    exact Nat.le_trans (Nat.le_of_eq (congrArg _ (xorBytes_nil_left _).symm)) (length_le_xorAt f _ _)
  have hpos : 0 < (xorAt f (List.range m) []).length := Nat.lt_of_lt_of_le hn (hlen 0 hm ▸ hle)
  rw [List.isEmpty_eq_false_iff]
  exact List.ne_nil_of_length_pos hpos

end

/-- Dividing by a power of 2 undoes the scaling by it. -/
theorem gfScale_gfInv_gfPow (k : Nat) (bs : List Byte) : gfScale (gfInv (gfPow k)) (gfScale (gfPow k) bs) = bs := by
  rw [gfScale, gfScale, List.map_map]
  exact List.map_id'' (fun b => gf_gfInv_gfPow k b) bs

/-- The byte at position `x` from its sum with the one at `y` and their sum in Q (R441, R442). -/
theorem byte_of_two_sums {x y : Nat} (hxy : x < y) (hy : y < 30) (u v : Byte) :
    gf (BitVec.ofNat 8 (gfInv (gfPow (y - x) ^^^ 1))) (gf (gfPowByte (y - x)) (u ^^^ v) ^^^
      gf (BitVec.ofNat 8 (gfInv (gfPow x))) (gf (gfPowByte x) u ^^^ gf (gfPowByte y) v)) = u := by
  have hv : gf (gfPowByte y) v = gf (gfPowByte x) (gf (gfPowByte (y - x)) v) := by
    rw [← gf_assoc, ← gfPowByte_add, Nat.add_sub_cancel' hxy.le]
  have hsum : gf (gfPowByte (y - x)) (u ^^^ v) ^^^
      gf (BitVec.ofNat 8 (gfInv (gfPow x))) (gf (gfPowByte x) u ^^^ gf (gfPowByte y) v) =
      gf (gfPowByte (y - x)) u ^^^ u := by
    rw [hv, gf_xor_right (BitVec.ofNat 8 (gfInv (gfPow x))), gf_gfInv_gfPow, gf_gfInv_gfPow, gf_xor_right]
    ac_nf
    simp
  rw [hsum]
  exact gf_gfInv_gfPow_xor_one (by omega) (by omega) u

theorem chunk_of_two_sums {x y : Nat} (hxy : x < y) (hy : y < 30) {a b : List Byte} (hab : a.length = b.length) :
    gfScale (gfInv (gfPow (y - x) ^^^ 1)) (xorBytes (gfScale (gfPow (y - x)) (xorBytes a b))
      (gfScale (gfInv (gfPow x)) (xorBytes (gfScale (gfPow x) a) (gfScale (gfPow y) b)))) = a := by
  induction a, b using xorBytes.induct with
  | case1 b => rw [List.length_eq_zero_iff.mp hab.symm]; rfl
  | case2 a h => rw [List.length_eq_zero_iff.mp hab]; rfl
  | case3 u a v b ih => exact congrArg₂ _ (byte_of_two_sums hxy hy u v) (ih (Nat.succ_injective hab))

section
variable {ds : List (List Byte)} {n x y : Nat} (hlen : ∀ c ∈ ds, c.length = n)
include hlen

theorem length_chunk {k : Nat} (hk : k < ds.length) : (ds.getD k []).length = n := by
  rw [List.getD_eq_getElem _ _ hk]
  exact hlen _ (List.getElem_mem hk)

theorem length_qPart {k : Nat} (hk : k < ds.length) : (qPart ds k).length = n := by
  rw [qPart, gfScale, List.length_map, length_chunk hlen hk]

variable (hn : 0 < n)
include hn

theorem parityP_isEmpty (hx : x < ds.length) : (parityP ds).isEmpty = false := by
  rw [parityP_eq]
  exact xorAt_range_isEmpty (fun _ => length_chunk hlen) hn (Nat.zero_lt_of_lt hx)

theorem parityQ_isEmpty (hx : x < ds.length) : (parityQ ds).isEmpty = false := by
  rw [parityQ_eq]
  exact xorAt_range_isEmpty (fun _ => length_qPart hlen) hn (Nat.zero_lt_of_lt hx)

theorem solve_one_of_parityP (q : List Byte) (hx : x < ds.length) :
    solve [x] (((List.range ds.length).zip ds).filter fun c => c.1 != x) (parityP ds) q = some [(x, ds.getD x [])] := by
  have hp : foldP (((List.range ds.length).zip ds).filter fun c => c.1 != x) (parityP ds) = ds.getD x [] := by
    rw [filter_zip_range ds (· != x), foldP_positions, parityP_eq, xorAt_without_one (fun _ => length_chunk hlen) hx]
  simp [solve, parityP_isEmpty hlen hn hx, hp]

theorem solve_one_of_parityQ (hx : x < ds.length) :
    solve [x] (((List.range ds.length).zip ds).filter fun c => c.1 != x) [] (parityQ ds) = some [(x, ds.getD x [])] := by
  have hq : foldQ (((List.range ds.length).zip ds).filter fun c => c.1 != x) (parityQ ds) = qPart ds x := by
    rw [filter_zip_range ds (· != x), foldQ_positions, parityQ_eq, xorAt_without_one (fun _ => length_qPart hlen) hx]
  simp [solve, parityQ_isEmpty hlen hn hx, hq, qPart, gfScale_gfInv_gfPow]

theorem solve_two (hxy : x < y) (hy : y < ds.length) (hpos : ds.length ≤ 30) :
    solve [x, y] (((List.range ds.length).zip ds).filter fun c => c.1 != x && c.1 != y) (parityP ds) (parityQ ds) =
      some [(x, ds.getD x []), (y, ds.getD y [])] := by
  have hx : x < ds.length := Nat.lt_trans hxy hy
  have hp : foldP (((List.range ds.length).zip ds).filter fun c => c.1 != x && c.1 != y) (parityP ds) =
      xorBytes (ds.getD x []) (ds.getD y []) := by
    rw [filter_zip_range ds (fun k => k != x && k != y), foldP_positions, parityP_eq,
      xorAt_without_two (fun _ => length_chunk hlen) hxy hy]
  have hq : foldQ (((List.range ds.length).zip ds).filter fun c => c.1 != x && c.1 != y) (parityQ ds) =
      xorBytes (qPart ds x) (qPart ds y) := by
    rw [filter_zip_range ds (fun k => k != x && k != y), foldQ_positions, parityQ_eq,
      xorAt_without_two (fun _ => length_qPart hlen) hxy hy]
  have hab : (ds.getD x []).length = (ds.getD y []).length := by rw [length_chunk hlen hx, length_chunk hlen hy]
  have hother : xorBytes (xorBytes (ds.getD x []) (ds.getD y [])) (ds.getD x []) = ds.getD y [] := by
    rw [xorBytes_comm (ds.getD x []), xorBytes_cancel hab.le]
  have hthis := chunk_of_two_sums hxy (Nat.lt_of_lt_of_le hy hpos) hab
  simp only [solve, parityP_isEmpty hlen hn hx, parityQ_isEmpty hlen hn hx, hp, hq, qPart, Nat.max_eq_right hxy.le,
    Nat.min_eq_left hxy.le, hthis, hother]
  simp [hxy.ne]

end

/-- Settles O37: the readable chunks cancel out of P and Q (`xorAt_without`), and what is left is solved in the field
(`gfScale_gfInv_gfPow`, `chunk_of_two_sums`). -/
theorem parityRecoversUnreadableChunks : Obligations.ParityRecoversUnreadableChunks :=
  ⟨fun _ q _ _ hn hlen hx => solve_one_of_parityP hlen hn q hx,
   fun _ _ _ hn hlen hx _ => solve_one_of_parityQ hlen hn hx,
   fun _ _ _ _ hn hlen hxy hy hpos => solve_two hlen hn hxy hy hpos⟩

end Sys2Proof.Machine
end

section
/-! The lost-extent log and patrol (R462–R465). -/

namespace Sys2Proof.Machine

/-! The log. -/

section
variable {n : Nat} {s : State} (hs : halted s = false) (hpwr : getF (H.pwrState .par) s ≠ 2) (hst : getF (H.state .par) s ≠ 5)
include hs hpwr hst

theorem exec_lostLogAck_held (hlo : 1 ≤ n) (hhi : n ≤ s.par.lost.length) :
    exec (.lostLogAck n) s = .next (setF F.parLostStatOverflow 0 { s with par.lost := s.par.lost.drop n }) := by
  have hcond : ¬((n = 0 || decide (s.par.lost.length < n)) = true) := by simp; omega
  change execLostLogAck n s = _
  rw [execLostLogAck, live_of_not_halted hs, regWrite_of_open hpwr hst, if_neg hcond]

theorem exec_lostLogAck_outside (hn : n = 0 ∨ s.par.lost.length < n) : exec (.lostLogAck n) s = .next s := by
  have hcond : (n = 0 || decide (s.par.lost.length < n)) = true := by simpa using hn
  change execLostLogAck n s = _
  rw [execLostLogAck, live_of_not_halted hs, regWrite_of_open hpwr hst, if_pos hcond]

end

theorem lostAdd_of_empty {s : State} (h : s.par.lost = []) (n u e c : Nat) (r : Bool) :
    lostAdd n u e c r s = setInt .par I.parLostNew { s with
      par.lost := [{ nsid := n, unit := u, count := 1, time := stamp s, epoch := e, cause := c, recon := r }] } := by
  rw [lostAdd, h]
  rfl

theorem lostAdd_first {s : State} (h : s.par.lost = []) (n u e c : Nat) (r : Bool) :
    (lostAdd n u e c r s).par.lost =
      [{ nsid := n, unit := u, count := 1, time := stamp s, epoch := e, cause := c, recon := r }] ∧
    bit (getF (H.intStat .par) (lostAdd n u e c r s)) I.parLostNew = true := by
  rw [lostAdd_of_empty h]
  exact ⟨by simp, bit_intStat_setInt _ _ (by decide)⟩

/-! Patrol. -/

section
variable {s : State} (hs : halted s = false) (hrun : running .par s = true) (hen : getF F.parCtrlPatrolEn s = 1)
include hs hrun hen

/-- A stripe that cannot be read counts as swept, and as the sweep's only one ends it (R464, R465). -/
theorem exec_patrolStripe_last {n k : Nat} {b : Band} (mm ok : Bool) (o : Option Nat) (f : List Nat)
    (hb : bandOf n s = some b) (hwin : winOpen 1 s = true) (hbg : bgOk s = true) (hset : patrolSet s = [(n, k)])
    (hswept : s.par.swept = []) (hread : stripeReadable b k s = false) :
    exec (.patrolStripe n k mm o ok f) s = .next (setInt .par I.parSweepDone (incF F.parPatrolStatSweeps
      { s with par.swept := [], par.sweepAt := s.now })) := by
  have hread' : stripeReadable b k { s with par.swept := [(n, k)] } = false := hread
  have hset' : patrolSet { s with par.swept := [(n, k)] } = [(n, k)] := hset
  change execPatrolStripe n k mm o ok f s = _
  rw [execPatrolStripe, live_of_not_halted hs, hb]
  simp [hrun, onF_eq_true hen, hwin, hbg, hset, hswept, hread', hset']

theorem exec_patrolPeriodEnd_late (hlate : 3600000000000 * getF F.parPatrolPeriodH s ≤ s.now - s.par.sweepAt) :
    exec .patrolPeriodEnd s = .next (note .par E.parPatrolLate 0xFF { s with par.sweepAt := s.now }) := by
  change execPatrolPeriodEnd s = _
  rw [execPatrolPeriodEnd, live_of_not_halted hs]
  simp [hrun, onF_eq_true hen, hlate]

end

/-- Settles O39: one command a clause, and `lostAdd_first` for a loss recorded into an empty log. -/
theorem lossesAreLoggedAndStripesPatrolled : Obligations.LossesAreLoggedAndStripesPatrolled :=
  ⟨fun _ _ => exec_lostLogAck_held, fun _ _ => exec_lostLogAck_outside, fun _ _ _ _ _ _ h => lostAdd_first h _ _ _ _ _,
   fun _ _ mm ok o f _ _ hs hb hrun hen => exec_patrolStripe_last hs hrun hen mm ok o f hb,
   fun _ => exec_patrolPeriodEnd_late⟩

end Sys2Proof.Machine
end

section
/-! Module links, admission and the sideband (R453–R455, R470–R473, R493–R498). -/

namespace Sys2Proof.Machine

/-! Links. -/

/-- A link that is down with nothing unanswered stays as it is. -/
theorem mptDown_idle {m : Nat} {s : State} (hup : getF (F.mptLinkStatUp m) s = 0) (hun : unanswered m s = false) :
    mptDown m s = s := by
  simp [mptDown, onF_eq_false hup, hun]

/-- What a trained link shows, and its interrupt, leave the result of its module's fence. -/
theorem getF_mptFenceResResult_trained (m : Nat) (v : Bool) (a b c : Nat) (s : State) :
    getF (F.mptFenceResResult m) (setInt (.mpt m) I.mptLinkUp (flagF (F.mptLinkStatFlit m) v (setF (F.mptLinkStatUp m) a
      (setF (F.mptLinkStatSpeed m) b (setF (F.mptLinkStatWidth m) c s))))) = getF (F.mptFenceResResult m) s := by
  have hkeys : ∀ g ∈ [H.intStat (.mpt m), F.mptLinkStatFlit m, F.mptLinkStatUp m, F.mptLinkStatSpeed m,
      F.mptLinkStatWidth m], fkey (F.mptFenceResResult m) ≠ fkey g := by
    simp only [List.forall_mem_cons, List.not_mem_nil, false_implies, implies_true, and_true, fkey,
      F.mptFenceResResult, H.intStat, base, F.mptLinkStatFlit, F.mptLinkStatUp, F.mptLinkStatSpeed, F.mptLinkStatWidth]
    omega
  rw [getF_setInt_ne _ (hkeys _ (by simp)), getF_flagF_ne _ _ (hkeys _ (by simp)), getF_setF_ne _ _ (hkeys _ (by simp)),
    getF_setF_ne _ _ (hkeys _ (by simp)), getF_setF_ne _ _ (hkeys _ (by simp))]

theorem exec_mptLinkUp_trained {m sp w : Nat} {s : State} (fe : Nat) (fl : Bool) (hs : halted s = false)
    (hup : getF (F.mptLinkStatUp m) s = 0) (hperst : getF (F.mptLinkCtrlPerst m) s = 0)
    (hdown : blockDown (.mpt m) s = false) (hsp : 1 ≤ sp) (hw : 1 ≤ w) (hun : unanswered m s = false)
    (hfence : getF (F.mptFenceResResult m) s ≠ 3) :
    let t := setF (F.mptLinkStatSpeed m) (min sp (getF (F.mptLinkCtrlMaxSpeed m) s)) (setF (F.mptLinkStatWidth m) (min w 2) s)
    let u := setInt (.mpt m) I.mptLinkUp (flagF (F.mptLinkStatFlit m) fl (setF (F.mptLinkStatUp m) 1 t))
    exec (.mptLinkUp m sp w fl fe) s = .next (ymPump m (fenceRead m fe
      { u with par.members := tmod u.par.members m fun x => { x with downAt := none } })) := by
  intro t u
  have hfence' : getF (F.mptFenceResResult m)
      { u with par.members := tmod u.par.members m fun x => { x with downAt := none } } ≠ 3 :=
    (getF_mptFenceResResult_trained m fl _ _ _ s).trans_ne hfence
  have hcond : (onF (F.mptLinkStatUp m) s || onF (F.mptLinkCtrlPerst m) s || blockDown (.mpt m) s || sp = 0 ||
      w = 0) = false := by
    simp [onF_eq_false hup, onF_eq_false hperst, hdown, Nat.ne_of_gt hsp, Nat.ne_of_gt hw]
  change execMptLinkUp m sp w fl fe s = _
  rw [execMptLinkUp, live_of_not_halted hs, hcond, if_neg Bool.false_ne_true]
  dsimp only
  rw [mptDown_idle hup hun, if_neg hfence']

theorem exec_mptLinkDown_up {m : Nat} {s : State} (hs : halted s = false) (hup : getF (F.mptLinkStatUp m) s = 1) :
    exec (.mptLinkDown m) s = .next (linkLost m (mptGone m s)) := by
  change execMptLinkDown m s = _
  rw [execMptLinkDown, live_of_not_halted hs, mptDown, onF_eq_true hup, Bool.true_or, if_pos rfl]

/-- The fields behind recording an error lie below every module port's page. -/
theorem offRecord_mptLinkStatUp (m : Nat) : OffRecord (F.mptLinkStatUp m) := fun g hg => by
  have hbelow : ∀ g ∈ recordFields, fkey g < 0x320000 * 32 := by decide
  have habove : 0x320000 * 32 ≤ fkey (F.mptLinkStatUp m) := by
    simp only [fkey, F.mptLinkStatUp]; omega
  exact Nat.ne_of_gt (Nat.lt_of_lt_of_le (hbelow g hg) habove)

/-- The error, the interrupt and the count of a lost link leave UP as the loss has set it (R473). -/
theorem getF_mptLinkStatUp_lost (m : Nat) (s : State) :
    getF (F.mptLinkStatUp m) (setInt (.mpt m) I.mptLinkDown (note (.mpt m) E.mptLinkLost 0xFF
      (incSatF (F.mptLinkStatDowns m) 1 s))) = getF (F.mptLinkStatUp m) s := by
  have hkeys : ∀ g ∈ [H.intStat (.mpt m), H.errStat (.mpt m), F.mptLinkStatDowns m],
      fkey (F.mptLinkStatUp m) ≠ fkey g := by
    simp only [List.forall_mem_cons, List.not_mem_nil, false_implies, implies_true, and_true, fkey,
      F.mptLinkStatUp, H.intStat, H.errStat, base, F.mptLinkStatDowns]
    omega
  rw [getF_setInt_ne _ (hkeys _ (by simp)), getF_note_ne (offRecord_mptLinkStatUp m) _ (hkeys _ (by simp)), incSatF,
    getF_setF_ne _ _ (hkeys _ (by simp))]

theorem mptGone_down {m : Nat} {s : State} (hup : getF (F.mptLinkStatUp m) s = 1) :
    getF (F.mptLinkStatUp m) (mptGone m s) = 0 ∧ bit (getF (H.intStat (.mpt m)) (mptGone m s)) I.mptLinkDown = true := by
  rw [mptGone, onF_eq_true hup, Bool.not_true, if_neg Bool.false_ne_true]
  refine ⟨?_, bit_intStat_setInt _ _ (by decide)⟩
  have hmembers : ∀ (t : State) (ms : Tbl Member), getF (F.mptLinkStatUp m) { t with par.members := ms } =
      getF (F.mptLinkStatUp m) t := fun _ _ => rfl
  rw [getF_mptLinkStatUp_lost, hmembers, getF_setF_self _ _ rfl, ftrunc, Nat.zero_mod]

theorem exec_mptPerst_open {m : Nat} {s : State} (hs : halted s = false) (hpwr : getF (H.pwrState (.mpt m)) s ≠ 2)
    (hst : getF (H.state (.mpt m)) s ≠ 5) :
    exec (.mptPerst m true) s = .next (mptDown m (flagF (F.mptLinkCtrlPerst m) true s)) ∧
    exec (.mptPerst m false) s = .next (flagF (F.mptLinkCtrlPerst m) false s) := by
  have hwrite : ∀ a, exec (.mptPerst m a) s = .next (if a then mptDown m (flagF (F.mptLinkCtrlPerst m) a s)
      else flagF (F.mptLinkCtrlPerst m) a s) := fun a => by
    change execMptPerst m a s = _
    rw [execMptPerst, live_of_not_halted hs, regWrite_of_open hpwr hst]
  exact ⟨hwrite true, hwrite false⟩

/-! Admission. -/

section
variable {m : Nat} {r : ModRec} {y : YmRegs} {s : State} (hs : halted s = false) (hup : getF (F.mptLinkStatUp m) s = 1)
  (hrun : running (.mpt m) s = true)
include hs hup hrun

theorem exec_moduleAdmit_refused (hbad : admitOk r y = false) :
    exec (.moduleAdmit m r y) s = .next (note (.mpt m) E.mptAdmitRefused 0xFF (flagF (F.mptModStatI3c m) r.i3c
      (setF (F.mptModStatYstat m) (y.stat / 2 % 32) (flagF (F.mptModStatMirValid m) (r.crcOk && r.magic == 0x494D4B48) s)))) := by
  change execModuleAdmit m r y s = _
  rw [execModuleAdmit, live_of_not_halted hs]
  simp [onF_eq_true hup, hrun, hbad]

theorem exec_moduleAdmit_new (hok : admitOk r y = true) (hnew : (memOf m s).st = .absent) :
    exec (.moduleAdmit m r y) s = .next (admitNew m r (flagF (F.mptModStatAdmitted m) true (flagF (F.mptModStatI3c m) r.i3c
      (setF (F.mptModStatYstat m) (y.stat / 2 % 32) (flagF (F.mptModStatMirValid m) (r.crcOk && r.magic == 0x494D4B48) s))))) := by
  have hnew' : (memOf m (flagF (F.mptModStatI3c m) r.i3c (setF (F.mptModStatYstat m) (y.stat / 2 % 32)
      (flagF (F.mptModStatMirValid m) (r.crcOk && r.magic == 0x494D4B48) s)))).st = .absent := by
    simpa [memOf] using hnew
  change execModuleAdmit m r y s = _
  rw [execModuleAdmit, live_of_not_halted hs]
  simp [onF_eq_true hup, hrun, hok, hnew']

end

/-! The sideband. -/

theorem exec_moduleAlert_valid {m : Nat} {r : ModRec} {s : State} (hs : halted s = false)
    (hi3c : getF (F.mptModStatI3c m) s = 1) (hcrc : r.crcOk = true) (hmagic : r.magic = 0x494D4B48) :
    exec (.moduleAlert m r) s =
      .next (recordRead m r (flagF (F.mptModStatMirValid m) true (setInt (.mpt m) I.mptAlert s))) := by
  change execModuleAlert m r s = _
  rw [execModuleAlert, live_of_not_halted hs]
  simp [onF_eq_true hi3c, hcrc, hmagic]

theorem exec_sidebandPoll_fatal {m y : Nat} {s : State} (hs : halted s = false) (hi3c : getF (F.mptModStatI3c m) s = 0)
    (hadm : getF (F.mptModStatAdmitted m) s = 1) (hfatal : bit y 1 = true) :
    let t := setF (F.mptModStatYstat m) (y / 2 % 32) s
    exec (.sidebandPoll m y) s = .next (putMem m { memOf m t with fatal := true } t) := by
  change execSidebandPoll m y s = _
  rw [execSidebandPoll, live_of_not_halted hs]
  simp [onF_eq_false hi3c, onF_eq_true hadm, hfatal]

/-! System records. -/

theorem exec_systemRecordMove_next {m : Nat} {s : State} (hs : halted s = false) (hrecs : s.mods.sysRecs = [m])
    (hsvc : inSvc s = [m + 1]) : exec .systemRecordMove s = .next { s with mods.sysRecs := [m + 1] } := by
  change execSystemRecordMove s = _
  rw [execSystemRecordMove, live_of_not_halted hs]
  simp [hrecs, hsvc]

/-- Settles O40: one command a clause, and `mptGone_down` for a link that goes down. -/
theorem moduleLinksAreAdmittedAndWatched : Obligations.ModuleLinksAreAdmittedAndWatched :=
  ⟨fun _ _ _ fe fl _ hs hup hperst hdown hsp hw => exec_mptLinkUp_trained fe fl hs hup hperst hdown hsp hw,
   fun _ _ => exec_mptLinkDown_up, fun _ _ _ => mptGone_down, fun _ _ => exec_mptPerst_open,
   fun _ _ _ _ => exec_moduleAdmit_refused, fun _ _ _ _ => exec_moduleAdmit_new, fun _ _ _ => exec_moduleAlert_valid,
   fun _ _ _ => exec_sidebandPoll_fatal, fun _ _ => exec_systemRecordMove_next⟩

end Sys2Proof.Machine
end

section
/-! The pair's comparison, arbitration, heartbeat, detection, fences and takeover (R492, R569–R582). -/

namespace Sys2Proof.Machine

/-! Comparison (R569–R573). -/

/-- A digest that has arrived shows in the register file and in the instant of the last one alone. -/
@[simp] theorem digestSeen_frame (s : State) :
    (digestSeen s).now = s.now ∧ (digestSeen s).pins = s.pins ∧
    (digestSeen s).pair = { s.pair with lastDig := some s.now } := by
  simp [digestSeen]

section
variable {s : State} (hs : halted s = false) (hcmp : comparing s = true)
include hs hcmp

/-- A window of fewer than 256 clauses closes only 4 µs after the one before. -/
theorem exec_digestWindowClose_due
    (hdue : min 256 (s.ftu.csnext - s.pair.nextWin) = 256 ∨ 4000 ≤ s.now - s.pair.winAt) :
    let n := min 256 (s.ftu.csnext - s.pair.nextWin)
    let l := winOf s.pair.nextWin n s.ftu.jrnl
    let w : DigWin := ⟨s.pair.nextWin, n, cDig l, mDig l, s.now, false⟩
    exec .digestWindowClose s = .next (sendTroys (.digest false s.pins.headSel w.first n w.cdig w.mdig)
      (count .ocu 0x01 1 { s with
        pair.ownWins := s.pair.ownWins ++ [w], pair.nextWin := s.pair.nextWin + n, pair.winAt := s.now })) := by
  intro n l w
  have hopen : (!comparing s || (decide (n < 256) && decide (s.now - s.pair.winAt < 4000))) = false := by
    rcases hdue with h | h
    · simp [hcmp, n, h]
    · simp [hcmp, Nat.not_lt.mpr h]
  change execDigestWindowClose s = _
  rw [execDigestWindowClose, live_of_not_halted hs]
  dsimp only
  rw [hopen, if_neg Bool.false_ne_true]
  simp only [count_frame, n, l, w]

theorem exec_arbitrate_first {o n : Nat} (hup : troysUp s = true) (ho : o ≤ 1) (harb : s.pair.arb = none) :
    exec (.arbitrate o n) s =
      .next (incSatF F.ocuCountsArbitrations 1 (setF F.ocuStatArbitrating 1 { s with pair.arb := some (o, n) })) := by
  change execArbitrate o n s = _
  rw [execArbitrate, live_of_not_halted hs, if_neg (by simp [hcmp, hup, ho]), arbBegin, harb, Option.isSome_none,
    if_neg Bool.false_ne_true]

theorem exec_answerLate_due {n : Nat}
    (hlate : s.pair.ownWins.any (fun w => w.first == n && !w.late && decide (100000 ≤ s.now - w.at_)) = true) :
    exec (.answerLate n) s = .next (note .ocu E.ocuAnswerLate 0xFF { s with
      pair.ownWins := modAll (fun w => w.first == n) (fun w => { w with late := true }) s.pair.ownWins }) := by
  change execAnswerLate n s = _
  rw [execAnswerLate, live_of_not_halted hs, hcmp, hlate, Bool.not_true, Bool.or_self, if_neg Bool.false_ne_true]

section
variable {m : DigestMsg} (hup : troysUp s = true)
include hup

theorem exec_digestMessage_owner (hans : m.answer = false) (hstream : m.stream = peerHead s)
    (hwins : s.pair.peerWins = []) :
    exec (.digestMessage m) s = .next (answerAll { digestSeen s with
      pair.peerWins := [⟨m.first, m.count, m.cdig, m.mdig, s.now, false⟩] }) := by
  have hstream' : m.stream = peerHead (digestSeen s) := by simpa [peerHead] using hstream
  change execDigestMessage m s = _
  rw [execDigestMessage, live_of_not_halted hs, hcmp, hup, Bool.not_true, Bool.or_self, if_neg Bool.false_ne_true]
  simp [hans, hstream', hwins]

section
variable {w : DigWin} (hans : m.answer = true) (hstream : m.stream = s.pins.headSel) (hwins : s.pair.ownWins = [w])
  (hfirst : w.first = m.first) (hcount : w.count = m.count)
include hans hstream hwins hfirst hcount

/-- The answer to the one window that waits ends it; then the digests are compared (R571). -/
theorem exec_digestMessage_answer :
    let t := set64 F.ocuOwnWinLoOwn F.ocuOwnWinHiOwn w.first (count .ocu 0x02 1 { digestSeen s with pair.ownWins := [] })
    exec (.digestMessage m) s = .next (if m.cdig != w.cdig || (conjunction t && m.mdig != w.mdig) then
      mismatch s.pins.headSel w.first t else t) := by
  intro t
  have hpins : t.pins = s.pins := by simp [t, set64]
  have hfind : (digestSeen s).pair.ownWins.find? (fun x => m.stream == (digestSeen s).pins.headSel &&
      x.first == m.first && x.count == m.count) = some w := by
    simp [hwins, hstream, hfirst, hcount]
  have hends : (digestSeen s).pair.ownWins.filter (fun x => x.first != w.first || x.count != w.count) = [] := by
    simp [hwins]
  change execDigestMessage m s = _
  rw [execDigestMessage, live_of_not_halted hs, hcmp, hup, Bool.not_true, Bool.or_self, if_neg Bool.false_ne_true]
  dsimp only
  rw [hans, Bool.not_true, if_neg Bool.false_ne_true, hfind]
  dsimp only
  rw [hends, ← hpins]

theorem exec_digestMessage_agrees (hc : m.cdig = w.cdig) (hm : m.mdig = w.mdig) :
    exec (.digestMessage m) s = .next (set64 F.ocuOwnWinLoOwn F.ocuOwnWinHiOwn w.first (count .ocu 0x02 1
      { digestSeen s with pair.ownWins := [] })) := by
  rw [exec_digestMessage_answer hs hcmp hup hans hstream hwins hfirst hcount, if_neg (by simp [hc, hm])]

theorem exec_digestMessage_differs (hc : m.cdig ≠ w.cdig) :
    exec (.digestMessage m) s = .next (mismatch s.pins.headSel w.first (set64 F.ocuOwnWinLoOwn F.ocuOwnWinHiOwn w.first
      (count .ocu 0x02 1 { digestSeen s with pair.ownWins := [] }))) := by
  rw [exec_digestMessage_answer hs hcmp hup hans hstream hwins hfirst hcount, if_pos (by simp [hc])]

end

end

end

/-! Arbitration's verdict (R572). -/

section
variable {o n : Nat} {s : State} (hs : halted s = false) (harb : s.pair.arb = some (o, n)) (hrun : running .ocu s = true)
include hs harb hrun

theorem exec_arbitrationVerdict_owner (own peer : Bool) (ho : o = s.pins.headSel) :
    let t := sendTroys (.verdict own) (setF F.ocuStatArbitrating 0 { s with pair.arb := none })
    exec (.arbitrationVerdict o own peer) s = .next (
      if own then (if peer then diverged true (setF F.ocuStatVerdict 3 t) else setF F.ocuStatVerdict 1 t)
      else if peer then raise .ocu E.ocuSelfCheck 0xFF t else raise .ocu E.ocuPipeFault 0xFF (setF F.ocuStatVerdict 2 t)) := by
  have howner : (o == s.pins.headSel) = true := beq_iff_eq.mpr ho
  change execArbitrationVerdict o own peer s = _
  rw [execArbitrationVerdict, live_of_not_halted hs, harb]
  dsimp only
  rw [if_neg (by simp [hrun]), howner]
  cases own <;> cases peer <;> rfl

theorem exec_arbitrationVerdict_standby (own peer : Bool) (ho : o ≠ s.pins.headSel) :
    let t := sendTroys (.verdict own) (setF F.ocuStatArbitrating 0 { s with pair.arb := none })
    exec (.arbitrationVerdict o own peer) s = .next (
      if peer then (if own then diverged false (setF F.ocuStatVerdict 3 t) else raise .ocu E.ocuSelfCheck 0xFF t)
      else if own then setF F.ocuStatVerdict 1 t else raise .ocu E.ocuSelfCheck 0xFF (setF F.ocuStatVerdict 2 t)) := by
  have hstandby : (o == s.pins.headSel) = false := beq_eq_false_iff_ne.mpr ho
  change execArbitrationVerdict o own peer s = _
  rw [execArbitrationVerdict, live_of_not_halted hs, harb]
  dsimp only
  rw [if_neg (by simp [hrun]), hstandby]
  cases own <;> cases peer <;> rfl

end

/-! Heartbeat (R574, R575). -/

/-- No instant is too recent when each lies far enough back. -/
theorem any_lt_of_all_le {o : Option Nat} {d now : Nat} (h : o.all (fun t => decide (d ≤ now - t)) = true) :
    o.any (fun t => decide (now - t < d)) = false := by
  cases o with
  | none => rfl
  | some t => simpa using h

theorem exec_heartbeatSend_due {s : State} (hgrave : graved s = false) (hheld : s.pwc.held = false)
    (hen : getF F.hbuCtrlTxEn s = 1) (hdown : blockDown .hbu s = false)
    (hdue : s.pair.hbTx.all (fun t => decide (1000 ≤ s.now - t)) = true) :
    exec .heartbeatSend s = .next (emit (.heartbeat (hbWordOf (hbState s) s))
      { s with pair.hbSeq := s.pair.hbSeq + 1, pair.hbTx := some s.now }) := by
  change execHeartbeatSend s = _
  rw [execHeartbeatSend, if_neg (by simp [hgrave, hheld, onF_eq_true hen, hdown, any_lt_of_all_le hdue]), hbSend]

/-- What a valid word shows of the peer (R574): its sequence number, head and state, in both pages. -/
def beatShown (v : Nat) (s : State) : State :=
  setF F.mirPairStatPeerState (bits v 12 9) (setF F.hbuStatRxOk 1 (setF F.hbuStatPeerState (bits v 12 9)
    (setF F.hbuStatPeerHead (bits v 8 8) (setF F.hbuStatRxSeq (bits v 31 16) { s with pair.hbAt := some s.now }))))

section
variable {w : BitVec 64} {s : State} (hs : halted s = false) (hdown : blockDown .hbu s = false)
include hs hdown

theorem exec_heartbeatWord_badCrc (hcrc : bits w.toNat 63 48 ≠ crc16 (toBytes 6 (w.toNat % 2 ^ 48))) :
    exec (.heartbeatWord w) s = .next (note .hbu E.hbuCrcErr 0xFF (incSatF F.hbuErrsCrcErrs 1 s)) := by
  change execHeartbeatWord w s = _
  rw [execHeartbeatWord, live_of_not_halted hs, hdown, if_neg Bool.false_ne_true]
  dsimp only
  rw [if_pos (bne_iff_ne.mpr hcrc)]

section
variable (hcrc : bits w.toNat 63 48 = crc16 (toBytes 6 (w.toNat % 2 ^ 48))) (hsync : w.toNat % 256 = 0xA5)
  (hpair : bits w.toNat 47 32 = getF F.hqePairIdLoPairLo s % 65536)
include hcrc hsync hpair

/-- A valid word shows the peer, interrupts when its state has changed, and may sever the head or be looked at for
detection (R574–R577). -/
theorem exec_heartbeatWord_valid :
    let b := beatShown w.toNat s
    let t := sever (if getF F.mirPairStatPeerState s != bits w.toNat 12 9 then
      setInt .mir I.mirPeerState (setInt .hbu I.hbuPeerState b) else b)
    exec (.heartbeatWord w) s = .next (
      if bits w.toNat 12 9 = 4 then detect 2 t else if bits w.toNat 12 9 = 5 then detect 3 t else t) := by
  change execHeartbeatWord w s = _
  rw [execHeartbeatWord, live_of_not_halted hs, hdown, if_neg Bool.false_ne_true]
  dsimp only
  rw [if_neg (by simp [hcrc]), if_neg (by simp [hsync]), if_neg (by simp [hpair])]
  rfl

theorem exec_heartbeatWord_same (h4 : bits w.toNat 12 9 ≠ 4) (h5 : bits w.toNat 12 9 ≠ 5)
    (hsame : getF F.mirPairStatPeerState s = bits w.toNat 12 9) :
    exec (.heartbeatWord w) s = .next (sever (beatShown w.toNat s)) := by
  rw [exec_heartbeatWord_valid hs hdown hcrc hsync hpair, if_neg h4, if_neg h5, if_neg (by simp [hsame])]

theorem exec_heartbeatWord_yielding (h4 : bits w.toNat 12 9 = 4) (hnew : getF F.mirPairStatPeerState s ≠ 4) :
    exec (.heartbeatWord w) s = .next (detect 2 (sever (setInt .mir I.mirPeerState (setInt .hbu I.hbuPeerState
      (beatShown w.toNat s))))) := by
  rw [exec_heartbeatWord_valid hs hdown hcrc hsync hpair, if_pos h4, if_pos (by simp [h4, hnew])]

end

end

theorem exec_heartbeatSilent_due {s : State} (hs : halted s = false) (hok : getF F.hbuStatRxOk s = 1)
    (hdue : s.pair.hbAt.all (fun t => decide (2500 ≤ s.now - t)) = true) :
    exec .heartbeatSilent s = .next (detectSilent (note .hbu E.hbuSilent 0xFF
      (incSatF F.hbuErrsSilences 1 (setF F.hbuStatRxOk 0 (setF F.mirPairStatPeerState 0xF s))))) := by
  change execHeartbeatSilent s = _
  rw [execHeartbeatSilent, live_of_not_halted hs, if_neg (by simp [onF_eq_true hok, any_lt_of_all_le hdue])]

/-! Detection (R573, R577). -/

theorem exec_digestStreamTimeout_serving {t : Nat} {s : State} (hs : halted s = false) (hjoined : s.pair.joined = true)
    (hstream : getF F.ocuStatStreamOk s = 1) (hlast : s.pair.lastDig = some t) (hdue : 8000 ≤ s.now - t)
    (hok : getF F.hbuStatRxOk s = 1) (hpeer : getF F.hbuStatPeerState s = 2) :
    exec .digestStreamTimeout s =
      .next (detectSilent (note .ocu E.ocuStreamLost 0xFF (setF F.ocuStatStreamOk 0 s))) := by
  have hok' : getF F.hbuStatRxOk (setF F.ocuStatStreamOk 0 s) = 1 := (getF_setF_ne _ _ (by decide)).trans hok
  have hpeer' : getF F.hbuStatPeerState (setF F.ocuStatStreamOk 0 s) = 2 :=
    (getF_setF_ne _ _ (by decide)).trans hpeer
  change execDigestStreamTimeout s = _
  rw [execDigestStreamTimeout, live_of_not_halted hs, if_neg (by simp [hjoined, onF_eq_true hstream, hlast, hdue])]
  dsimp only
  rw [if_pos (by simp [onF_eq_true hok', hpeer'])]

theorem exec_peerFault {s : State} (hs : halted s = false) :
    exec .peerFault s = .next (detect 1 { setF F.hbuStatPeerFault 1 s with pins.peerFaultN := false }) := by
  change execPeerFault s = _
  rw [execPeerFault, live_of_not_halted hs]

/-- Head 0 issues its fences as it detects the failure, whatever the cause (R577). -/
theorem detect_fences {c : Nat} {s : State} (hen : getF F.mirCtrlEclEn s = 1) (hjoined : s.pair.joined = true)
    (hecl : s.pair.ecl = none) (hsev : getF F.mirPairStatSevered s = 0) (hin : s.pwc.inputOk = true)
    (hdump : s.pwc.dumping = false) (hcur : getF F.mirPairStatMirrorCurrent s = 1)
    (hgroups : s.hqe.groups.any (fun g => !g.mine) = true) (hhead : s.pins.headSel % 2 = 0) :
    let e : Eclipse := ⟨c, s.now, false, false⟩
    let t := setF F.mirPairStatEclipseBusy 1 { s with pair.ecl := some e }
    let u := set64 F.mirEclLastLoLast F.mirEclLastHiLast (stamp { s with pair.ecl := some e }) t
    detect c s = fenceAll (setF F.mirEclTimesCause c
      (setF F.mirEclTimesDetectUs (min 255 ((s.now - lastSeen s) / 1000)) u)) := by
  have hstagger : (s.pins.headSel % 2 == 1 && (c == 4 || c == 5)) = false := by simp [hhead]
  intro e t u
  rw [detect, if_neg (by simp [onF_eq_true hen, hjoined, hecl, onF_eq_false hsev, hin, hdump]),
    if_neg (by rw [onF_eq_true hcur, hgroups]; decide), hstagger]
  rfl

/-! Fences (R492, R577, R580). -/

theorem exec_fenceStaggerExpiry_due {e : Eclipse} {s : State} (hs : halted s = false) (hecl : s.pair.ecl = some e)
    (hstag : e.stagger = true) (hfenced : e.fenced = false) (hdue : 4000 ≤ s.now - e.at_) :
    exec .fenceStaggerExpiry s = .next (fenceAll s) := by
  change execFenceStaggerExpiry s = _
  rw [execFenceStaggerExpiry, live_of_not_halted hs, hecl]
  simp [hstag, hfenced, hdue]

/-- A fence's result and the value it has shown leave the pair's own state. -/
theorem fenceSettled_pair (m r v : Nat) (s : State) : (fenceResult m r (fenceShow m v s)).pair = s.pair := by
  simp [fenceResult, fenceShow]

section
variable {m v : Nat} {c : Cas} {s : State} (hs : halted s = false) (hcas : s.mods.cas = [c]) (hm : c.m = m)
  (hdone : c.done = false) (hup : getF (F.mptLinkStatUp m) s = 1)
include hs hcas hm hdone hup

theorem exec_fenceCasComplete_won (hv : v = c.compare) :
    exec (.fenceCasComplete m v) s = .next (ymPump m (fenceResult m 1 (fenceShow m c.swap
      { s with mods.cas := [{ c with done := true, won := true }] }))) := by
  change execFenceCasComplete m v s = _
  rw [execFenceCasComplete, live_of_not_halted hs, hcas]
  simp [hm, hdone, onF_eq_true hup, hv, modAll]

theorem exec_fenceCasComplete_lost (hv : v ≠ c.compare) (htried : c.tried.contains v = false)
    (hecl : s.pair.ecl = none) :
    exec (.fenceCasComplete m v) s = .next (fencedOut (fenceResult m 2 (fenceShow m v
      { s with mods.cas := [{ c with done := true, won := false }] }))) := by
  have hother : (v == c.compare) = false := beq_eq_false_iff_ne.mpr hv
  have htried' : v ∉ c.tried := by simpa using htried
  change execFenceCasComplete m v s = _
  rw [execFenceCasComplete, live_of_not_halted hs, hcas]
  simp [hm, hdone, onF_eq_true hup, hother, htried', modAll, fenceSettled_pair, hecl]

end

theorem exec_fenceCasTimeout_due {m : Nat} {s : State} (hs : halted s = false)
    (hdue : s.mods.cas.any (fun c => c.m == m && !c.done && decide (6000 ≤ s.now - c.at_)) = true)
    (hup : getF (F.mptLinkStatUp m) s = 1) :
    exec (.fenceCasTimeout m) s = .next (fenceUnreachable m (blockReset (.mpt m) s)) := by
  change execFenceCasTimeout m s = _
  rw [execFenceCasTimeout, live_of_not_halted hs, hdue, onF_eq_true hup, Bool.not_true, Bool.or_self,
    if_neg Bool.false_ne_true]

/-! The takeover's decision (R579–R582). -/

/-- What the decision shows of the takeover leaves the results of the fences. -/
theorem getF_mptFenceResResult_decided (m us : Nat) (e : Option Eclipse) (s : State) :
    getF (F.mptFenceResResult m) (setF F.mirEclTimesFenceUs us (setF F.mirPairStatEclipseBusy 0
      { s with pair.ecl := e })) = getF (F.mptFenceResResult m) s := by
  obtain ⟨htime, hbusy⟩ : fkey (F.mptFenceResResult m) ≠ fkey F.mirEclTimesFenceUs ∧
      fkey (F.mptFenceResResult m) ≠ fkey F.mirPairStatEclipseBusy := by
    simp only [fkey, F.mptFenceResResult, F.mirEclTimesFenceUs, F.mirPairStatEclipseBusy]
    omega
  rw [getF_setF_ne _ _ htime, getF_setF_ne _ _ hbusy]
  rfl

section
variable {e : Eclipse} {s : State} (hs : halted s = false) (hecl : s.pair.ecl = some e) (hfenced : e.fenced = true)
include hs hecl hfenced

theorem exec_fenceDecision_unfenced (hcas : s.mods.cas = []) :
    let us := min 255 ((s.now - e.at_) / 1000)
    exec .fenceDecision s = .next (seize (setF F.mirEclTimesRearmUs us (setF F.mirEclTimesFenceUs us
      (setF F.mirPairStatEclipseBusy 0 { s with pair.ecl := none })))) := by
  change execFenceDecision s = _
  rw [execFenceDecision, live_of_not_halted hs, hecl]
  simp [hfenced, hcas]

theorem exec_fenceDecision_lost {c : Cas} (hcas : s.mods.cas = [c]) (hdone : c.done = true) (hwon : c.won = false)
    (hres : getF (F.mptFenceResResult c.m) s = 2) :
    let us := min 255 ((s.now - e.at_) / 1000)
    exec .fenceDecision s = .next (raise .mir E.mirFenceLost 0xFF (setF F.mirEclTimesFenceUs us
      (setF F.mirPairStatEclipseBusy 0 { s with pair.ecl := none }))) := by
  change execFenceDecision s = _
  rw [execFenceDecision, live_of_not_halted hs, hecl]
  simp [hfenced, hcas, hdone, hwon, getF_mptFenceResResult_decided, hres]

end

/-- Settles O49: one command a clause, `detect_fences` for the detection, and the verdict by whose stream it is. -/
theorem pairComparesBeatsAndTakesOver : Obligations.PairComparesBeatsAndTakesOver :=
  ⟨fun _ => exec_digestWindowClose_due,
   fun _ _ _ hs hcmp hup hans hstream hwins hfirst hcount =>
     exec_digestMessage_agrees hs hcmp hup hans hstream hwins hfirst hcount,
   fun _ _ _ hs hcmp hup hans hstream hwins hfirst hcount =>
     exec_digestMessage_differs hs hcmp hup hans hstream hwins hfirst hcount,
   fun _ _ hs hcmp hup => exec_digestMessage_owner hs hcmp hup,
   fun _ _ _ hs hcmp => exec_arbitrate_first hs hcmp,
   fun _ _ own peer _ hs harb hrun => exec_arbitrationVerdict_owner hs harb hrun own peer,
   fun _ _ own peer _ hs harb hrun => exec_arbitrationVerdict_standby hs harb hrun own peer,
   fun _ _ hs hcmp => exec_answerLate_due hs hcmp,
   fun _ => exec_heartbeatSend_due,
   fun _ _ hs hdown hcrc hsync hpair => exec_heartbeatWord_same hs hdown hcrc hsync hpair,
   fun _ _ hs hdown hcrc hsync hpair => exec_heartbeatWord_yielding hs hdown hcrc hsync hpair,
   fun _ _ hs hdown => exec_heartbeatWord_badCrc hs hdown,
   fun _ => exec_heartbeatSilent_due,
   fun _ _ => exec_digestStreamTimeout_serving,
   fun _ => exec_peerFault,
   fun _ _ => detect_fences,
   fun _ _ => exec_fenceStaggerExpiry_due,
   fun _ _ _ _ hs hcas hm hdone hup => exec_fenceCasComplete_won hs hcas hm hdone hup,
   fun _ _ _ _ hs hcas hm hdone hup => exec_fenceCasComplete_lost hs hcas hm hdone hup,
   fun _ _ => exec_fenceCasTimeout_due,
   fun _ _ hs hecl hfenced => exec_fenceDecision_unfenced hs hecl hfenced,
   fun _ _ _ hs hecl hfenced => exec_fenceDecision_lost hs hecl hfenced⟩

end Sys2Proof.Machine
end

section
/-! Cuts: the epoch's map, the current map and the reserve (R406, R524–R530). -/

namespace Sys2Proof.Machine

/-! A SYSTEM clause. -/

/-- A SYSTEM clause is only counted where it applies: it names no unit (R406, R407). -/
theorem applyClause_system (cseq flags nsid p0 p1 p2 : Nat) (s : State) :
    applyClause cseq (mkClause cSystem flags nsid p0 p1 p2) s = count .ftu 0x01 1 s := rfl

@[simp] theorem sysClause_maps (nsid key v : Nat) (s : State) : (sysClause nsid key v s).ftu.maps = s.ftu.maps := by
  simp [sysClause, clause, applyClause_system, journal]

@[simp] theorem sysClause_eph (nsid key v : Nat) (s : State) : (sysClause nsid key v s).eph = s.eph := by
  simp [sysClause, clause, applyClause_system, journal]

/-! The map of an epoch. -/

/-- A map is read from the list of maps alone. -/
theorem mapOf_of_maps_eq {s t : State} (h : t.ftu.maps = s.ftu.maps) (e k : Nat) : mapOf e k t = mapOf e k s := by
  rw [mapOf, mapOf, h]

@[simp] theorem setMap_eph (e k : Nat) (m : Tbl Nat) (s : State) : (setMap e k m s).eph = s.eph := rfl

/-- The maps other than that of `k` in epoch `e`. -/
def mapsBut (e k : Nat) (s : State) : List MapOf := s.ftu.maps.filter fun x => !(x.epoch == e && x.nsid == k)

theorem setMap_maps (e k : Nat) (m : Tbl Nat) (s : State) :
    (setMap e k m s).ftu.maps = if m.isEmpty then mapsBut e k s else mapsBut e k s ++ [{ epoch := e, nsid := k, entries := m }] := rfl

theorem find?_mapsBut_self (e k : Nat) (s : State) : (mapsBut e k s).find? (fun x => x.epoch == e && x.nsid == k) = none := by
  rw [mapsBut, List.find?_eq_none]
  intro x hx
  simpa only [Bool.not_eq_true', Bool.not_eq_true] using (List.mem_filter.mp hx).2

theorem find?_mapsBut_ne {e e' : Nat} (h : e' ≠ e) (k k' : Nat) (s : State) :
    (mapsBut e k s).find? (fun x => x.epoch == e' && x.nsid == k') = s.ftu.maps.find? fun x => x.epoch == e' && x.nsid == k' := by
  rw [mapsBut, List.find?_filter]
  refine congrArg (List.find? · _) (funext fun x => Bool.eq_iff_iff.mpr ?_)
  by_cases hx : x.epoch = e'
  · simp [hx, h]
  · simp [hx]

theorem mapOf_setMap_self (e k : Nat) (m : Tbl Nat) (s : State) : mapOf e k (setMap e k m s) = m := by
  rw [mapOf, setMap_maps]
  cases m with
  | nil => rw [List.isEmpty_nil, if_pos rfl, find?_mapsBut_self]
  | cons => simp [List.find?_append, find?_mapsBut_self]

theorem mapOf_setMap_ne {e e' : Nat} (h : e' ≠ e) (k k' : Nat) (m : Tbl Nat) (s : State) :
    mapOf e' k' (setMap e k m s) = mapOf e' k' s := by
  rw [mapOf, mapOf, setMap_maps, ← find?_mapsBut_ne h k k' s]
  cases m with
  | nil => rfl
  | cons => simp [List.find?_append, h.symm]

/-! The cut of one namespace. -/

/-- With an empty reserve a cut is skipped, with EPOCH_LIMIT (R529). -/
theorem cutNs_of_reserve_empty {s : State} (h : s.eph.reserve = []) (x : Epoch) (i : Nat) :
    cutNs x i s = (0, note .eph E.ephEpochLimit 0xFF s) := by
  rw [cutNs, h]

/-- What a cut with a number and room does: of the maps it sets its epoch's alone, to the current one of its namespace
(R528), and the epoch enters the list with the cut's own state and SEQ (R525, R530). -/
theorem cutNs_of_room {n i : Nat} {r : List Nat} {s : State} (hres : s.eph.reserve = n :: r)
    (hroom : (s.eph.epochs.filter fun e => e.nsid == i).length < 4096) (htotal : s.eph.epochs.length < 1048575) (x : Epoch) :
    ∃ t, cutNs x i s = (n, t) ∧ t.eph.reserve = r ∧ t.ftu.maps = (setMap n i (mapOf 0 i s) s).ftu.maps ∧
      ∃ y ∈ t.eph.epochs, y.no = n ∧ y.nsid = i ∧ y.st = x.st ∧ y.cutSeq = x.cutSeq := by
  have hfits : ¬(decide (4096 ≤ (s.eph.epochs.filter fun e => e.nsid == i).length) ||
      decide (1048575 ≤ s.eph.epochs.length)) = true := by simp [hroom, htotal]
  have hcur : mapOf 0 i (sysClause i n x.cutSeq { s with eph.reserve := r }) = mapOf 0 i s := mapOf_of_maps_eq (by simp) 0 i
  rw [cutNs, hres]
  dsimp only
  rw [if_neg hfits]
  refine ⟨_, rfl, ?_, ?_, ?_⟩
  · simp
  · simp [setMap_maps, mapsBut, hcur]
  · simp

/-- Settles O44: a cut sets its epoch's map alone (`cutNs_of_room`), and no epoch has the current map's number. -/
theorem cutGivesItsEpochTheCurrentMap : Obligations.CutGivesItsEpochTheCurrentMap := by
  refine ⟨fun x n i r s hres hn hroom htotal => ?_, fun x i _ hres => cutNs_of_reserve_empty hres x i⟩
  obtain ⟨t, hcut, hreserve, hmaps, hepoch⟩ := cutNs_of_room hres hroom htotal x
  have hmap := mapOf_of_maps_eq hmaps
  simp only [hcut]
  refine ⟨trivial, hreserve, fun u => ?_, fun k u => ?_, hepoch⟩
  · rw [mapGet, mapGet, hmap, mapOf_setMap_self]
  · rw [mapGet, mapGet, hmap, mapOf_setMap_ne hn.symm]

end Sys2Proof.Machine
end

section
/-! SUPPORT. What a reset of the head and the start of its boot ROM leave (R617, R628, R641). -/

namespace Sys2Proof.Machine

/-- Only a power cycle takes the Grave state (R617). -/
theorem wipe_fco_grave {k : ResetKind} (hk : k ≠ .power) (s : State) : (wipe k s).fco.grave = s.fco.grave := by
  rw [wipe_fco, if_neg hk]

theorem wipeBuffer_fab (k : ResetKind) (s : State) : (wipeBuffer k s).fab = s.fab := by
  unfold wipeBuffer
  dsimp only
  repeat' split
  all_goals rfl

theorem wipe_fab (k : ResetKind) (s : State) : (wipe k s).fab = State.reset.fab := by
  unfold wipe
  rw [resetRegs_keep (fun t => t.fab) (fun _ _ _ => by simp) (fun _ _ => rfl)]
  dsimp only [wipeControl, wipeBoot, wipePair, wipeMedia, wipeReduction, wipeTime]
  rw [wipeBuffer_fab]
  rfl

theorem mrExtend_parts (source mr event : Nat) (digest : List Byte) (s : State) :
    (mrExtend source mr event digest s).fco = s.fco ∧ (mrExtend source mr event digest s).wb = s.wb ∧
    (mrExtend source mr event digest s).fab = s.fab := by
  simp [mrExtend, apply_ite State.fco, apply_ite State.wb, apply_ite State.fab]

/-- Bringing a block up writes its registers alone (R56). -/
theorem bring_frame (b : Block) (s : State) : (bring b s).fco = s.fco ∧ (bring b s).wb = s.wb ∧ (bring b s).fab = s.fab := by
  simp [bring, setState]

/-- The head as the boot ROM finds it when it takes the identity block into MR0 (R377, R381). -/
def romStarted (s : State) : State :=
  let s := { s with sec := { s.sec with mr := State.reset.sec.mr, mrCnt := State.reset.sec.mrCnt, log := [] },
                    pins := { s.pins with idle := graved s } }
  let s := setF F.bldStatHead s.pins.headSel s
  let s := if graved s then forEach graveBlocks bring s else setF F.dgeCtrlJobEn 1 (forEach bootBlocks bring s)
  if s.bld.fwSt = 5 then { s with bld.wdogAt := some (s.now + 600000000000) } else s

theorem boot_eq (s : State) : boot s = mrExtend 0 0 0x0001 (Config.sha384 (romIdentity (romStarted s))) (romStarted s) := rfl

theorem romStarted_frame (s : State) :
    (romStarted s).fco = s.fco ∧ (romStarted s).wb = s.wb ∧ (romStarted s).fab = s.fab := by
  have hfco : ∀ l t, (forEach l bring t).fco = t.fco := fun _ _ => forEach_fco _ _ _ fun b t => (bring_frame b t).1
  have hwb : ∀ l t, (forEach l bring t).wb = t.wb := fun _ _ => forEach_wb _ _ _ fun b t => (bring_frame b t).2.1
  have hfab : ∀ l t, (forEach l bring t).fab = t.fab := fun _ _ => forEach_fab _ _ _ fun b t => (bring_frame b t).2.2
  simp [romStarted, apply_ite State.fco, apply_ite State.wb, apply_ite State.fab, hfco, hwb, hfab]

/-- The boot ROM's start leaves the faults, the write buffer and the connections as the reset left them. -/
theorem boot_frame (s : State) : (boot s).fco = s.fco ∧ (boot s).wb = s.wb ∧ (boot s).fab = s.fab := by
  simp [boot_eq, mrExtend_parts, romStarted_frame]

theorem hbSend_fco (st : Nat) (s : State) : (hbSend st s).fco = s.fco := rfl

theorem captureImage_fco (s : State) : (captureImage s).fco = s.fco := by
  unfold captureImage
  split <;> rfl

/-- A warm reset boots a head that it has reset; the heartbeat's word and the RETAIN record come before (R629). -/
theorem warmResetDo_boot (why : Nat) (s : State) :
    ∃ t, t.fco = s.fco ∧ warmResetDo why s = boot (setF F.pwcStatLastReset why (wipe .warm t)) := by
  refine ⟨_, ?_, rfl⟩
  simp [apply_ite State.fco, captureImage_fco, hbSend_fco]

theorem warmResetDo_grave (why : Nat) (s : State) : (warmResetDo why s).fco.grave = s.fco.grave := by
  obtain ⟨t, hfco, hboot⟩ := warmResetDo_boot why s
  rw [hboot, (boot_frame _).1, setF_fco, wipe_fco_grave (by decide), hfco]

end Sys2Proof.Machine
end

section
/-! The Grave state: which commands act in it, and that none but a power cycle leaves it (R616, R617). -/

namespace Sys2Proof.Machine

/-! What keeps the Grave state, as a change of the state. -/

theorem graved_of_fco {s t : State} (h : t.fco = s.fco) : graved t = graved s := by
  rw [graved, graved, h]

theorem halted_of_graved {s : State} (hs : graved s = true) : halted s = true := by
  simp [halted, hs]

theorem graved_ite {c : Prop} [Decidable c] {t u : State} (ht : graved t = true) (hu : graved u = true) :
    graved (if c then t else u) = true := by
  split <;> assumption

theorem graved_ite_else {c : Prop} [Decidable c] {t s : State} (hs : graved s = true) (ht : graved s = true → graved t = true) :
    graved (if c then t else s) = true :=
  graved_ite (ht hs) hs

theorem graved_ite_halted {t s : State} (hs : graved s = true) : graved (if halted s then s else t) = true := by
  rwa [if_pos (halted_of_graved hs)]

theorem graved_forEach {α : Type} {l : List α} {f : α → State → State} (hf : ∀ a t, graved t = true → graved (f a t) = true)
    {s : State} (hs : graved s = true) : graved (forEach l f s) = true := by
  unfold forEach
  induction l generalizing s with
  | nil => exact hs
  | cons a l ih => exact ih (hf a s hs)

theorem graved_regWrite {b : Block} {f : State → State} {s : State} (hs : graved s = true) (hf : graved (f s) = true) :
    graved (regWrite b f s) = true :=
  graved_ite ((graved_of_fco (by simp)).trans hs) hf

/-! What keeps the Grave state, as a command. -/

/-- In every Grave state the command answers a next state, and a Grave one. -/
def KeepsGrave (f : State → Res) : Prop := ∀ s, graved s = true → ∃ t, f s = .next t ∧ graved t = true

/-- A command that a halt leaves without effect. -/
theorem KeepsGrave.live (f : State → State) : KeepsGrave fun s => live s (f s) :=
  fun s hs => ⟨s, by simp [Machine.live, halted_of_graved hs], hs⟩

theorem KeepsGrave.next {f : State → State} (hf : ∀ s, graved s = true → graved (f s) = true) :
    KeepsGrave fun s => .next (f s) :=
  fun s hs => ⟨f s, rfl, hf s hs⟩

theorem KeepsGrave.nextFco {f : State → State} (hf : ∀ s, (f s).fco = s.fco) : KeepsGrave fun s => .next (f s) :=
  .next fun s hs => (graved_of_fco (hf s)).trans hs

/-- A command of MGE, which the Grave state leaves in service (R616), or of another endpoint. -/
theorem KeepsGrave.liveMge (mge : Bool) {f : State → State} (hf : ∀ s, (f s).fco = s.fco) :
    KeepsGrave fun s => liveMge mge s (f s) :=
  .next fun s hs => graved_ite hs ((graved_of_fco (hf s)).trans hs)

theorem graved_thenDo {f : State → Res} (hf : KeepsGrave f) {s : State} (hs : graved s = true) : graved (thenDo f s) = true := by
  obtain ⟨t, ht, hg⟩ := hf s hs
  rwa [thenDo, ht]

theorem graved_onChange {fl : Fld} {v : Nat} {f : Bool → State → Res} (hf : ∀ b, KeepsGrave (f b)) {s : State}
    (hs : graved s = true) : graved (onChange fl v f s) = true :=
  graved_ite hs (graved_thenDo (hf _) hs)

/-! Errors: the Grave state stops the reaction, not the record (R605). -/

theorem errRec_fco (x : ErrSrc) (cls inc : Nat) (sub raised : Bool) (s : State) : (errRec x cls inc sub raised s).fco = s.fco := by
  simp [errRec, drawNat]

theorem report_graved (x : ErrSrc) (c : Nat) {s : State} (hs : graved s = true) : (report x c s).fco = s.fco := by
  have hpulse : graved (pulse x.source c s) = true := (graved_of_fco (by simp)).trans hs
  simp [report, hpulse, errRec_fco]

theorem errEffects_fco (b : Block) (n : Nat) (s : State) : (errEffects b n s).fco = s.fco := by
  unfold errEffects
  split <;> rfl

theorem raise_graved (b : Block) (n lane : Nat) {s : State} (hs : graved s = true) : (raise b n lane s).fco = s.fco := by
  have hset : (errEffects b n (setErr b n s)).fco = s.fco := by simp [errEffects_fco]
  unfold raise raiseInj
  split
  · rfl
  dsimp only
  split
  · exact hset
  · rw [report_graved _ _ ((graved_of_fco hset).trans hs), hset]

theorem graved_raise (b : Block) (n lane : Nat) {s : State} (hs : graved s = true) : graved (raise b n lane s) = true :=
  (graved_of_fco (raise_graved b n lane hs)).trans hs

theorem graved_raiseHead (source inst lane p1 c : Nat) (blk : Option Block) {s : State} (hs : graved s = true) :
    graved (raiseHead source inst lane p1 c blk s) = true :=
  (graved_of_fco (report_graved _ c hs)).trans hs

theorem keepsGrave_errorPulse (b : Block) (n lane : Nat) : KeepsGrave (execErrorPulse b n lane) :=
  .next fun s hs => by
    simp only [hs, if_true]
    exact graved_ite hs (graved_ite hs (graved_raise b n _ hs))

theorem keepsGrave_wdog (core : Nat) : KeepsGrave (execWdog core) :=
  .next fun _ hs => graved_ite hs (graved_raiseHead _ _ _ _ _ _ hs)

theorem keepsGrave_supply (rail : Nat) : KeepsGrave (execSupply rail) :=
  .next fun _ hs => graved_ite hs (graved_ite hs (graved_raiseHead _ _ _ _ _ _ hs))

theorem keepsGrave_clockLoss (input : Nat) : KeepsGrave (execClockLoss input) :=
  .next fun _ hs => graved_ite hs (graved_ite (graved_raiseHead _ _ _ _ _ _ hs)
    (graved_forEach (fun _ _ ht => graved_raiseHead _ _ _ _ _ _ ht) hs))

/-! Temperature. -/

theorem setLevel_fco (n : Nat) (s : State) : (setLevel n s).fco = s.fco := by
  unfold setLevel
  dsimp only
  repeat' split
  all_goals simp

theorem graved_dumpAbandon (q : Int) {s : State} (hs : graved s = true) : graved (dumpAbandon q s) = true :=
  graved_ite hs hs

theorem graved_thermTrip (sensor : Nat) {s : State} (hs : graved s = true) : graved (thermTrip sensor s) = true :=
  graved_raiseHead _ _ _ _ _ _ hs

/-- In the Grave state no controller learns of the temperature: only the reading, its level and the Trip are left. -/
theorem graved_sensed (k : Nat) (q : Int) (v n : Nat) {s : State} (hs : graved s = true) :
    graved (sensed k q v n s) = true := by
  have hread : graved (setF F.pwcTempTj (v % 4096) (setF F.pwcTempSensor k s)) = true := (graved_of_fco (by simp)).trans hs
  unfold sensed
  refine graved_dumpAbandon q (graved_ite_else ?_ (graved_thermTrip k))
  refine graved_ite_halted ((graved_of_fco (setLevel_fco _ _)).trans (graved_ite_else ?_ fun ht => ?_))
  · exact graved_ite_else hread fun ht => (graved_of_fco (by simp)).trans ht
  · exact (graved_of_fco (by simp)).trans ht

theorem keepsGrave_sensorRead (temps failed : List Nat) : KeepsGrave (execSensorRead temps failed) :=
  .next fun s hs => by
    have hcount : graved (if getF F.pwcTempLevel s = 1 || getF F.pwcTempLevel s = 2
        then count .pwc 0x04 ((s.now - s.pwc.sensedAt) / 1000) s else s) = true :=
      graved_ite_else hs fun _ => (graved_of_fco (by simp)).trans hs
    refine graved_ite hs ?_
    dsimp only
    split
    · exact graved_sensed _ _ _ _ ((graved_of_fco (setF_fco ..)).trans (graved_forEach (fun _ _ ht => graved_raise _ _ _ ht) hcount))
    · exact (graved_of_fco (setLevel_fco ..)).trans
        ((graved_of_fco (setF_fco ..)).trans (graved_forEach (fun _ _ ht => graved_raise _ _ _ ht) hcount))

/-! Records, injection, reads and measurements. -/

theorem evrFreed_fco (s : State) : (evrFreed s).fco = s.fco := by
  unfold evrFreed
  split <;> simp

theorem keepsGrave_suppressionFlush (code : Nat) : KeepsGrave (execSuppressionFlush code) :=
  .nextFco fun s => by split <;> simp

theorem keepsGrave_evrRecordSelect (seq : Nat) : KeepsGrave (execEvrRecordSelect seq) :=
  .next fun _ hs => graved_regWrite hs ((graved_of_fco (by simp)).trans hs)

theorem keepsGrave_evrRelease (seq : Nat) : KeepsGrave (execEvrRelease seq) :=
  .next fun _ hs => graved_regWrite hs ((graved_of_fco (evrFreed_fco _)).trans hs)

theorem mrExtend_fco (source mr event : Nat) (digest : List Byte) (s : State) : (mrExtend source mr event digest s).fco = s.fco := by
  simp [mrExtend, apply_ite State.fco]

theorem mrTry_fco (source mr event : Nat) (digest : List Byte) (s : State) : (mrTry source mr event digest s).fco = s.fco := by
  unfold mrTry
  split
  · exact mrExtend_fco ..
  · simp

theorem keepsGrave_jtagAccess : KeepsGrave execJtagAccess :=
  .nextFco fun _ => mrTry_fco ..

theorem keepsGrave_quoteStart : KeepsGrave execQuoteStart :=
  .nextFco fun s => by split <;> simp

theorem keepsGrave_quoteDone : KeepsGrave execQuoteDone :=
  .nextFco fun s => by
    split
    · rfl
    · dsimp only
      split <;> simp

theorem readBy_fco (o : Nat → Out) (addr : Nat) (s : State) : (readBy o addr s).fco = s.fco := by
  unfold readBy
  split
  · simp
  · rfl

theorem keepsGrave_latchReadLo (addr : Nat) : KeepsGrave (execLatchReadLo addr) :=
  .next fun _ hs => graved_ite hs ((graved_of_fco (readBy_fco ..)).trans hs)

theorem keepsGrave_mgmtSidebandRead (addr : Nat) : KeepsGrave (execMgmtSidebandRead addr) :=
  .next fun _ hs => graved_ite hs ((graved_of_fco (readBy_fco ..)).trans hs)

/-! Heartbeat, MGE and the endpoints. -/

theorem keepsGrave_heartbeatSend : KeepsGrave execHeartbeatSend :=
  .next fun _ hs => graved_ite hs hs

theorem keepsGrave_perstDeassert (p : Nat) : KeepsGrave (execPerstDeassert p) :=
  .liveMge _ fun s => by split <;> simp [putPort]

theorem mgeLinkUp_fco (speed width : Nat) (s : State) : (mgeLinkUp speed width s).fco = s.fco := by
  unfold mgeLinkUp
  split <;> simp

theorem keepsGrave_hpeLinkUp (p speed width : Nat) (flit : Bool) : KeepsGrave (execHpeLinkUp p speed width flit) :=
  .liveMge _ fun s => by
    dsimp only
    repeat' split
    all_goals simp [putPort, mgeLinkUp_fco]

theorem mqDisable_fco (s : State) : (mqDisable s).fco = s.fco := by
  unfold mqDisable
  dsimp only
  exact forEach_fco _ _ _ fun _ _ => by simp

theorem mgeReset_fco (s : State) : (mgeReset s).fco = s.fco := by
  unfold mgeReset
  dsimp only
  split <;> simp [mqDisable_fco]

theorem keepsGrave_mgeConventionalReset : KeepsGrave execMgeConventionalReset :=
  .liveMge _ mgeReset_fco

theorem keepsGrave_unsupportedRequest (b : Block) (posted vdm1 : Bool) : KeepsGrave (execUnsupportedRequest b posted vdm1) :=
  .liveMge _ fun s => by
    unfold when_ urEffect
    dsimp only
    repeat' split
    all_goals simp

theorem keepsGrave_poisonedWriteRx (b : Block) (poisoned : Bool) : KeepsGrave (execPoisonedWriteRx b poisoned) :=
  .liveMge _ fun s => by
    unfold when_
    split <;> simp


/-! Resets of the head and dumps (R615, R617). -/

theorem keepsGrave_coldReset : KeepsGrave execColdReset :=
  .next fun s hs => by
    have hwipe := wipe_fco_grave (k := .cold) (by decide) s
    rw [graved] at hs ⊢
    simpa [hwipe] using hs

theorem keepsGrave_coldResetRelease : KeepsGrave execColdResetRelease :=
  .next fun _ hs => graved_ite ((graved_of_fco (boot_frame _).1).trans hs) hs

theorem graved_warmResetDo (why : Nat) {s : State} (hs : graved s = true) : graved (warmResetDo why s) = true := by
  rwa [graved, warmResetDo_grave]

theorem keepsGrave_warmReset : KeepsGrave execWarmReset :=
  .next fun _ hs => graved_ite hs (graved_warmResetDo 2 hs)

theorem keepsGrave_powerFail : KeepsGrave execPowerFail :=
  .next fun s hs => by
    rw [hs, Bool.or_true]
    exact hs

theorem dumpWrite_fco (s : State) : (dumpWrite s).fco = s.fco :=
  captureImage_fco s

/-- The dump is over, and PWC counts it (R636). -/
def dumpCounted (ms : Nat) (s : State) : State :=
  setF F.pwcDumpLastMs (min ms 65535) (incSatF F.pwcDumpDumps 1 { s with pwc.dumping := false })

/-- A dump that runs to its end: the image header is written when the whole image could be, and the dump is counted (R636). -/
def dumpDone (ms : Nat) (s : State) : State := dumpCounted ms (if dumpWhole s then dumpWrite s else s)

theorem dumpDone_fco (ms : Nat) (s : State) : (dumpDone ms s).fco = s.fco := by
  simp [dumpDone, dumpCounted, apply_ite State.fco, dumpWrite_fco]

/-- PWC performs a cold reset once input power is back (R635). -/
def dumpReset (s : State) : State :=
  { setF F.pwcStatLastReset 5 (wipe .cold s) with pwc.held := true, pwc.inputOk := true }

/-- The domains are gated while input power is away (R635). -/
def dumpGated (s : State) : State := { wipe .cold s with pwc.held := true }

theorem execVaultDumpDone_eq (restored : Bool) (ms : Nat) (s : State) :
    execVaultDumpDone restored ms s = .next (if !s.pwc.dumping then s
      else
        let t := dumpDone ms s
        if t.pwc.inputOk then t else if restored then dumpReset t else if graved t then t else dumpGated t) := rfl

theorem dumpReset_grave (s : State) : (dumpReset s).fco.grave = s.fco.grave := by
  rw [dumpReset, setF_fco, wipe_fco_grave (by decide)]

theorem keepsGrave_vaultDumpDone (restored : Bool) (ms : Nat) : KeepsGrave (execVaultDumpDone restored ms) := fun s hs => by
  have hdone : graved (dumpDone ms s) = true := (graved_of_fco (dumpDone_fco ms s)).trans hs
  have hreset : graved (dumpReset (dumpDone ms s)) = true := by
    rwa [graved, dumpReset_grave]
  refine ⟨_, execVaultDumpDone_eq restored ms s, graved_ite hs (graved_ite hdone (graved_ite hreset ?_))⟩
  rwa [if_pos hdone]

/-! Register writes (R616). -/

theorem writeField_fco (b : Block) (pg off v : Nat) (r : RegRow) (s : State) : (writeField b pg off v r s).fco = s.fco := by
  unfold writeField
  dsimp only
  split
  · rfl
  · cases r.acc <;> simp

theorem writeHeader_graved (b : Block) (pg off v : Nat) {s : State} (hs : graved s = true) : (writeHeader b pg off v s).fco = s.fco := by
  unfold writeHeader
  rw [if_pos hs]
  repeat' split
  all_goals simp

theorem graved_afterWrite_fco (pg off v : Nat) {s : State} (hs : graved s = true) : graved (afterWrite .fco pg off v s) = true :=
  graved_ite hs hs

theorem graved_writeBlockWord_fco (pg off v : Nat) {s : State} (hs : graved s = true) :
    graved (writeBlockWord .fco pg off v s) = true :=
  graved_ite ((graved_of_fco (by simp)).trans hs)
    (graved_afterWrite_fco pg off v (graved_forEach (fun _ _ ht => (graved_of_fco (writeField_fco ..)).trans ht) hs))

/-- In the Grave state a write stores ERR_STAT, INT_STAT, HDR_SPARE and FCO_LATCH alone (R616). -/
theorem graved_writeWord (addr v : Nat) {s : State} (hs : graved s = true) : graved (writeWord addr v s) = true := by
  unfold writeWord
  split
  · exact hs
  next b pg _ =>
    refine graved_ite ((graved_of_fco (writeHeader_graved b pg _ v hs)).trans hs) ?_
    rw [if_pos hs]
    split
    · next hfco =>
      rw [Bool.and_eq_true, decide_eq_true_eq] at hfco
      exact hfco.1 ▸ graved_writeBlockWord_fco pg _ v hs
    · exact hs

theorem keepsGrave_mgmtSidebandWrite (addr value : Nat) : KeepsGrave (execMgmtSidebandWrite addr value) :=
  .next fun _ hs => graved_ite hs (graved_ite (graved_regWrite hs ((graved_of_fco (by simp)).trans hs))
    (graved_ite (graved_regWrite hs ((graved_of_fco (evrFreed_fco _)).trans hs)) (graved_ite (graved_writeWord _ _ hs) hs)))

/-! What a written word starts: every row of its own that R616 does not name is without effect. -/

theorem graved_thenDo_live (f : State → State) {s : State} (hs : graved s = true) :
    graved (thenDo (fun s => live s (f s)) s) = true :=
  graved_thenDo (.live f) hs

theorem graved_onChange_live {fl : Fld} {v : Nat} (f : Bool → State → State) {s : State} (hs : graved s = true) :
    graved (onChange fl v (fun b s => live s (f b s)) s) = true :=
  graved_onChange (fun b => .live (f b)) hs

theorem graved_enablesWritten (b : Block) (ns : List Nat) (v : Nat) {s : State} (hs : graved s = true) :
    graved (enablesWritten b ns v s) = true := by
  have hone : ∀ (main : Bool) (n : Nat) (t : State), graved t = true → graved (match enableOf b n with
      | some (f, g) =>
        if (g == .mainRoad) == main && getF (H.state b) t != 5
          then onChange f v (fun on u => execBlockEnableWrite b (some n) on false u) t else t
      | none => t) = true := fun main n t ht => by
    split
    · exact graved_ite (graved_onChange_live _ ht) ht
    · exact ht
  exact graved_forEach (hone true) (graved_forEach (hone false) hs)

theorem graved_lanesWritten (b : Block) (expand : Bool) (v : Nat) {s : State} (hs : graved s = true) :
    graved (lanesWritten b expand v s) = true := by
  unfold lanesWritten
  split
  · exact graved_ite hs (graved_thenDo_live _ hs)
  · exact hs

theorem graved_headerStarts (b : Block) (pg off v : Nat) {s : State} (hs : graved s = true) :
    graved (headerStarts b pg off v s) = true := by
  have hen : graved (if pg = 0 then onChange (H.en b) v (fun on u => execBlockEnableWrite b none on false u) s else s) = true :=
    graved_ite_else hs (graved_onChange_live _ ·)
  unfold headerStarts
  refine graved_ite ?_ (graved_ite hs ?_)
  · exact graved_ite_else (graved_ite_else (graved_ite_else hen (graved_thenDo_live _ ·)) (graved_thenDo_live _ ·))
      (graved_thenDo_live _ ·)
  · refine graved_ite (graved_ite (graved_thenDo_live _ hs) hs) (graved_ite ?_ (graved_ite ?_ hs))
    · exact graved_ite hs (graved_thenDo_live _ hs)
    · exact graved_ite (graved_thenDo_live _ hs) hs

theorem graved_hpeStarts (p off v : Nat) {s : State} (hs : graved s = true) : graved (hpeStarts p off v s) = true :=
  graved_ite (graved_ite_else (graved_onChange_live _ hs) (graved_thenDo_live _ ·)) (graved_ite (graved_onChange_live _ hs) hs)

theorem graved_mgeStarts (off v : Nat) {s : State} (hs : graved s = true) : graved (mgeStarts off v s) = true :=
  graved_ite (graved_ite (graved_thenDo_live _ hs) hs)
    (graved_ite (graved_ite (graved_onChange_live _ (graved_onChange_live _ hs))
      (graved_ite (graved_thenDo_live _ hs) (graved_ite (graved_thenDo_live _ hs) hs))) hs)

theorem graved_mcaStarts (off v : Nat) {s : State} (hs : graved s = true) : graved (mcaStarts off v s) = true := by
  have hcache : ∀ on : Bool, KeepsGrave fun u =>
      if on then execBlockEnableWrite .mca (some 0) true false u else execMcaCacheDisable u := by
    intro on
    cases on <;> exact .live _
  have hgroup : ∀ g t, graved t = true → graved (if bit v g == bit (getF F.mcaWaysGroupOn t) (g - 1) then t
      else if bit v g then thenDo (execMcaGroupOn g) t else thenDo (execMcaGroupOff g) t) = true := fun _ _ ht =>
    graved_ite ht (graved_ite (graved_thenDo_live _ ht) (graved_thenDo_live _ ht))
  exact graved_ite (graved_onChange hcache hs) (graved_ite (graved_forEach hgroup hs) hs)

theorem graved_parStarts (off v : Nat) {s : State} (hs : graved s = true) : graved (parStarts off v s) = true :=
  graved_ite (graved_enablesWritten _ _ v hs)
    (graved_ite (graved_ite (graved_thenDo_live _ hs) (graved_ite (graved_thenDo_live _ hs) hs))
      (graved_ite (graved_thenDo_live _ hs) hs))

theorem graved_blockStarts (b : Block) (pg off v : Nat) {s : State} (hs : graved s = true) :
    graved (blockStarts b pg off v s) = true := by
  have hen := fun ns => graved_enablesWritten b ns v hs
  have hlanes := fun x => graved_lanesWritten b x v hs
  cases b with
  | hpe p => exact graved_hpeStarts p off v hs
  | mge => exact graved_mgeStarts off v hs
  | fab p => exact graved_ite (graved_ite (graved_thenDo_live _ hs) hs) (graved_ite (hen _) hs)
  | toe | hqe | ftu | mir | ocu => exact graved_ite (hen _) hs
  | dge | ldc | cry => exact graved_ite (hen _) (graved_ite (hlanes _) hs)
  | cmp => exact graved_ite (hen _) (graved_ite (hlanes _) (graved_ite (hlanes _) hs))
  | fiu => exact graved_ite (hen _) (graved_ite (graved_thenDo_live _ hs) hs)
  | mca => exact graved_mcaStarts off v hs
  | par => exact graved_parStarts off v hs
  | mpt m => exact graved_ite (graved_ite_else (graved_onChange_live _ hs) (graved_thenDo_live _ ·)) hs
  | tl n =>
    exact graved_ite (graved_ite (graved_thenDo_live _ hs) hs) (graved_ite (graved_ite (graved_thenDo_live _ hs) hs) hs)
  | eph => exact graved_ite (hen _) (graved_ite (graved_ite (graved_thenDo_live _ hs) hs) hs)
  | fco => exact graved_ite (graved_thenDo_live _ hs) hs
  | evr =>
    exact graved_ite (graved_thenDo (keepsGrave_evrRecordSelect _) hs) (graved_ite (graved_thenDo (keepsGrave_evrRelease _) hs) hs)
  | sec => exact graved_ite (graved_ite (graved_thenDo keepsGrave_quoteStart hs) hs) hs
  | pwc => exact graved_ite (graved_ite (graved_thenDo_live _ hs) hs) (graved_ite (graved_thenDo_live _ hs) hs)
  | bld => exact graved_ite (graved_thenDo_live _ hs) hs
  | cpc | hbu | vlt | dmc _ | stg | noc | wsp _ => exact hs

theorem graved_regWord (addr v : Nat) {s : State} (hs : graved s = true) : graved (regWord addr v s) = true := by
  have hword := graved_writeWord addr v hs
  unfold regWord
  split
  · exact hs
  · exact graved_ite (graved_headerStarts _ _ _ _ hword) (graved_ite hword (graved_blockStarts _ _ _ _ hword))

theorem keepsGrave_registerWrite (addr size value : Nat) : KeepsGrave (execRegisterWrite addr size value) :=
  .next fun _ hs => graved_ite hs (graved_ite (graved_regWord _ _ hs)
    (graved_ite (graved_regWord _ _ (graved_regWord _ _ hs)) ((graved_of_fco (by simp)).trans hs)))

/-! Every command, and the tick. -/

/-- R617: no command but the power cycle leaves the Grave state; those that R616 does not leave in service are without
effect there. -/
theorem keepsGrave_exec {c : Instr} (hc : c ≠ .powerCycle) : KeepsGrave (exec c) := by
  cases c with
  | powerCycle => exact absurd rfl hc
  | registerWrite a n v => exact keepsGrave_registerWrite a n v
  | latchReadLo a => exact keepsGrave_latchReadLo a
  | jtagAccess => exact keepsGrave_jtagAccess
  | quoteStart => exact keepsGrave_quoteStart
  | quoteDone => exact keepsGrave_quoteDone
  | heartbeatSend => exact keepsGrave_heartbeatSend
  | errorPulse b n l => exact keepsGrave_errorPulse b n l
  | wdog n => exact keepsGrave_wdog n
  | suppressionFlush n => exact keepsGrave_suppressionFlush n
  | evrRecordSelect n => exact keepsGrave_evrRecordSelect n
  | evrRelease n => exact keepsGrave_evrRelease n
  | mgmtSidebandRead a => exact keepsGrave_mgmtSidebandRead a
  | mgmtSidebandWrite a v => exact keepsGrave_mgmtSidebandWrite a v
  | coldReset => exact keepsGrave_coldReset
  | coldResetRelease => exact keepsGrave_coldResetRelease
  | warmReset => exact keepsGrave_warmReset
  | powerFail => exact keepsGrave_powerFail
  | vaultDumpDone b ms => exact keepsGrave_vaultDumpDone b ms
  | supply n => exact keepsGrave_supply n
  | clockLoss n => exact keepsGrave_clockLoss n
  | sensorRead ts fs => exact keepsGrave_sensorRead ts fs
  | perstDeassert p => exact keepsGrave_perstDeassert p
  | hpeLinkUp p sp w fl => exact keepsGrave_hpeLinkUp p sp w fl
  | mgeConventionalReset => exact keepsGrave_mgeConventionalReset
  | unsupportedRequest b p v => exact keepsGrave_unsupportedRequest b p v
  | poisonedWriteRx b p => exact keepsGrave_poisonedWriteRx b p
  | _ => exact .live _

theorem tick_fco (s : State) : (tick s).fco = s.fco := by
  have hcount : (forEach allBlocks tickCounter s).fco = s.fco := forEach_fco _ _ _ fun b t => by
    unfold tickCounter
    split <;> simp
  have htime : ∀ t, (tickTime t).fco = t.fco := fun t => by
    unfold tickTime
    dsimp only
    repeat' split
    all_goals rfl
  unfold tick
  dsimp only
  rw [htime, hcount]

theorem step_of_empty {s : State} (hq : s.pending = []) : step s = .next (tick s) := by
  rw [step, hq]

theorem step_of_front {c : Instr} {r : List Instr} {s : State} (hq : s.pending = c :: r) :
    step s = exec c { s with pending := r } := by
  rw [step, hq]

theorem step_keepsGrave {s : State} (hs : graved s = true) (hfront : s.pending.head? ≠ some .powerCycle) :
    ∃ t, step s = .next t ∧ graved t = true := by
  cases hq : s.pending with
  | nil => exact ⟨_, step_of_empty hq, (graved_of_fco (tick_fco s)).trans hs⟩
  | cons c r =>
    have hc : c ≠ .powerCycle := by
      rintro rfl
      simp [hq] at hfront
    rw [step_of_front hq]
    exact keepsGrave_exec hc _ hs

theorem exec_powerCycle_leavesGrave (s : State) : ∃ t, exec .powerCycle s = .next t ∧ graved t = false :=
  ⟨_, rfl, by rw [graved, setF_fco, wipe_fco]; rfl⟩

/-- Settles O60: `keepsGrave_exec` is the case of a command, `tick_fco` that of an empty queue. -/
theorem graveStateIsLeftOnlyByPowerCycling : Obligations.GraveStateIsLeftOnlyByPowerCycling := by
  refine ⟨fun _ => step_keepsGrave, fun s hfront => ?_, rfl⟩
  obtain ⟨r, hq⟩ := List.head?_eq_some_iff.mp hfront
  rw [step_of_front hq]
  exact exec_powerCycle_leavesGrave _

end Sys2Proof.Machine
end

section
/-! The event record: SEQ, FULL and DROPPED (R609, R611). -/

namespace Sys2Proof.Machine

/-! One record at the end of the log. -/

@[simp] theorem evrAppend_recs (r : Rec) (s : State) : (evrAppend r s).evr.recs =
    s.evr.recs ++ [{ r with seq := getF F.evrNextNext s, time := stamp s, noTai := timeUnset s }] := by
  simp [evrAppend, apply_ite State.evr]

/-- NEXT goes up by 1 modulo 2³² (R609). -/
theorem getF_next_evrAppend (r : Rec) (s : State) :
    getF F.evrNextNext (evrAppend r s) = (getF F.evrNextNext s + 1) % 2 ^ 32 := by
  have hhalf : ∀ t, getF F.evrNextNext (setInt .evr I.evrHalf t) = getF F.evrNextNext t := fun t =>
    getF_setInt_ne t (by decide)
  rw [evrAppend, getF_count, incF, getF_setF_self _ _ rfl]
  split
  · rw [hhalf]
    rfl
  · rfl

/-! An event that is not recorded. -/

theorem getF_evrDrop_ne {f : Fld} (s : State) (h : fkey f ≠ fkey F.evrDroppedDropped) : getF f (evrDrop s) = getF f s := by
  rw [evrDrop, getF_count, incSatF, getF_setF_ne _ _ h]

/-- DROPPED counts up to its largest value (R611). -/
theorem getF_dropped_evrDrop (s : State) :
    getF F.evrDroppedDropped (evrDrop s) = min (getF F.evrDroppedDropped s + 1) (2 ^ 32 - 1) := by
  rw [evrDrop, getF_count, incSatF, getF_setF_self _ _ rfl]
  exact Nat.mod_eq_of_lt (Nat.lt_of_le_of_lt (Nat.min_le_right _ _) (by decide))

/-! The full log. -/

/-- The event that finds the log full adds FULL in its place, and no more (R611). -/
theorem evrFull_recs (code : Nat) (s : State) :
    (evrFull code s).evr.recs = (evrAppend (mkRec 0x0004 0 63 0 0xFF 0 code 0) s).evr.recs := by
  simp [evrFull, apply_ite State.evr]

theorem getF_full_evrFull (code : Nat) (s : State) : getF F.evrStatFull (evrFull code s) = 1 := by
  have hset : ∀ t, getF F.evrStatFull (withWin 0
      (fun u => setF (H.errStat .evr) (bset (getF (H.errStat .evr) u) E.evrFull) u) (flagF F.evrStatFull true t)) = 1 := fun t => by
    rw [getF_withWin_setF_ne (by decide), getF_flagF_self _ _ rfl]
    rfl
  rw [evrFull, getF_setInt_ne _ (by decide), getF_evrDrop_ne _ (by decide)]
  split
  · exact hset _
  · rw [getF_evrDrop_ne _ (by decide), getF_setF_ne _ _ (by decide)]
    exact hset _

/-! The three cases of a write. -/

theorem evrWrite_of_room {r : Rec} {s : State} (hen : getF F.evrCtrlRecEn s = 1) (hfull : getF F.evrStatFull s = 0)
    (hroom : s.evr.recs.length < 65535) (hdropped : getF F.evrDroppedDropped s = 0) : evrWrite r s = evrAppend r s := by
  simp [evrWrite, hen, onF, hfull, Nat.not_le.mpr hroom, hdropped]

theorem evrWrite_of_last {r : Rec} {s : State} (hen : getF F.evrCtrlRecEn s = 1) (hfull : getF F.evrStatFull s = 0)
    (hlast : 65535 ≤ s.evr.recs.length) : evrWrite r s = evrFull r.code s := by
  simp [evrWrite, hen, onF, hfull, hlast]

theorem evrWrite_of_full {r : Rec} {s : State} (hfull : getF F.evrStatFull s = 1) : evrWrite r s = evrDrop s := by
  simp [evrWrite, onF, hfull]

/-- Settles O52: the log has room (`evrWrite_of_room`), takes FULL (`evrWrite_of_last`), or is full (`evrWrite_of_full`). -/
theorem recordsAreNumberedAndNeverOverwritten : Obligations.RecordsAreNumberedAndNeverOverwritten := by
  refine ⟨fun r s hen hfull hroom hdropped => ?_, fun r s hen hfull hlast => ?_, fun r s hfull => ?_⟩
  · rw [evrWrite_of_room hen hfull hroom hdropped]
    exact ⟨evrAppend_recs r s, getF_next_evrAppend r s⟩
  · rw [evrWrite_of_last hen hfull hlast, evrFull_recs, evrAppend_recs]
    exact ⟨by simp [mkRec], by simp, getF_full_evrFull r.code s⟩
  · rw [evrWrite_of_full hfull]
    exact ⟨by simp, getF_dropped_evrDrop s⟩

end Sys2Proof.Machine
end

section
/-! The event record read and released, injection armed, and the sideband target (R610–R619, R677). -/

namespace Sys2Proof.Machine

/-! Suppressed events. -/

theorem exec_suppressionFlush_due {c : Nat} {s : State} (hpend : (pendOf c s).1 ≠ 0)
    (hdue : 1000000000 ≤ s.now - (pendOf c s).2) : exec (.suppressionFlush c) s =
      .next (evrWrite (mkRec 0x0003 0 63 0 0xFF 0 c (pendOf c s).1) (putBucket c (bucketNow c s) 0 s.now s)) := by
  change execSuppressionFlush c s = _
  simp [execSuppressionFlush, hpend, Nat.not_lt.mpr hdue]

/-! EVR_READ. -/

theorem drop_length_take {α : Type} (l : List α) (k : Nat) : l.drop (l.take k).length = l.drop k := by
  rw [List.length_take]
  rcases Nat.le_total k l.length with h | h
  · rw [Nat.min_eq_left h]
  · rw [Nat.min_eq_right h, List.drop_length, List.drop_eq_nil_of_le h]

section
variable {q tag n len : Nat} {rel : Bool} {s : State} (hs : halted s = false) (hready : mgmtReady q tag 0x70 s = true)
  (hlen : len ≠ 0) (hn : n ≠ 0) (hfits : n ≤ len / 32)
include hs hready hlen hn hfits

/-- From the oldest record on the first of the log is the one named, and the log holds it. -/
theorem exec_evrRead_oldest {seq : Nat} {r : Rec} {rs : List Rec} (hrecs : s.evr.recs = r :: rs) :
    let u := mgmtBegin q tag s
    let got := (r :: rs).take n
    let after := (got.getLast?).elim r.seq fun x => (x.seq + 1) % 2 ^ 32
    let t := emit (.evrData (got.map (·.seq))) u
    exec (.evrRead q tag seq n len rel true) s = .next (mgmtPost q tag stSuccess (got.length + 2 ^ 32 * after)
      (if rel then evrFreed { t with evr.recs := (r :: rs).drop n } else t)) := by
  have hgot : ((r :: rs).take n).isEmpty = false := by
    obtain ⟨k, rfl⟩ := Nat.exists_eq_succ_of_ne_zero hn
    rfl
  change execEvrRead q tag seq n len rel true s = _
  rw [execEvrRead, live_of_not_halted hs, mgmtRun_of_ready hready]
  have hbegun : (mgmtBegin q tag s).evr.recs = r :: rs := hrecs
  have hfirst : (r :: rs).takeWhile (fun x => x.seq != r.seq) = [] := by simp
  simp only [hbegun, List.head?_cons, Option.elim_some, if_true, hfirst]
  rw [checks_pass q tag (by simp [hlen, hn, Nat.not_lt.mpr hfits])]
  simp only [hbegun, List.length_nil, List.drop_zero, Nat.zero_add, hgot, Bool.false_eq_true, if_false, emit_evr, drop_length_take]
  cases rel <;> rfl

/-- A record that the log does not hold, and that is not the next one, is answered with its status (R613). -/
theorem exec_evrRead_missing {seq : Nat} (hmiss : s.evr.recs.all (fun r => r.seq != seq) = true)
    (hnext : seq ≠ getF F.evrNextNext s) :
    exec (.evrRead q tag seq n len rel false) s = .next (mgmtPost q tag 0x130 0 (mgmtBegin q tag s)) := by
  have hall : s.evr.recs.takeWhile (fun r => r.seq != seq) = s.evr.recs := by
    rwa [List.takeWhile_eq_self_iff, ← List.all_eq_true]
  change execEvrRead q tag seq n len rel false s = _
  rw [execEvrRead, live_of_not_halted hs, mgmtRun_of_ready hready]
  simp [hall, checks, hlen, hn, Nat.not_lt.mpr hfits, getF_of_regs (mgmtBegin_regs q tag s), hnext]

end

/-! EVR_RD_SEQ and EVR_RELEASE. -/

theorem exec_evrRecordSelect_open {n : Nat} {s : State} (hpwr : getF (H.pwrState .evr) s ≠ 2) (hst : getF (H.state .evr) s ≠ 5) :
    exec (.evrRecordSelect n) s = .next (setF F.evrRdSeqSeq n s) := by
  change execEvrRecordSelect n s = _
  rw [execEvrRecordSelect, regWrite_of_open hpwr hst]

theorem exec_evrRelease_open {n : Nat} {s : State} (hpwr : getF (H.pwrState .evr) s ≠ 2) (hst : getF (H.state .evr) s ≠ 5) :
    exec (.evrRelease n) s = .next (evrFreed { s with evr.recs := s.evr.recs.filter fun r => !olderSeq r.seq n }) := by
  change execEvrRelease n s = _
  rw [execEvrRelease, regWrite_of_open hpwr hst]

/-! Arming of injection. -/

section
variable {s : State} (hs : halted s = false)
include hs

theorem exec_injectArm_open {a : Nat} (hpwr : getF (H.pwrState .fco) s ≠ 2) (hst : getF (H.state .fco) s ≠ 5) :
    let t := { s with fco.armAt := if a = 0x3C then some s.now else none }
    exec (.injectArm a) s = .next (if a = 0 then setF F.fcoInjCtlInjEn 0 t
      else if a = 0xC3 && s.fco.armAt.any (fun t => decide (s.now - t ≤ 1000000)) && getF F.fcoInjCtlInjEn t = 0
        then injectEnable t else t) := by
  change execInjectArm a s = _
  rw [execInjectArm, live_of_not_halted hs, regWrite_of_open hpwr hst]

/-- The second write of the sequence within 1 ms of the first (R619). -/
theorem exec_injectArm_armed {t : Nat} (hpwr : getF (H.pwrState .fco) s ≠ 2) (hst : getF (H.state .fco) s ≠ 5)
    (harm : s.fco.armAt = some t) (hdue : s.now - t ≤ 1000000) (hen : getF F.fcoInjCtlInjEn s = 0) :
    exec (.injectArm 0xC3) s = .next (injectEnable { s with fco.armAt := none }) := by
  refine (exec_injectArm_open hs hpwr hst).trans (congrArg _ ((if_neg (by decide)).trans (if_pos ?_)))
  simp only [harm, Option.any_some, hdue, decide_true, Bool.true_and]
  exact decide_eq_true hen

theorem exec_injectArmTimeout_due {t : Nat} (harm : s.fco.armAt = some t) (hdue : 1000000 < s.now - t) :
    exec .injectArmTimeout s = .next { s with fco.armAt := none } := by
  change execInjectArmTimeout s = _
  simp [execInjectArmTimeout, live_of_not_halted hs, harm, hdue]

end

/-! The sideband target. -/

section
variable {v : Nat} {s : State} (hheld : s.pwc.held = false) (hnow : 1000000 ≤ s.now)
include hheld hnow

theorem exec_mgmtSidebandWrite_select (hpwr : getF (H.pwrState .evr) s ≠ 2) (hst : getF (H.state .evr) s ≠ 5) :
    exec (.mgmtSidebandWrite 0x305C v) s = .next (setF F.evrRdSeqSeq v s) := by
  change execMgmtSidebandWrite 0x305C v s = _
  simp [execMgmtSidebandWrite, hheld, Nat.not_lt.mpr hnow, regWrite_of_open hpwr hst]

theorem exec_mgmtSidebandWrite_release (hpwr : getF (H.pwrState .evr) s ≠ 2) (hst : getF (H.state .evr) s ≠ 5) :
    exec (.mgmtSidebandWrite 0x3080 v) s =
      .next (evrFreed { s with evr.recs := s.evr.recs.filter fun r => !olderSeq r.seq v }) := by
  change execMgmtSidebandWrite 0x3080 v s = _
  simp [execMgmtSidebandWrite, hheld, Nat.not_lt.mpr hnow, regWrite_of_open hpwr hst]

/-- FCO_LATCH and the three words of every page are written as by any register write (R677). -/
theorem exec_mgmtSidebandWrite_word {a : Nat} (halign : a % 4 = 0)
    (ha : a = 0x2040 ∨ a = 0x2044 ∨ a % 0x1000 = 0x10 ∨ a % 0x1000 = 0x20 ∨ a % 0x1000 = 0x3C) :
    exec (.mgmtSidebandWrite a v) s = .next (writeWord a (v % 2 ^ 32) s) := by
  have hselect : a ≠ 0x305C := by omega
  have hrelease : a ≠ 0x3080 := by omega
  change execMgmtSidebandWrite a v s = _
  simp [execMgmtSidebandWrite, hheld, Nat.not_lt.mpr hnow, halign, hselect, hrelease, or_assoc, ha]

end

theorem exec_mgmtSidebandWrite_other {a v : Nat} {s : State} (h1 : a ≠ 0x305C) (h2 : a ≠ 0x3080) (h3 : a ≠ 0x2040)
    (h4 : a ≠ 0x2044) (h5 : a % 0x1000 ≠ 0x10) (h6 : a % 0x1000 ≠ 0x20) (h7 : a % 0x1000 ≠ 0x3C) :
    exec (.mgmtSidebandWrite a v) s = .next s := by
  change execMgmtSidebandWrite a v s = _
  simp [execMgmtSidebandWrite, h1, h2, h3, h4, h5, h6, h7]

/-- Settles O53: one command a clause. -/
theorem eventRecordIsReadReleasedAndArmed : Obligations.EventRecordIsReadReleasedAndArmed :=
  ⟨fun _ _ => exec_suppressionFlush_due,
   fun _ _ _ _ _ _ _ _ _ hs hready hrecs hlen hn hfits => exec_evrRead_oldest hs hready hlen hn hfits hrecs,
   fun _ _ _ _ _ _ _ hs hready hlen hn hfits => exec_evrRead_missing hs hready hlen hn hfits,
   fun _ _ => exec_evrRecordSelect_open, fun _ _ => exec_evrRelease_open, fun _ hroom => if_pos hroom,
   fun _ hs hpwr hst => exec_injectArm_open hs hpwr hst,
   fun _ _ hs hpwr hst => exec_injectArm_armed hs hpwr hst,
   fun _ hs hpwr hst => exec_injectArm_open hs hpwr hst,
   fun _ _ hs => exec_injectArmTimeout_due hs,
   fun _ _ => exec_mgmtSidebandWrite_select, fun _ _ => exec_mgmtSidebandWrite_release,
   fun _ _ _ hheld hnow => exec_mgmtSidebandWrite_word hheld hnow, fun _ _ _ => exec_mgmtSidebandWrite_other⟩

end Sys2Proof.Machine
end

section
/-! SUPPORT. Clauses, slots and the end of a command change neither PWC nor whether the peer has joined, and the loss of a connection does
not change PWC: they are the Media, Host and Time Planes' (R164, R431, R549). -/

namespace Sys2Proof.Machine

/-- `t` has PWC, and whether the peer has joined, as `s` has them. -/
@[simp] abbrev SamePwcJoined (s t : State) : Prop := t.pwc = s.pwc ∧ t.pair.joined = s.pair.joined

theorem forEach_joined {α : Type} (l : List α) (f : α → State → State) (s : State)
    (h : ∀ a t, (f a t).pair.joined = t.pair.joined) : (forEach l f s).pair.joined = s.pair.joined :=
  forEach_keep (·.pair.joined) l f s h

theorem forEach_keeps {α : Type} {l : List α} {f : α → State → State} {s : State} (h : ∀ a t, SamePwcJoined t (f a t)) :
    SamePwcJoined s (forEach l f s) :=
  ⟨forEach_pwc l f s fun a t => (h a t).1, forEach_joined l f s fun a t => (h a t).2⟩

/-! Packets of the pair. -/

theorem pumpPkts_joined (l : List Sent) (s : State) : (pumpPkts l s).pair.joined = s.pair.joined := by
  induction l generalizing s with
  | nil => rfl
  | cons x r ih =>
    unfold pumpPkts
    dsimp only
    repeat' split
    all_goals simp [ih]

@[simp] theorem pumpCh_joined (ch : Nat) (s : State) : (pumpCh ch s).pair.joined = s.pair.joined :=
  pumpPkts_joined _ s

@[simp] theorem sendPkt_joined (x : TroysOut) (s : State) : (sendPkt x s).pair.joined = s.pair.joined := by
  simp [sendPkt, putChan]

@[simp] theorem sendTroys_joined (x : TroysOut) (s : State) : (sendTroys x s).pair.joined = s.pair.joined := by
  unfold sendTroys
  repeat' split
  all_goals simp

@[simp] theorem mirrorOut_joined (x : TroysOut) (s : State) : (mirrorOut x s).pair.joined = s.pair.joined := by
  unfold mirrorOut
  split <;> simp

/-! The map, the counts and the clause journal. -/

@[simp] theorem drawNat_keeps (s : State) : SamePwcJoined s (drawNat s).2 := ⟨rfl, rfl⟩

@[simp] theorem modBand_keeps (b : Nat) (f : Band → Band) (s : State) : SamePwcJoined s (modBand b f s) := ⟨rfl, rfl⟩

@[simp] theorem addLive_keeps (u : Nat) (s : State) : SamePwcJoined s (addLive u s) := ⟨rfl, rfl⟩

@[simp] theorem subLive_keeps (u : Nat) (s : State) : SamePwcJoined s (subLive u s) := ⟨rfl, rfl⟩

@[simp] theorem setMap_keeps (epoch nsid : Nat) (e : Tbl Nat) (s : State) : SamePwcJoined s (setMap epoch nsid e s) := ⟨rfl, rfl⟩

@[simp] theorem mapPut_keeps (epoch nsid unit v : Nat) (s : State) : SamePwcJoined s (mapPut epoch nsid unit v s) := ⟨rfl, rfl⟩

@[simp] theorem freshPage_keeps (epoch nsid page cseq : Nat) (s : State) : SamePwcJoined s (freshPage epoch nsid page cseq s) :=
  ⟨rfl, rfl⟩

@[simp] theorem dirtyPage_keeps (epoch nsid unit cseq : Nat) (s : State) : SamePwcJoined s (dirtyPage epoch nsid unit cseq s) := by
  unfold dirtyPage
  repeat' split
  all_goals exact ⟨rfl, rfl⟩

@[simp] theorem evictLine_keeps (l : McaLine) (s : State) : SamePwcJoined s (evictLine l s) := by
  simp [evictLine, dropLine, apply_ite State.pwc, apply_ite State.pair]

@[simp] theorem toVictim_keeps (l : McaLine) (s : State) : SamePwcJoined s (toVictim l s) := by
  unfold toVictim
  dsimp only [dropLine]
  repeat' split
  all_goals simp

@[simp] theorem mcaInstall_keeps (l : McaLine) (s : State) : SamePwcJoined s (mcaInstall l s) := by
  unfold mcaInstall
  dsimp only
  repeat' split
  all_goals simp

@[simp] theorem dirtyLine_keeps (epoch nsid unit cseq : Nat) (s : State) : SamePwcJoined s (dirtyLine epoch nsid unit cseq s) := by
  unfold dirtyLine
  dsimp only
  repeat' split
  all_goals simp

@[simp] theorem fptDead_keeps (i : Nat) (s : State) : SamePwcJoined s (fptDead i s) := by
  unfold fptDead modFpt
  repeat' split
  all_goals exact ⟨rfl, rfl⟩

@[simp] theorem garbage_keeps (u : Nat) (s : State) : SamePwcJoined s (garbage u s) := by
  unfold garbage
  dsimp only
  repeat' split
  all_goals simp

@[simp] theorem fwdDec_keeps (old : Nat) (s : State) : SamePwcJoined s (fwdDec old s) := by
  unfold fwdDec
  repeat' split
  all_goals exact ⟨rfl, rfl⟩

@[simp] theorem refDrop_keeps (v : Nat) (s : State) : SamePwcJoined s (refDrop v s) := by
  unfold refDrop
  dsimp only
  repeat' split
  all_goals simp

@[simp] theorem entryCopied_keeps (v : Nat) (s : State) : SamePwcJoined s (entryCopied v s) := by
  unfold entryCopied
  dsimp only
  split <;> exact ⟨rfl, rfl⟩

@[simp] theorem copyPage_keeps (es : List Nat) (nsid page cseq : Nat) (s : State) : SamePwcJoined s (copyPage es nsid page cseq s) :=
  forEach_keeps fun e t => entryCopied_keeps e.2 t

@[simp] theorem ownPages_keeps (es : List Nat) (nsid page cseq : Nat) (s : State) : SamePwcJoined s (ownPages es nsid page cseq s) :=
  forEach_keeps fun k t => by
    dsimp only
    repeat' split
    all_goals simp

@[simp] theorem mapChange_keeps (es : List Nat) (nsid unit v cseq : Nat) (s : State) :
    SamePwcJoined s (mapChange es nsid unit v cseq s) := by
  simp [mapChange, forEach_pwc, forEach_joined]

@[simp] theorem mapInPlace_keeps (epoch nsid unit v cseq : Nat) (s : State) : SamePwcJoined s (mapInPlace epoch nsid unit v cseq s) := by
  have hmaps : ∀ (m : Nat × Nat) (t : State), SamePwcJoined t (mapPut m.1 m.2 unit v t) := fun _ _ => ⟨rfl, rfl⟩
  have hputs := forEach_keeps (l := sharers epoch nsid (unit / 512) s) hmaps
    (s := dirtyLine epoch nsid unit cseq (dirtyPage epoch nsid unit cseq s))
  simpa [mapInPlace] using hputs

@[simp] theorem refAdd_keeps (u : Nat) (s : State) : SamePwcJoined s (refAdd u s) := by
  unfold refAdd
  repeat' split
  all_goals simp

@[simp] theorem moveRecord_keeps (old new : Nat) (s : State) : SamePwcJoined s (moveRecord old new s) := by
  unfold moveRecord modFpt
  dsimp only
  repeat' split
  all_goals simp

@[simp] theorem relocateApply_keeps (nsid unit old new cseq : Nat) (shared : Bool) (s : State) :
    SamePwcJoined s (relocateApply nsid unit old new cseq shared s) := by
  simp [relocateApply, apply_ite State.pwc, apply_ite State.pair, apply_ite PairState.joined]

@[simp] theorem journal_keeps (c : Clause) (s : State) : SamePwcJoined s (journal c s) := by
  simp [journal]

@[simp] theorem setUnique_keeps (nsid unit v seq cseq : Nat) (s : State) : SamePwcJoined s (setUnique nsid unit v seq cseq s) := by
  simp [setUnique, apply_ite State.pwc, apply_ite State.pair, apply_ite PairState.joined]

@[simp] theorem applyClause_keeps (cseq : Nat) (c : Clause) (s : State) : SamePwcJoined s (applyClause cseq c s) := by
  unfold applyClause zeroPages modFpt
  dsimp only
  repeat' split
  all_goals simp [forEach_pwc, forEach_joined]

@[simp] theorem clause_keeps (c : Clause) (s : State) : SamePwcJoined s (clause c s) := by
  simp [clause]

@[simp] theorem sysClause_keeps (nsid key v : Nat) (s : State) : SamePwcJoined s (sysClause nsid key v s) :=
  clause_keeps _ s

/-! Slots and namespaces. -/

@[simp] theorem modSlot_keeps (n : Nat) (f : Slot → Slot) (s : State) : SamePwcJoined s (modSlot n f s) := by
  simp [modSlot, apply_ite State.pwc, apply_ite State.pair, apply_ite PairState.joined]

@[simp] theorem filterSub_keeps (nsid unit : Nat) (s : State) : SamePwcJoined s (filterSub nsid unit s) :=
  forEach_keeps fun _ _ => ⟨rfl, rfl⟩

@[simp] theorem freeSlot_keeps (n : Nat) (s : State) : SamePwcJoined s (freeSlot n s) := by
  simp [freeSlot, apply_ite State.pwc, apply_ite State.pair]

@[simp] theorem releaseSlot_keeps (n : Nat) (s : State) : SamePwcJoined s (releaseSlot n s) := by
  unfold releaseSlot
  dsimp only
  repeat' split
  all_goals simp

@[simp] theorem failSlots_keeps (h : Nat) (s : State) : SamePwcJoined s (failSlots h s) :=
  forEach_keeps fun n t => by simp [failSlot]

@[simp] theorem dropSlots_keeps (nsid first n seq : Nat) (s : State) : SamePwcJoined s (dropSlots nsid first n seq s) :=
  forEach_keeps fun m t => by
    repeat' split
    all_goals simp

@[simp] theorem nsRemove_keeps (x : Namespace) (s : State) : SamePwcJoined s (nsRemove x s) := by
  simp [nsRemove, unmapUnits, unmapRun, takeSeq, apply_ite State.pwc, apply_ite State.pair, apply_ite PairState.joined]

@[simp] theorem nsDeleteDone_keeps (n : Nat) (s : State) : SamePwcJoined s (nsDeleteDone n s) := by
  unfold nsDeleteDone
  repeat' split
  all_goals simp

/-! Commands. -/

@[simp] theorem txHold_keeps (conn n : Nat) (s : State) : SamePwcJoined s (txHold conn n s) := by
  simp [txHold, apply_ite State.pwc, apply_ite State.pair]

@[simp] theorem signalCq_keeps (c : Ctl) (q : CplQ) (s : State) : SamePwcJoined s (signalCq c q s) := by
  unfold signalCq modCq
  repeat' split
  all_goals exact ⟨rfl, rfl⟩

@[simp] theorem postCpl_keeps (c : Ctl) (qid cid : Nat) (st : NvmeSt) (s : State) : SamePwcJoined s (postCpl c qid cid st s) := by
  unfold postCpl modCq
  dsimp only
  split <;> simp

@[simp] theorem finishCmd_keeps (c : Cmd) (st : NvmeSt) (s : State) : SamePwcJoined s (finishCmd c st s) := by
  unfold finishCmd
  split <;> simp

@[simp] theorem endCmd_keeps (h : Nat) (st : NvmeSt) (s : State) : SamePwcJoined s (endCmd h st s) := by
  unfold endCmd modCmd dropCmd
  repeat' split
  all_goals simp

@[simp] theorem settleAll_keeps (s : State) : SamePwcJoined s (settleAll s) :=
  forEach_keeps fun h t => by
    unfold settle
    repeat' split
    all_goals simp

@[simp] theorem killCmd_keeps (c : Cmd) (s : State) : SamePwcJoined s (killCmd c s) := by
  simp [killCmd, dropCmd, cancelReads, apply_ite State.pwc, apply_ite State.pair, apply_ite PairState.joined]

@[simp] theorem resetCtl_keeps (c : Ctl) (s : State) : SamePwcJoined s (resetCtl c s) :=
  forEach_keeps fun m t => killCmd_keeps m t

/-! Cuts and streams. -/

@[simp] theorem dropEpoch_pwc (n : Nat) (s : State) : (dropEpoch n s).pwc = s.pwc := by
  unfold dropEpoch
  split <;> simp

@[simp] theorem cutNs_pwc (x : Epoch) (nsid : Nat) (s : State) : (cutNs x nsid s).2.pwc = s.pwc := by
  unfold cutNs
  dsimp only
  repeat' split
  all_goals simp

theorem foldl_cutNs_pwc (x : Epoch) (l : List Nat) (a : List (Nat × Nat) × State) :
    (l.foldl (fun a n => let r := cutNs x n a.2; (a.1 ++ [(n, r.1)], r.2)) a).2.pwc = a.2.pwc := by
  induction l generalizing a with
  | nil => rfl
  | cons n l ih => rw [List.foldl_cons, ih]; exact cutNs_pwc x n a.2

@[simp] theorem takeCut_pwc (nsids : List Nat) (groupId sched retain : Nat) (internal received late : Bool) (mgmt : Option (Nat × Nat))
    (s : State) : (takeCut nsids groupId sched retain internal received late mgmt s).2.pwc = s.pwc :=
  foldl_cutNs_pwc _ nsids _

@[simp] theorem modStream_pwc (slot : Nat) (f : Stream → Stream) (s : State) : (modStream slot f s).pwc = s.pwc := rfl

@[simp] theorem setStream_pwc (slot : Nat) (st : StreamSt) (s : State) : (setStream slot st s).pwc = s.pwc := by
  simp [setStream, apply_ite State.pwc]

@[simp] theorem sendFrame_pwc (conn typ ref : Nat) (what : List Nat) (bytes : Nat) (s : State) :
    (sendFrame conn typ ref what bytes s).pwc = s.pwc := by
  simp only [sendFrame, txHold_keeps, count_frame, emit_pwc]
  exact forEach_pwc _ _ _ fun _ _ => rfl

@[simp] theorem recBytes_pwc (x : Stream) (n : Nat) (s : State) : (recBytes x n s).2.pwc = s.pwc := by
  unfold recBytes
  split <;> rfl

@[simp] theorem newRead_pwc (f : ReadFor) (nsid unit u : Nat) (st : ReadStage) (s : State) : (newRead f nsid unit u st s).pwc = s.pwc := rfl

@[simp] theorem stopXfer_pwc (slot : Nat) (s : State) : (stopXfer slot s).pwc = s.pwc := rfl

@[simp] theorem xferPump_pwc (slot : Nat) (s : State) : (xferPump slot s).pwc = s.pwc := by
  unfold xferPump
  dsimp only
  repeat' split
  all_goals simp [forEach_pwc]

@[simp] theorem sendUnits_pwc (slot : Nat) (lost : Bool) (l : List (Nat × Nat)) (s : State) : (sendUnits slot lost l s).pwc = s.pwc := by
  unfold sendUnits
  dsimp only
  repeat' split
  all_goals simp

@[simp] theorem sendNs_pwc (slot n : Nat) (x : Stream) (nsid epoch : Nat) (s : State) : (sendNs slot n x nsid epoch s).pwc = s.pwc := by
  simp [sendNs, forEach_pwc, apply_ite State.pwc]

@[simp] theorem sendCut_pwc (slot : Nat) (s : State) : (sendCut slot s).pwc = s.pwc := by
  unfold sendCut
  dsimp only
  repeat' split
  all_goals simp [forEach_pwc]

@[simp] theorem fracture_pwc (slot : Nat) (s : State) : (fracture slot s).pwc = s.pwc := by
  unfold fracture
  dsimp only
  repeat' split
  all_goals simp [forEach_pwc]

@[simp] theorem dropCut_pwc (slot : Nat) (x : Stream) (s : State) : (dropCut slot x s).pwc = s.pwc := by
  simp [dropCut, forEach_pwc]

/-! Connections, and the reset of the head. -/

@[simp] theorem streamLost_pwc (slot : Nat) (s : State) : (streamLost slot s).pwc = s.pwc := by
  unfold streamLost
  dsimp only
  repeat' split
  all_goals simp

@[simp] theorem closeConn_pwc (n : Nat) (s : State) : (closeConn n s).pwc = s.pwc := by
  simp [closeConn, forEach_pwc, apply_ite State.pwc]

@[simp] theorem endAssoc_pwc (i : Nat) (s : State) : (endAssoc i s).pwc = s.pwc := by
  simp [endAssoc, forEach_pwc]

@[simp] theorem loseConn_pwc (n : Nat) (s : State) : (loseConn n s).pwc = s.pwc := by
  unfold loseConn
  repeat' split
  all_goals simp

@[simp] theorem wipeHost_pwc (k : ResetKind) (s : State) : (wipeHost k s).pwc = s.pwc :=
  forEach_pwc _ _ _ fun n t => loseConn_pwc n t

@[simp] theorem wipeBuffer_pwc (k : ResetKind) (s : State) : (wipeBuffer k s).pwc = s.pwc := by
  unfold wipeBuffer
  dsimp only
  repeat' split
  all_goals rfl

/-- A reset of the head does not change whether input power is good (R634). -/
theorem wipe_inputOk {k : ResetKind} (hk : k ≠ .warm) (s : State) : (wipe k s).pwc.inputOk = s.pwc.inputOk := by
  unfold wipe
  rw [resetRegs_keep (fun t => t.pwc) (fun _ _ _ => by simp) (fun _ _ => rfl)]
  have hrest : ∀ t, (wipePair (wipeMedia (wipeReduction k (wipeTime t)))).pwc = t.pwc := fun _ => rfl
  dsimp only [wipeControl, wipeBoot]
  rw [hrest, wipeBuffer_pwc, wipeHost_pwc, if_neg hk]

end Sys2Proof.Machine
end

section
/-! What each reset of the head, the loss of input power and the vault dump leave (R595, R609, R615, R617, R628, R629, R634–R636). -/

namespace Sys2Proof.Machine

/-! Power cycle and cold reset. -/

theorem wipe_fco_incs (k : ResetKind) (s : State) : (wipe k s).fco.incs = [] := by
  rw [wipe_fco]
  rfl

/-- Only a warm reset leaves the local time running (R697). -/
theorem wipe_now {k : ResetKind} (hk : k ≠ .warm) (s : State) : (wipe k s).now = 0 := by
  unfold wipe
  rw [resetRegs_keep (fun t => t.now) (fun _ _ _ => by simp) (fun _ _ => rfl)]
  cases k with
  | power => rfl
  | cold => rfl
  | warm => exact absurd rfl hk

theorem getF_lastReset {n : Nat} (hn : n < 16) (s : State) : getF F.pwcStatLastReset (setF F.pwcStatLastReset n s) = n := by
  rw [getF_setF_self _ _ rfl]
  exact Nat.mod_eq_of_lt hn

/-- What a power cycle and a cold reset both leave, `n` being shown in LAST_RESET. -/
theorem reset_leaves {k : ResetKind} (hk : k ≠ .warm) {n : Nat} (hn : n < 16) (s : State) :
    let t := { setF F.pwcStatLastReset n (wipe k s) with pwc.held := true }
    getF F.pwcStatLastReset t = n ∧ t.now = 0 ∧ t.evr = State.reset.evr ∧ t.wb.own = [] ∧ t.wb.mir = [] ∧ t.fab = State.reset.fab ∧
    t.mca = State.reset.mca ∧ t.dge = State.reset.dge ∧ t.txn = State.reset.txn ∧ t.cry.wrap = [] ∧ t.fco.incs = [] := by
  obtain ⟨hown, hmir⟩ := wipe_wb_own k s
  obtain ⟨hmca, hdge, htxn, hwrap⟩ := wipe_caches k s
  refine ⟨getF_lastReset hn _, ?_⟩
  simp [wipe_now hk, wipe_evr hk, hown, hmir, wipe_fab, hmca, hdge, htxn, hwrap, wipe_fco_incs]

theorem exec_coldResetRelease_held {s : State} (hheld : s.pwc.held = true) : exec .coldResetRelease s =
    .next (boot { s with now := 0, pwc.held := false, pwc.inputOk := true, pwc.railsOut := [], pwc.clocksOut := [] }) := by
  change execColdResetRelease s = _
  rw [execColdResetRelease, if_pos hheld]

/-! Warm reset. -/

/-- The boot ROM changes none of the faults, the write buffer and the connections that a warm reset leaves. -/
theorem warmResetDo_leaves (why : Nat) (s : State) :
    (warmResetDo why s).fco.grave = s.fco.grave ∧ (warmResetDo why s).wb.own = [] ∧ (warmResetDo why s).fab = State.reset.fab ∧
    (warmResetDo why s).fco.incs = [] := by
  refine ⟨warmResetDo_grave why s, ?_⟩
  obtain ⟨t, -, hboot⟩ := warmResetDo_boot why s
  obtain ⟨hfco, hwb, hfab⟩ := boot_frame (setF F.pwcStatLastReset why (wipe .warm t))
  rw [hboot, hwb, hfab, hfco]
  simp [(wipe_wb_own .warm t).1, wipe_fab, wipe_fco_incs]

theorem exec_warmReset_running {s : State} (hheld : s.pwc.held = false) (hdump : s.pwc.dumping = false) :
    exec .warmReset s = .next (warmResetDo 2 s) := by
  change execWarmReset s = _
  simp [execWarmReset, hheld, hdump]

theorem exec_pwcRstWrite_open {s : State} (k : Nat) (hs : halted s = false) (hpwr : getF (H.pwrState .pwc) s ≠ 2)
    (hst : getF (H.state .pwc) s ≠ 5) : exec (.pwcRstWrite k) s = .next (if k = 0x57A2 then warmResetDo 3 s else s) := by
  change execPwcRstWrite k s = _
  rw [execPwcRstWrite, live_of_not_halted hs, regWrite_of_open hpwr hst]

/-! Loss of input power. -/

theorem exec_powerFail_buffer {s : State} (hheld : s.pwc.held = false) (hdump : s.pwc.dumping = false) (hgrave : graved s = false)
    (hready : getF F.stgWbStatReady s = 1) :
    let t := { s with pwc.inputOk := false }
    exec .powerFail s =
      .next (dumpStart (if getF F.hbuCtrlTxEn s = 1 ∧ blockDown .hbu s = false then hbSend 5 t else t)) := by
  change execPowerFail s = _
  simp [execPowerFail, hheld, hdump, hgrave, onF, hready]

theorem exec_powerFail_silent {s : State} (h : s.pwc.held = true ∨ s.pwc.dumping = true ∨ graved s = true) :
    exec .powerFail s = .next { s with pwc.inputOk := false } := by
  have hstop : (s.pwc.held || s.pwc.dumping || graved s) = true := by simpa [or_assoc] using h
  change execPowerFail s = _
  rw [execPowerFail, if_pos hstop]

/-! The vault dump. -/

theorem captureImage_pwc (s : State) : (captureImage s).pwc = s.pwc := by
  unfold captureImage
  split <;> rfl

/-- Writing the image and counting the dump leave the state of input power. -/
theorem dumpDone_inputOk (ms : Nat) (s : State) : (dumpDone ms s).pwc.inputOk = s.pwc.inputOk := by
  have hwrite : (dumpWrite s).pwc = s.pwc := captureImage_pwc s
  rw [dumpDone]
  split <;> simp [dumpCounted, hwrite]

section
variable {s : State} (hdump : s.pwc.dumping = true)
include hdump

theorem exec_vaultDumpDone_powered (restored : Bool) (ms : Nat) (hin : s.pwc.inputOk = true) :
    exec (.vaultDumpDone restored ms) s = .next (dumpDone ms s) := by
  have hin' := (dumpDone_inputOk ms s).trans hin
  change execVaultDumpDone restored ms s = _
  rw [execVaultDumpDone_eq, if_neg (by simp [hdump])]
  dsimp only
  rw [if_pos hin']

theorem exec_vaultDumpDone_restored (ms : Nat) (hin : s.pwc.inputOk = false) :
    exec (.vaultDumpDone true ms) s = .next (dumpReset (dumpDone ms s)) := by
  have hin' := (dumpDone_inputOk ms s).trans hin
  change execVaultDumpDone true ms s = _
  rw [execVaultDumpDone_eq, if_neg (by simp [hdump])]
  dsimp only
  rw [if_neg (by simp [hin']), if_pos rfl]

theorem exec_vaultDumpDone_away (ms : Nat) (hin : s.pwc.inputOk = false) (hgrave : graved s = false) :
    exec (.vaultDumpDone false ms) s = .next (dumpGated (dumpDone ms s)) := by
  have hin' := (dumpDone_inputOk ms s).trans hin
  have hgrave' := (graved_of_fco (dumpDone_fco ms s)).trans hgrave
  change execVaultDumpDone false ms s = _
  rw [execVaultDumpDone_eq, if_neg (by simp [hdump])]
  dsimp only
  rw [if_neg (by simp [hin']), if_neg Bool.false_ne_true, if_neg (by simp [hgrave'])]

end

theorem dumpReset_leaves (s : State) : (dumpReset s).pwc.held = true ∧ (dumpReset s).pwc.inputOk = true ∧
    getF F.pwcStatLastReset (dumpReset s) = 5 ∧ (dumpReset s).wb.own = [] := by
  have hregs : (dumpReset s).regs = (setF F.pwcStatLastReset 5 (wipe .cold s)).regs := rfl
  refine ⟨rfl, rfl, (getF_of_regs hregs).trans (getF_lastReset (by decide) _), ?_⟩
  simp [dumpReset, (wipe_wb_own .cold s).1]

theorem dumpGated_leaves (s : State) : (dumpGated s).pwc.held = true ∧ (dumpGated s).pwc.inputOk = s.pwc.inputOk ∧
    (dumpGated s).wb.own = [] :=
  ⟨rfl, wipe_inputOk (by decide) s, (wipe_wb_own .cold s).1⟩

/-- Settles O54: each reset is the wipe of its kind, of which the fields of each plane are known; the dump's end leaves input power as it
was, which chooses between counting alone, a cold reset and gating. -/
theorem resetsKeepWhatTheirDomainHolds : Obligations.ResetsKeepWhatTheirDomainHolds := by
  unfold Obligations.ResetsKeepWhatTheirDomainHolds
  refine ⟨fun s => ?powerCycle, fun s => ?coldReset, fun _ hheld => exec_coldResetRelease_held hheld,
    fun _ hheld hdump => exec_warmReset_running hheld hdump, warmResetDo_leaves,
    fun s hs hpwr hst => exec_pwcRstWrite_open 0x57A2 hs hpwr hst, fun k s hs hpwr hst hk => ?otherKey,
    fun _ hheld hdump hgrave hready => exec_powerFail_buffer hheld hdump hgrave hready, fun _ h => exec_powerFail_silent h,
    fun b ms s hdump hwhole hin => ?counted, fun b ms s hdump hwhole hin => ?written,
    fun ms s hdump hin => ?restored, fun ms s hdump hin hgrave => ?away⟩
  case powerCycle =>
    obtain ⟨hlast, -, hrest⟩ := reset_leaves (k := .power) (by decide) (n := 0) (by decide) s
    refine ⟨_, rfl, ?_, rfl, hlast, hrest⟩
    simp [graved, wipe_fco]
  case coldReset =>
    refine ⟨_, rfl, ?_, rfl, reset_leaves (by decide) (by decide) s⟩
    simp [wipe_fco_grave]
  case otherKey =>
    rw [exec_pwcRstWrite_open k hs hpwr hst, if_neg hk]
  case counted =>
    rw [exec_vaultDumpDone_powered hdump b ms hin, dumpDone, hwhole]
    rfl
  case written =>
    rw [exec_vaultDumpDone_powered hdump b ms hin, dumpDone, hwhole]
    rfl
  case restored =>
    obtain ⟨hheld, hok, hlast, hown⟩ := dumpReset_leaves (dumpDone ms s)
    refine ⟨_, exec_vaultDumpDone_restored hdump ms hin, hheld, hok, ?_, hlast, hown⟩
    rw [dumpReset_grave, dumpDone_fco]
  case away =>
    obtain ⟨hheld, hok, hown⟩ := dumpGated_leaves (dumpDone ms s)
    exact ⟨_, exec_vaultDumpDone_away hdump ms hin hgrave, hheld, hok.trans ((dumpDone_inputOk ms s).trans hin), hown⟩

end Sys2Proof.Machine
end

section
/-! Firmware images transferred, activated, installed, tried and confirmed, and the settings (R653–R668). -/

namespace Sys2Proof.Machine

/-! FW_PIECE (R653–R656). -/

section
variable {q tag id n pcrc : Nat} {data : List Byte} {s : State} (hs : halted s = false) (hready : mgmtReady q tag 0x50 s = true)
  (hmedia : planeDown .media s = false)
include hs hready hmedia

/-- With nothing staged piece 0 begins a transfer. -/
theorem exec_fwPiece_first (hst : s.bld.fwSt = 0) (hstage : s.bld.stage = none) :
    exec (.fwPiece q tag id 0 pcrc false data) s = .next (firstPiece q tag id pcrc data (mgmtBegin q tag s)) := by
  change execFwPiece q tag id 0 pcrc false data s = _
  rw [execFwPiece, live_of_not_halted hs, mgmtRun_of_ready hready]
  simp [hmedia, hst, hstage]

theorem exec_fwPiece_other {r : Bool} (hst : s.bld.fwSt = 0) (hstage : s.bld.stage = none) (hn : n ≠ 0) :
    exec (.fwPiece q tag id n pcrc r data) s = .next (piecePost q tag stHeaderFirst 0 (mgmtBegin q tag s)) := by
  change execFwPiece q tag id n pcrc r data s = _
  rw [execFwPiece, live_of_not_halted hs, mgmtRun_of_ready hready]
  simp [hmedia, hst, hstage, hn]

theorem exec_fwPiece_staged {t : FwStage} (hst : s.bld.fwSt < 3) (hstage : s.bld.stage = some t) :
    exec (.fwPiece q tag t.img.id n pcrc false data) s = .next (takePiece q tag t n pcrc data (mgmtBegin q tag s)) := by
  change execFwPiece q tag t.img.id n pcrc false data s = _
  rw [execFwPiece, live_of_not_halted hs, mgmtRun_of_ready hready]
  simp [hmedia, Nat.not_le.mpr hst, hstage]

end

/-- A piece in its range, whole and not there yet, is stored. -/
theorem takePiece_new {q tag n : Nat} {t : FwStage} {data : List Byte} (hn : n < pieceCount t) (hlen : data.length = pieceLen t n)
    (hnew : tget? t.pieces n = none) (s : State) :
    takePiece q tag t n (crc32c data) data s = piecePost q tag stSuccess 0 (storePiece t n data s) := by
  simp [takePiece, Nat.not_le.mpr hn, hlen, hnew]

/-! FW_ACTIVATE and DISCARD (R658, R659). -/

section
variable {q tag : Nat} {s : State} (hs : halted s = false) (hready : mgmtReady q tag 0x51 s = true)
include hs hready

theorem exec_fwActivate_whole {t : FwStage} (hst : s.bld.fwSt < 5) (hstage : s.bld.stage = some t) (hmissing : missing t = []) :
    let i := wholeImage t
    let u := mgmtBegin q tag s
    exec (.fwActivate q tag t.img.id false true) s = .next (
      if i.ok = false ∨ keyGood i u = false then mgmtPost q tag stAuthFailed 0 (stagingClear u.bld.outcome u)
      else if arbGood i u = false then mgmtPost q tag stRollback 0 u
      else mgmtPost q tag stSuccess 0 (mrTry 2 6 0x0020 (Config.sha384 (i.bytes.take 512)) { u with bld.fwSt := 3 })) := by
  change execFwActivate q tag t.img.id false true s = _
  rw [execFwActivate, live_of_not_halted hs, mgmtRun_of_ready hready]
  simp [Nat.not_le.mpr hst, hstage, hmissing]

theorem exec_fwActivate_unstaged {id : Nat} {now alone : Bool} (hst : s.bld.fwSt < 5) (hstage : s.bld.stage = none) :
    exec (.fwActivate q tag id now alone) s = .next (mgmtPost q tag stNoStaged 0 (mgmtBegin q tag s)) := by
  change execFwActivate q tag id now alone s = _
  rw [execFwActivate, live_of_not_halted hs, mgmtRun_of_ready hready]
  simp [Nat.not_le.mpr hst, hstage]

/-- DISCARD is taken until the install has begun. -/
theorem exec_fwDiscard_ready : exec (.fwDiscard q tag) s = .next (
    if 3 < s.bld.fwSt then mgmtPost q tag stInstallBegun 0 (mgmtBegin q tag s)
    else mgmtPost q tag stSuccess 0 (stagingClear s.bld.outcome (mgmtBegin q tag s))) := by
  change execFwDiscard q tag s = _
  rw [execFwDiscard, live_of_not_halted hs, mgmtRun_of_ready hready]
  rfl

end

/-! Install and fallback (R660–R664). -/

section
variable {s : State} (hs : halted s = false) (hstage2 : getF F.bldStatStage s = 2) (hwarm : afterWarm s = true)
include hs hstage2 hwarm

theorem exec_firmwareInstall_failed (hst : s.bld.fwSt = 6) : exec .firmwareInstall s = .next (fallback s) := by
  change execFirmwareInstall s = _
  rw [execFirmwareInstall, live_of_not_halted hs]
  simp [hstage2, installDue, hwarm, hst]

theorem exec_firmwareInstall_staged {t : FwStage} (hst : s.bld.fwSt = 3 ∨ s.bld.fwSt = 4) (hstage : s.bld.stage = some t) :
    exec .firmwareInstall s = .next (if passes t.img.kind (wholeImage t) s = true then install (wholeImage t) s else stagingClear 5 s) := by
  have hdue : installDue s = true := by
    simp only [installDue, hwarm, Bool.true_and, List.contains_iff_mem, List.mem_cons, List.not_mem_nil, or_false]
    omega
  have hnot6 : s.bld.fwSt ≠ 6 := by omega
  change execFirmwareInstall s = _
  rw [execFirmwareInstall, live_of_not_halted hs]
  simp only [hstage2, hdue, hnot6, hstage, bne_self_eq_false, Bool.not_true, Bool.or_self, Bool.false_eq_true, if_false]
  cases passes t.img.kind (wholeImage t) s <;> rfl

end

/-- Microcode installed over an image that passes: that image is kept in reserve, and the trial of the new one begins. -/
theorem install_over_passing {i : FwImage} {s : State} (hst : s.bld.fwSt = 3) (hkind : i.kind = 2)
    (hpass : passes 2 (slotImage 2 s) s = true) :
    install i s = { s with
      bld.reserve := tset s.bld.reserve 2 (slotImage 2 s), bld.slots := tset s.bld.slots 2 i, bld.fwSt := 5, bld.starts := 1,
      bld.wdogAt := some (s.now + 600000000000) } := by
  simp [install, hst, hkind, hpass, trialStart, inTrial]

/-! The end of the trial (R652, R663, R664, R671). -/

/-- The slot's image is confirmed: its counter is fused, and the reserve copy renewed. -/
def confirmed (s : State) : State :=
  let k := stagedKind s
  let i := slotImage k s
  setF F.bldFwCtrlFwConfirm 1 (stagingClear 1
    { s with bld.arb := tset s.bld.arb k (max (tget s.bld.arb k 0) i.counter), bld.reserve := tset s.bld.reserve k i })

theorem exec_fwConfirm_trial {s : State} (hs : halted s = false) (hst : s.bld.fwSt = 5) (hin : inService s = true) :
    exec .fwConfirm s = .next (confirmed s) := by
  change execFwConfirm s = _
  rw [execFwConfirm, live_of_not_halted hs]
  simp [inTrial, hst, hin, confirmed]

theorem confirmed_bld (s : State) :
    (confirmed s).bld.fwSt = 0 ∧ (confirmed s).bld.stage = none ∧ (confirmed s).bld.outcome = 1 ∧
    tget (confirmed s).bld.arb (stagedKind s) 0 = max (tget s.bld.arb (stagedKind s) 0) (slotImage (stagedKind s) s).counter ∧
    reserveImage (stagedKind s) (confirmed s) = slotImage (stagedKind s) s := by
  simp [confirmed, stagingClear, reserveImage, tget_tset_self]

theorem exec_bootWatchdogExpiry_due {w : Nat} {s : State} (hs : halted s = false) (hst : s.bld.fwSt = 5) (hw : s.bld.wdogAt = some w)
    (hdue : w ≤ s.now) : exec .bootWatchdogExpiry s = .next (trialFail 2 s) := by
  change execBootWatchdogExpiry s = _
  rw [execBootWatchdogExpiry, live_of_not_halted hs]
  simp [inTrial, hst, hw, hdue]

theorem exec_fwReject_open {s : State} (k : Nat) (hs : halted s = false) (hpwr : getF (H.pwrState .bld) s ≠ 2)
    (hst : getF (H.state .bld) s ≠ 5) : exec (.fwReject k) s = .next (if k = 0x0FA1 && inTrial s then trialFail 4 s else s) := by
  change execFwReject k s = _
  rw [execFwReject, live_of_not_halted hs, regWrite_of_open hpwr hst]

/-! Settings (R666–R668). -/

theorem exec_settingsWrite_good {q tag : Nat} {b : Settings} {s : State} (hs : halted s = false) (hready : mgmtReady q tag 0x52 s = true)
    (hst : s.bld.fwSt < 5) (hwhole : settingsWhole b = true) (hver : b.setVer = s.bld.setVer) (hitems : b.items.all itemOk = true) :
    exec (.settingsWrite q tag b) s = .next (mgmtPost q tag stSuccess 0 (settingsPut b (mgmtBegin q tag s))) := by
  change execSettingsWrite q tag b s = _
  rw [execSettingsWrite, live_of_not_halted hs, mgmtRun_of_ready hready,
    checks_pass q tag (by simp [Nat.not_le.mpr hst, hwhole, hver, hitems])]

/-- Copy A is written while its GEN is not above copy B's. -/
theorem settingsPut_copyA {b : Settings} {s : State} (hgen : setGen s.bld.setA ≤ setGen s.bld.setB) :
    settingsPut b s = { s with bld.setA := some { b with gen := setGen s.bld.setB + 1 } } := by
  simp [settingsPut, hgen]

/-- Settles O57: each command evaluated under its hypotheses; the tables of slots, reserve copies and counters hold what was put last. -/
theorem firmwareAndSettingsAreUpdated : Obligations.FirmwareAndSettingsAreUpdated := by
  unfold Obligations.FirmwareAndSettingsAreUpdated
  refine ⟨fun q tag id pcrc r data s hs hready hmedia hst hstage hr => ?firstPiece,
    fun _ _ _ _ _ _ _ _ hs hready hmedia hst hstage hn => exec_fwPiece_other hs hready hmedia hst hstage hn,
    fun q tag n t data s hs hready hmedia hst hstage hn hlen hnew => ?piece,
    fun _ _ _ _ hs hready hst hstage hmissing => exec_fwActivate_whole hs hready hst hstage hmissing,
    fun _ _ _ _ _ _ hs hready hst hstage => exec_fwActivate_unstaged hs hready hst hstage,
    fun q tag s hs hready hst => ?discard, fun q tag s hs hready hst => ?discardLate,
    fun _ hs hstage hwarm hst => exec_firmwareInstall_failed hs hstage hwarm hst,
    fun _ _ hs hstage2 hwarm hst hstage => exec_firmwareInstall_staged hs hstage2 hwarm hst hstage,
    fun i s hst hkind hpass => ?install, fun s _ => ?fallback, fun s hs hst hin => ?confirm,
    fun _ _ hs hst hw hdue => exec_bootWatchdogExpiry_due hs hst hw hdue, fun s hs hpwr hopen hst => ?reject,
    fun k s hs hpwr hopen hk => ?otherKey,
    fun _ _ _ _ hs hready hst hwhole hver hitems => exec_settingsWrite_good hs hready hst hwhole hver hitems,
    fun b s hgen => ?settings⟩
  case firstPiece =>
    subst hr
    exact exec_fwPiece_first hs hready hmedia hst hstage
  case piece =>
    rw [exec_fwPiece_staged hs hready hmedia hst hstage, takePiece_new hn hlen hnew]
    rfl
  case discard =>
    rw [exec_fwDiscard_ready hs hready, if_neg (Nat.not_lt.mpr hst)]
    rfl
  case discardLate =>
    rw [exec_fwDiscard_ready hs hready, if_pos hst]
  case install =>
    rw [install_over_passing hst hkind hpass]
    exact ⟨tget_tset_self _ _ _ _, tget_tset_self _ _ _ _, rfl, rfl, rfl⟩
  case fallback =>
    exact ⟨tget_tset_self _ _ _ _, rfl, rfl, rfl⟩
  case confirm =>
    obtain ⟨hfw, hstage, hout, harb, hreserve⟩ := confirmed_bld s
    exact ⟨_, exec_fwConfirm_trial hs hst hin, harb, hreserve, hfw, hstage, hout, getF_setF_self _ _ rfl⟩
  case reject =>
    rw [exec_fwReject_open 0x0FA1 hs hpwr hopen, if_pos (by simp [inTrial, hst])]
    rfl
  case otherKey =>
    rw [exec_fwReject_open k hs hpwr hopen, if_neg (by simp [hk])]
  case settings =>
    rw [settingsPut_copyA hgen]
    exact ⟨rfl, rfl⟩

end Sys2Proof.Machine
end

section
/-! The pair's packets, links and windows, and the mirror half (R554–R577). -/

namespace Sys2Proof.Machine

/-! Packets received. -/

/-- A packet on a link that is up is counted with its header. -/
def pktCounted (link len : Nat) (s : State) : State := count (.tl link) 0x04 (32 + len) (count (.tl link) 0x02 1 s)

theorem chanOf_of_pair {ch : Nat} {s t : State} (h : t.pair = s.pair) : chanOf ch t = chanOf ch s := by
  rw [chanOf, chanOf, h]

@[simp] theorem pktCounted_pair (link len : Nat) (s : State) : (pktCounted link len s).pair = s.pair := by
  simp [pktCounted]

@[simp] theorem chanOf_pktCounted (ch link len : Nat) (s : State) : chanOf ch (pktCounted link len s) = chanOf ch s :=
  chanOf_of_pair (pktCounted_pair link len s)

section
variable {link : Nat} {p : Pkt} {s : State} (hup : getF (F.tlLinkStatUp link) s = 1) (hdown : blockDown (.tl link) s = false)
include hup hdown

/-- What `takePkt` does on a link that is up, in the state that has counted the packet. -/
theorem takePkt_up (f : State → State) : takePkt link p f s =
    (let t := pktCounted link p.len s
    let c := chanOf p.ch t
    if !p.hcrcOk then onLink link (.nak p.ch (c.taken + 1) 2) t
    else if !t.pair.joined || p.cseq ≤ c.taken then t
    else if p.cseq != c.taken + 1 then onLink link (.nak p.ch (c.taken + 1) 3) t
    else onLink link (.ack p.ch p.cseq) (f (putChan p.ch { c with taken := p.cseq } t))) := by
  rw [takePkt, onF_eq_true hup, hdown]
  rfl

theorem takePkt_badHcrc (hcrc : p.hcrcOk = false) (f : State → State) :
    takePkt link p f s = onLink link (.nak p.ch ((chanOf p.ch s).taken + 1) 2) (pktCounted link p.len s) := by
  rw [takePkt_up hup hdown]
  simp [hcrc]

variable (hjoined : s.pair.joined = true) (hcrc : p.hcrcOk = true)
include hjoined hcrc

/-- The next packet of its channel has its effect and is acknowledged. -/
theorem takePkt_inOrder (hseq : p.cseq = (chanOf p.ch s).taken + 1) (f : State → State) :
    takePkt link p f s = onLink link (.ack p.ch p.cseq)
      (f (putChan p.ch { chanOf p.ch s with taken := p.cseq } (pktCounted link p.len s))) := by
  rw [takePkt_up hup hdown]
  simp [hjoined, hcrc, hseq]

theorem takePkt_ahead (hseq : (chanOf p.ch s).taken + 1 < p.cseq) (f : State → State) :
    takePkt link p f s = onLink link (.nak p.ch ((chanOf p.ch s).taken + 1) 3) (pktCounted link p.len s) := by
  have hnew : ¬ p.cseq ≤ (chanOf p.ch s).taken := by omega
  have hgap : p.cseq ≠ (chanOf p.ch s).taken + 1 := by omega
  rw [takePkt_up hup hdown]
  simp [hjoined, hcrc, hnew, hgap]

end

/-! TROYS_WRITE and TROYS_MSG (R556–R558, R562). -/

/-- The active window that a packet of a link names. -/
def winNamed (link : Nat) (p : Pkt) (s : State) : Win := tget s.pair.wins (link * 8 + p.win) { base := 0, size := 0 }

section
variable {link : Nat} {p : Pkt} {data : List Byte} {s : State} (hs : halted s = false) (hup : getF (F.tlLinkStatUp link) s = 1)
  (hdown : blockDown (.tl link) s = false) (hjoined : s.pair.joined = true) (hcrc : p.hcrcOk = true) (htyp : p.typ = 1)
  (hch : p.ch = 0 ∨ p.ch = 1 ∨ p.ch = 5) (hwin : p.win ≤ 7) (hlen : data.length = p.len)
include hs hup hdown hjoined hcrc htyp hch hwin hlen

theorem exec_troysWrite_wellFormed : exec (.troysWrite link p data) s = .next (
    if (winNamed link p s).size == 0 || decide (4096 * (winNamed link p s).size < p.offset + p.len) then
      onLink link (.nak p.ch p.cseq 1) (pktCounted link p.len s)
    else takePkt link p (writeTaken p data) s) := by
  have hform : (data.length != p.len || p.typ != 1 || !(p.ch == 0 || p.ch == 1 || p.ch == 5) || decide (7 < p.win)) = false := by
    rcases hch with hch | hch | hch <;> simp [hlen, htyp, hch, hwin]
  have hready : (p.hcrcOk && s.pair.joined && onF (F.tlLinkStatUp link) s && !blockDown (.tl link) s) = true := by
    simp [hcrc, hjoined, onF_eq_true hup, hdown]
  change execTroysWrite link p data s = _
  rw [execTroysWrite, live_of_not_halted hs, hform, if_neg (by decide), hready, Bool.true_and]
  rfl

theorem exec_troysWrite_taken (hsize : (winNamed link p s).size ≠ 0) (hfits : p.offset + p.len ≤ 4096 * (winNamed link p s).size)
    (hseq : p.cseq = (chanOf p.ch s).taken + 1) : exec (.troysWrite link p data) s = .next (onLink link (.ack p.ch p.cseq)
      (writeTaken p data (putChan p.ch { chanOf p.ch s with taken := p.cseq } (pktCounted link p.len s)))) := by
  rw [exec_troysWrite_wellFormed hs hup hdown hjoined hcrc htyp hch hwin hlen, if_neg (by simp [hsize, hfits]),
    takePkt_inOrder hup hdown hjoined hcrc hseq]

theorem exec_troysWrite_past (hpast : 4096 * (winNamed link p s).size < p.offset + p.len) :
    exec (.troysWrite link p data) s = .next (onLink link (.nak p.ch p.cseq 1) (pktCounted link p.len s)) := by
  rw [exec_troysWrite_wellFormed hs hup hdown hjoined hcrc htyp hch hwin hlen, if_pos (by simp [hpast])]

end

theorem exec_troysMsg_wellFormed {link : Nat} {p : Pkt} {msg : PeerMsg} {s : State} (hs : halted s = false) (htyp : p.typ = 4)
    (hch : p.ch = 2 ∨ p.ch = 3 ∨ p.ch = 4) : exec (.troysMsg link p msg) s = .next (takePkt link p (peerMsg msg) s) := by
  have hform : (p.typ != 4 || !(p.ch == 2 || p.ch == 3 || p.ch == 4)) = false := by
    rcases hch with hch | hch | hch <;> simp [htyp, hch]
  change execTroysMsg link p msg s = _
  rw [execTroysMsg, live_of_not_halted hs, hform, if_neg (by decide)]

/-! TROYS_ACK and TROYS_NAK (R558, R562). -/

/-- An acknowledgement up to a CSEQ of a channel covers the packet. -/
def ackCovers (ch cseq : Nat) (x : Sent) : Bool := x.ch == ch && decide (x.cseq ≤ cseq) && x.link < 2

/-- The number after that of the clause which a packet carries. -/
def clauseCarried (x : Sent) : Option Nat :=
  match x.what with
  | .clause n => some (n + 1)
  | _ => none

section
variable {ch cseq credit : Nat} {s : State} (hs : halted s = false) (hup : troysUp s = true) (hjoined : s.pair.joined = true)
include hs hup hjoined

theorem exec_troysAck_up : exec (.troysAck ch cseq credit) s = .next (
    let t := pumpCh ch (putChan ch { chanOf ch s with credit := some credit }
      { s with pair.sent := s.pair.sent.filter fun x => !ackCovers ch cseq x })
    let cl := (s.pair.sent.filter (ackCovers ch cseq)).filterMap clauseCarried
    if cl.isEmpty then t else clausesAcked (cl.foldl max 0) t) := by
  change execTroysAck ch cseq credit s = _
  rw [execTroysAck, live_of_not_halted hs, if_neg (by simp [hup, hjoined])]
  rfl

/-- The packet of a clause that is acknowledged journals the clause. -/
theorem exec_troysAck_clause {n : Nat} {x : Sent} (hsent : s.pair.sent = [x]) (hch : x.ch = ch) (hseq : x.cseq ≤ cseq)
    (hlink : x.link < 2) (hwhat : x.what = .clause n) : exec (.troysAck ch cseq credit) s = .next (clausesAcked (n + 1)
      (pumpCh ch (putChan ch { chanOf ch s with credit := some credit } { s with pair.sent := [] }))) := by
  have hcov : ackCovers ch cseq x = true := by simp [ackCovers, hch, hseq, hlink]
  have hclause : clauseCarried x = some (n + 1) := by rw [clauseCarried, hwhat]
  rw [exec_troysAck_up hs hup hjoined, hsent]
  simp [hcov, hclause]

theorem exec_troysAck_none (hnone : s.pair.sent.all (fun x => x.ch != ch || decide (cseq < x.cseq)) = true) :
    exec (.troysAck ch cseq credit) s = .next (pumpCh ch (putChan ch { chanOf ch s with credit := some credit } s)) := by
  have hcov : ∀ x ∈ s.pair.sent, ackCovers ch cseq x = false := fun x hx => by
    have hx' := List.all_eq_true.mp hnone x hx
    simp only [Bool.or_eq_true, bne_iff_ne, decide_eq_true_eq] at hx'
    rw [ackCovers, Bool.and_eq_false_iff, Bool.and_eq_false_iff, beq_eq_false_iff_ne, decide_eq_false_iff_not, Nat.not_le]
    exact Or.inl hx'
  have hgone : s.pair.sent.filter (ackCovers ch cseq) = [] :=
    List.filter_eq_nil_iff.mpr fun x hx => by rw [hcov x hx]; decide
  have hkept : s.pair.sent.filter (fun x => !ackCovers ch cseq x) = s.pair.sent :=
    List.filter_eq_self.mpr fun x hx => by rw [hcov x hx]; rfl
  rw [exec_troysAck_up hs hup hjoined, hgone, hkept]
  rfl

end

theorem exec_troysNak_up {link ch cseq cause : Nat} {s : State} (hs : halted s = false) (hup : getF (F.tlLinkStatUp link) s = 1) :
    exec (.troysNak link ch cseq cause) s = .next (
      if cause = 1 then tlDown link (raise (.tl link) E.tlWindowNak 0xFF s)
      else if cause = 2 || cause = 3 then resend (fun x => x.ch == ch && decide (cseq ≤ x.cseq)) s
      else s) := by
  change execTroysNak link ch cseq cause s = _
  rw [execTroysNak, live_of_not_halted hs, onF_eq_true hup]
  rfl

/-! TROYS_LINK_UP and TROYS_LINK_DOWN (R554, R565, R576, R577). -/

theorem postEvent_keeps (c : Ctl) (e : AsyncEv) (s : State) : SamePwcJoined s (postEvent c e s) := by
  unfold postEvent takeAer putCtl
  dsimp only
  cases (ctlOf c s).aers <;> simp

theorem anaChanged_keeps (g : Nat) (s : State) : SamePwcJoined s (anaChanged g s) :=
  forEach_keeps fun _ _ => forEach_keeps fun k t => postEvent_keeps k.id _ t

/-- The peer's groups becoming accessible again does not join it. -/
theorem peerAna_joined (s : State) : (peerAna s).pair.joined = s.pair.joined :=
  (forEach_keeps fun g t => anaChanged_keeps g t).2

/-- The first link comes up: its speed and width are shown, severance ends, and a JOIN record goes out. -/
theorem exec_troysLinkUp_first {link sp w : Nat} {s : State} (hs : halted s = false) (hdown : getF (F.tlLinkStatUp link) s = 0)
    (htroys : troysUp s = false) (hblock : blockDown (.tl link) s = false) (htx : getF (F.tlLinkCtrlTxOff link) s = 0)
    (hsp : sp = 5 ∨ sp = 6) (hw : w = 8 ∨ w = 16) (hjoined : s.pair.joined = false) :
    let t := setF (F.tlLinkStatSpeed link) (min sp (getF (F.tlLinkCtrlMaxSpeed link) s))
      (setF (F.tlLinkStatWidth link) (min w (getF (F.tlLinkCtrlMaxWidth link) s)) s)
    let u := setInt (.tl link) I.tlLinkUp (setF (F.tlLinkStatFlit link) 1 (setF (F.tlLinkStatUp link) 1 t))
    exec (.troysLinkUp link sp w) s =
      .next (forEach (List.range 6) pumpCh (peerAna (onLink link .join (setF F.mirPairStatSevered 0 u)))) := by
  have hgo : (onF (F.tlLinkStatUp link) s || blockDown (.tl link) s || onF (F.tlLinkCtrlTxOff link) s || !(sp == 5 || sp == 6) ||
      !(w == 8 || w == 16)) = false := by
    rw [onF_eq_false hdown, hblock, onF_eq_false htx]
    rcases hsp with rfl | rfl <;> rcases hw with rfl | rfl <;> rfl
  have hpump : ∀ t : State, (forEach (List.range 6) pumpCh t).pair.joined = t.pair.joined := fun t =>
    forEach_joined _ _ _ pumpCh_joined
  change execTroysLinkUp link sp w s = _
  rw [execTroysLinkUp, live_of_not_halted hs, hgo, if_neg (by decide)]
  simp [htroys, hpump, peerAna_joined, hjoined]

/-! WIN_COMMIT (R561). -/

/-- A standby window of a link. -/
def standbyWin (link w : Nat) (s : State) : Win :=
  { base := bankF (F.tlWinBaseLoBaseLo link) w 0 s + 0x100000000 * bankF (F.tlWinBaseHiBaseHi link) w 0 s,
    size := bankF (F.tlWinSizeSize link) w 0 s }

/-- A standby window becomes active. -/
def winActivated (link w : Nat) (s : State) : State :=
  { s with pair.wins := tset s.pair.wins (link * 8 + w) (standbyWin link w s) }

theorem winsActivated_regs (link : Nat) (l : List Nat) (s : State) : (forEach l (winActivated link) s).regs = s.regs :=
  forEach_regs _ _ _ fun _ _ => rfl

theorem standbyWin_of_regs {link w : Nat} {s t : State} (h : t.regs = s.regs) : standbyWin link w t = standbyWin link w s := by
  simp only [standbyWin, bankF, h]

/-- Each window of the list is active as its standby window was, whatever was put before or after it. -/
theorem winsActivated_get (link w : Nat) (l : List Nat) (s : State)
    (h : w ∈ l ∨ tget? s.pair.wins (link * 8 + w) = some (standbyWin link w s)) :
    tget? (forEach l (winActivated link) s).pair.wins (link * 8 + w) = some (standbyWin link w s) := by
  induction l generalizing s with
  | nil => exact h.resolve_left List.not_mem_nil
  | cons v l ih =>
    have hsame : standbyWin link w (winActivated link v s) = standbyWin link w s := standbyWin_of_regs rfl
    rw [← hsame]
    refine ih (winActivated link v s) ?_
    rw [hsame]
    by_cases hvw : w = v
    · subst hvw
      exact Or.inr (tget?_tset_self _ _ _)
    · rcases h with hmem | hput
      · exact Or.inl ((List.mem_cons.mp hmem).resolve_left hvw)
      · exact Or.inr ((tget?_tset_ne _ _ (by omega)).trans hput)

theorem exec_winCommit_open {link : Nat} {s : State} (hs : halted s = false) (hpwr : getF (H.pwrState (.tl link)) s ≠ 2)
    (hst : getF (H.state (.tl link)) s ≠ 5) : exec (.winCommit link) s =
      .next (setInt (.tl link) I.tlWinDone (incF (F.tlWinCtrlWinSeq link) (forEach (List.range 8) (winActivated link) s))) := by
  change execWinCommit link s = _
  rw [execWinCommit, live_of_not_halted hs, regWrite_of_open hpwr hst]
  rfl

theorem getF_winSeq_committed (link : Nat) (s : State) :
    getF (F.tlWinCtrlWinSeq link) (setInt (.tl link) I.tlWinDone (incF (F.tlWinCtrlWinSeq link) s)) =
      (getF (F.tlWinCtrlWinSeq link) s + 1) % 65536 := by
  rw [getF_setInt_ne _ (by simp [fkey, F.tlWinCtrlWinSeq, H.intStat, base]; omega), incF, getF_setF_self _ _ rfl]
  rfl

/-! The mirror half (R560). -/

/-- Pages of windows have keys of their own. -/
theorem memKey_ne {v w p q : Nat} (hp : p < 2 ^ 24) (hq : q < 2 ^ 24) (h : v ≠ w ∨ p ≠ q) : memKey v p ≠ memKey w q := by
  unfold memKey
  omega

/-- Bytes put into one page of a window. -/
def pageWritten (w : Nat) (x : Nat × Nat × List Byte) (s : State) : State :=
  { s with pair.mirMem := tset s.pair.mirMem (memKey w x.1) (overlay (mirPage w x.1 s) x.2.1 x.2.2) }

theorem mirWrite_eq (w off : Nat) (d : List Byte) (s : State) : mirWrite w off d s = forEach (pageParts off d) (pageWritten w) s := rfl

theorem mirPage_pageWritten_self (w : Nat) (x : Nat × Nat × List Byte) (s : State) :
    mirPage w x.1 (pageWritten w x s) = overlay (mirPage w x.1 s) x.2.1 x.2.2 :=
  tget_tset_self _ _ _ _

theorem mirPage_pageWritten_ne {v w pg : Nat} {x : Nat × Nat × List Byte} (h : memKey v pg ≠ memKey w x.1) (s : State) :
    mirPage v pg (pageWritten w x s) = mirPage v pg s := by
  simp only [mirPage, pageWritten, tget, tget?_tset_ne _ _ h]

theorem pageParts_one {off : Nat} {d : List Byte} (h : d.length ≤ 4096 - off % 4096) :
    pageParts off d = [(off / 4096, off % 4096, d)] := by
  simp [pageParts, h, List.take_of_length_le h]

/-- The pages that a write touches are that of its first byte and, past that page's end, the next one. -/
theorem pageParts_pages {off : Nat} {d : List Byte} {x : Nat × Nat × List Byte} (hx : x ∈ pageParts off d) :
    x.1 = off / 4096 ∨ (x.1 = off / 4096 + 1 ∧ ¬ d.length ≤ 4096 - off % 4096) := by
  unfold pageParts at hx
  dsimp only at hx
  split at hx
  · rw [List.mem_singleton.mp hx]
    exact Or.inl rfl
  next hlong =>
    rcases List.mem_cons.mp hx with rfl | hx
    · exact Or.inl rfl
    · rw [List.mem_singleton.mp hx]
      exact Or.inr ⟨rfl, hlong⟩

theorem mirPage_pagesWritten_ne {v w pg : Nat} {l : List (Nat × Nat × List Byte)} (h : ∀ x ∈ l, memKey v pg ≠ memKey w x.1)
    (s : State) :
    mirPage v pg (forEach l (pageWritten w) s) = mirPage v pg s := by
  induction l generalizing s with
  | nil => rfl
  | cons x l ih =>
    exact (ih (fun y hy => h y (List.mem_cons_of_mem _ hy)) _).trans (mirPage_pageWritten_ne (h x List.mem_cons_self) s)

/-- A write leaves every page of every window that it does not touch. -/
theorem mirPage_mirWrite_ne {w off v pg : Nat} {d : List Byte} (hpg : pg < 2 ^ 24) (hoff : off < 2 ^ 36 - 4096)
    (h : v ≠ w ∨ (pg ≠ off / 4096 ∧ (pg ≠ off / 4096 + 1 ∨ d.length ≤ 4096 - off % 4096))) (s : State) :
    mirPage v pg (mirWrite w off d s) = mirPage v pg s := by
  refine mirPage_pagesWritten_ne (fun x hx => ?_) s
  have hpages := pageParts_pages hx
  exact memKey_ne hpg (by omega) (by omega)

theorem mirPage_mirWrite_self {w off : Nat} {d : List Byte} (h : d.length ≤ 4096 - off % 4096) (s : State) :
    mirPage w (off / 4096) (mirWrite w off d s) = overlay (mirPage w (off / 4096) s) (off % 4096) d := by
  rw [mirWrite_eq, pageParts_one h]
  exact mirPage_pageWritten_self w (off / 4096, off % 4096, d) s

/-- Settles O47: a packet is taken as its HCRC and its CSEQ say; what the first link up reports does not join the peer; the tables of
windows and pages hold under each key what was put there last. -/
theorem pairPacketsFillTheMirrorHalf : Obligations.PairPacketsFillTheMirrorHalf := by
  unfold Obligations.PairPacketsFillTheMirrorHalf
  refine ⟨fun link p data s hs hup hdown hjoined hcrc htyp hch hwin hlen hsize hfits hseq => ?taken,
    fun _ _ _ _ hs hup hdown hjoined hcrc htyp hch hwin hlen hpast =>
      exec_troysWrite_past hs hup hdown hjoined hcrc htyp hch hwin hlen hpast,
    fun link p msg s hs hup hdown hjoined hcrc htyp hch hseq => ?message,
    fun link p msg s hs hup hdown hcrc htyp hch => ?badHcrc,
    fun link p msg s hs hup hdown hjoined hcrc htyp hch hseq => ?ahead,
    fun _ _ _ _ _ _ hs hup hjoined hsent hch hseq hlink hwhat => exec_troysAck_clause hs hup hjoined hsent hch hseq hlink hwhat,
    fun _ _ _ _ hs hup hjoined hnone => exec_troysAck_none hs hup hjoined hnone,
    fun _ _ _ _ hs hup => exec_troysNak_up hs hup,
    fun link ch cseq k s hs hup hk => ?resent,
    fun _ _ _ _ hs hdown htroys hblock htx hsp hw hjoined => exec_troysLinkUp_first hs hdown htroys hblock htx hsp hw hjoined,
    fun _ _ hs => live_of_not_halted hs _,
    fun link w s hs hpwr hst hw => ?windows,
    fun _ _ _ _ _ s hpg hoff _ h => mirPage_mirWrite_ne hpg hoff h s,
    fun _ _ _ s h => mirPage_mirWrite_self h s⟩
  case taken =>
    rw [exec_troysWrite_taken hs hup hdown hjoined hcrc htyp hch hwin hlen hsize hfits hseq, ← chanOf_pktCounted p.ch link p.len s]
    rfl
  case message =>
    rw [exec_troysMsg_wellFormed hs htyp hch, takePkt_inOrder hup hdown hjoined hcrc hseq, ← chanOf_pktCounted p.ch link p.len s]
    rfl
  case badHcrc =>
    rw [exec_troysMsg_wellFormed hs htyp hch, takePkt_badHcrc hup hdown hcrc]
    rfl
  case ahead =>
    rw [exec_troysMsg_wellFormed hs htyp hch, takePkt_ahead hup hdown hjoined hcrc hseq]
    rfl
  case resent =>
    rw [exec_troysNak_up hs hup, if_neg (by omega), if_pos (by simpa using hk)]
  case windows =>
    have hget := winsActivated_get link w (List.range 8) s (Or.inl (List.mem_range.mpr hw))
    refine ⟨_, exec_winCommit_open hs hpwr hst, ?_, ?_⟩
    · simp only [setInt_frame, incF_pair, hget]
      rfl
    · rw [getF_winSeq_committed, getF_of_regs (winsActivated_regs link _ s)]

end Sys2Proof.Machine
end
